-- ==== Sys2Proof/Word.lean ====
section
/-! DEFINITION. Words, bit fields and the finite tables every other file is built from (00_scope.md R5, R7). -/

namespace Sys2Proof

/-- A register or a memory word of the BN7 (R283, R232). -/
abbrev Word := BitVec 64

/-- A byte of memory. -/
abbrev Byte := BitVec 8

/-- `bits(v, hi, lo)` of R7 as a number. -/
def bits (v : Word) (hi lo : Nat) : Nat := (v.toNat >>> lo) % 2 ^ (hi + 1 - lo)

/-- Bit `i` of a word. -/
def bit (v : Word) (i : Nat) : Bool := v.getLsbD i

/-- `sext(v, n)` of R7: the low `n` bits read as two's complement, in 64 bits. -/
def sext (v : Word) (n : Nat) : Word := (v.setWidth n).signExtend 64

/-- `zext(v, n)` of R7. -/
def zext (v : Word) (n : Nat) : Word := (v.setWidth n).setWidth 64

/-- A number as a 64-bit word, modulo 2^64. -/
def w64 (n : Nat) : Word := BitVec.ofNat 64 n

/-- 1 or 0 in a register. -/
def ofBool (b : Bool) : Word := if b then 1 else 0

/-- The field `[lo + w - 1 : lo]` of `v` replaced by the low `w` bits of `x`. -/
def putBits (v : Word) (lo w : Nat) (x : Word) : Word :=
  let m : Word := w64 ((2 ^ w - 1) <<< lo)
  (v &&& ~~~ m) ||| ((x <<< lo) &&& m)

/-- One bit set or cleared. -/
def putBit (v : Word) (i : Nat) (b : Bool) : Word := putBits v i 1 (ofBool b)

/-- A finite table keyed by numbers: entries in rising key order, an absent key standing for the owner's default. -/
abbrev Tbl (α : Type) := List (Nat × α)

/-- The entry of key `k`, if there is one. -/
def Tbl.find {α : Type} : Tbl α → Nat → Option α
  | [], _ => none
  | (k', v) :: r, k => if k' = k then some v else Tbl.find r k

/-- The entry of key `k`, or the default `d`. -/
def Tbl.get {α : Type} (d : α) (m : Tbl α) (k : Nat) : α := (Tbl.find m k).getD d

/-- The table without key `k`. -/
def Tbl.del {α : Type} : Tbl α → Nat → Tbl α
  | [], _ => []
  | (k', v) :: r, k => if k' = k then Tbl.del r k else (k', v) :: Tbl.del r k

/-- A new entry put before the first larger key. -/
def Tbl.ins {α : Type} : Tbl α → Nat → α → Tbl α
  | [], k, v => [(k, v)]
  | (k', v') :: r, k, v => if k < k' then (k, v) :: (k', v') :: r else (k', v') :: Tbl.ins r k v

/-- The table with key `k` holding `v`. -/
def Tbl.put {α : Type} (m : Tbl α) (k : Nat) (v : α) : Tbl α := Tbl.ins (Tbl.del m k) k v

/-- As `put`, but an entry equal to the default `d` is not listed, so that equal tables are equal data. -/
def Tbl.set {α : Type} [DecidableEq α] (d : α) (m : Tbl α) (k : Nat) (v : α) : Tbl α :=
  if v = d then Tbl.del m k else Tbl.put m k v

/-- Every key at or above `lo`, strictly rising, and no entry equal to the default. -/
def Tbl.wfFrom {α : Type} [DecidableEq α] (d : α) : Nat → Tbl α → Bool
  | _, [] => true
  | lo, (k, v) :: r => decide (lo ≤ k) && (decide (v ≠ d) && Tbl.wfFrom d (k + 1) r)

/-- The canonical form of a table whose default is `d`. -/
def Tbl.wf {α : Type} [DecidableEq α] (d : α) (m : Tbl α) : Bool := Tbl.wfFrom d 0 m

/-- The values of a table in key order. -/
def Tbl.vals {α : Type} (m : Tbl α) : List α := m.map Prod.snd

/-- The keys of a table, rising. -/
def Tbl.keys {α : Type} (m : Tbl α) : List Nat := m.map Prod.fst

/-- The least number in `[0, n)` that satisfies `p`. -/
def leastBelow (p : Nat → Bool) (n : Nat) : Option Nat := (List.range n).find? p

/-- The first element of `l` with the least `key`. -/
def minBy {α : Type} (key : α → Nat) : List α → Option α
  | [] => none
  | a :: r =>
    match minBy key r with
    | none => some a
    | some b => if key a ≤ key b then some a else some b

/-- The list with element `i` replaced. -/
def listSet {α : Type} (l : List α) (i : Nat) (v : α) : List α := l.set i v

/-- The list without its element `i`. -/
def dropAt {α : Type} (l : List α) (i : Nat) : List α := l.eraseIdx i

end Sys2Proof
end

