-- ==== Sys2Proof/Syntax.lean ====
section
/-! DEFINITION. The instruction forms of the BN7 (R283, R284, R402) and one constructor per row of the opcode table: the
native instructions of R292, the Rilvis bytecodes of R295, and the machine's own steps (95_what_each_step_holds.md),
whose
parameters (the core, slot, copy or value concerned) stand in the state's input register. -/

namespace Sys2Proof

/-- Which agent: the two cores of tile `t` (`t` = 64 y + x, R8, R154), a control core (R201), a firmware core (R76). -/
inductive Core where
  | a (t : Nat)
  | c (t : Nat)
  | cc (n : Nat)
  | fc (n : Nat)
  deriving DecidableEq, Repr

/-- The command engines of a tile (R223). -/
inductive Engine where
  | copy
  | load
  | matrix
  | vector
  deriving DecidableEq, Repr

/-- Where a plain register write lands: the host's BAR0 (R15, R38) or the control window of a firmware core (R78). -/
inductive RegSpace where
  | bar0
  | control (fc : Nat)
  deriving DecidableEq, Repr

/-- Format R (R283), without bits [1:0], which are reserved. -/
structure FmtR where
  pk : BitVec 3
  pn : Bool
  d : BitVec 6
  a : BitVec 6
  b : BitVec 6
  c : BitVec 6
  ma : BitVec 3
  mb : BitVec 3
  mc : BitVec 3
  clamp : BitVec 2
  scale : BitVec 3
  dt : BitVec 5
  rm : BitVec 3
  deriving DecidableEq, Repr

/-- Format I (R284). -/
structure FmtI where
  pk : BitVec 3
  pn : Bool
  d : BitVec 6
  a : BitVec 6
  la : Bool
  it : BitVec 3
  imm : BitVec 32
  deriving DecidableEq, Repr

/-- Format M (R284). -/
structure FmtM where
  pk : BitVec 3
  pn : Bool
  dr : BitVec 6
  base : BitVec 6
  idx : BitVec 6
  lbase : Bool
  lidx : Bool
  sc : BitVec 2
  ord : BitVec 2
  size : BitVec 4
  off : BitVec 20
  deriving DecidableEq, Repr

/-- Format E (R284). -/
structure FmtE where
  pk : BitVec 3
  pn : Bool
  d : BitVec 6
  a : BitVec 6
  b : BitVec 6
  c : BitVec 6
  la : Bool
  lb : Bool
  lc : Bool
  cmd : BitVec 21
  deriving DecidableEq, Repr

/-- Format J (R284). -/
structure FmtJ where
  pk : BitVec 3
  pn : Bool
  reg : BitVec 6
  off : BitVec 42
  deriving DecidableEq, Repr

/-- One row of the opcode table. -/
inductive Instr where
  /-- R297: 64-bit integer add with optional scale and saturation. -/
  | add (x : FmtR)
  /-- R297: 64-bit integer subtract with optional scale and saturation. -/
  | sub (x : FmtR)
  /-- R297: 64-bit integer multiply, low bits. -/
  | mul (x : FmtR)
  /-- R297: High 64 bits of a signed product. -/
  | mulh (x : FmtR)
  /-- R297: High 64 bits of an unsigned product. -/
  | mulhu (x : FmtR)
  /-- R297: Signed division toward zero. -/
  | div (x : FmtR)
  /-- R297: Unsigned division. -/
  | divu (x : FmtR)
  /-- R297: Signed remainder. -/
  | rem (x : FmtR)
  /-- R297: Unsigned remainder. -/
  | remu (x : FmtR)
  /-- R297: Signed minimum. -/
  | min (x : FmtR)
  /-- R297: Signed maximum. -/
  | max (x : FmtR)
  /-- R297: Unsigned minimum. -/
  | minu (x : FmtR)
  /-- R297: Unsigned maximum. -/
  | maxu (x : FmtR)
  /-- R299: Bitwise AND. -/
  | and (x : FmtR)
  /-- R299: Bitwise OR. -/
  | or (x : FmtR)
  /-- R299: Bitwise XOR. -/
  | xor (x : FmtR)
  /-- R299: Logical shift left by a register amount. -/
  | shl (x : FmtR)
  /-- R299: Logical shift right by a register amount. -/
  | shr (x : FmtR)
  /-- R299: Arithmetic shift right. -/
  | sra (x : FmtR)
  /-- R299: Count leading zero bits. -/
  | clz (x : FmtR)
  /-- R299: Count trailing zero bits. -/
  | ctz (x : FmtR)
  /-- R299: Count one bits. -/
  | popc (x : FmtR)
  /-- R299: Extract a bit field. -/
  | bext (x : FmtR)
  /-- R299: Insert a bit field. -/
  | bins (x : FmtR)
  /-- R301: Set if equal. -/
  | seq (x : FmtR)
  /-- R301: Set if not equal. -/
  | sne (x : FmtR)
  /-- R301: Set if signed less than. -/
  | slt (x : FmtR)
  /-- R301: Set if unsigned less than. -/
  | sltu (x : FmtR)
  /-- R301: Set if signed less or equal. -/
  | sle (x : FmtR)
  /-- R301: Set if unsigned less or equal. -/
  | sleu (x : FmtR)
  /-- R301: Select a or b by a condition register. -/
  | sel (x : FmtR)
  /-- R301: Register move. -/
  | mov (x : FmtR)
  /-- R303: Load a widened immediate into a g- or f-register. -/
  | movi (x : FmtI)
  /-- R303: Add an immediate. -/
  | addi (x : FmtI)
  /-- R303: AND with an immediate. -/
  | andi (x : FmtI)
  /-- R303: OR with an immediate. -/
  | ori (x : FmtI)
  /-- R303: XOR with an immediate. -/
  | xori (x : FmtI)
  /-- R303: Shift left by an immediate. -/
  | shli (x : FmtI)
  /-- R303: Logical shift right by an immediate. -/
  | shri (x : FmtI)
  /-- R303: Arithmetic shift right by an immediate. -/
  | srai (x : FmtI)
  /-- R303: Set if signed less than an immediate. -/
  | slti (x : FmtI)
  /-- R303: Set if unsigned less than an immediate. -/
  | sltui (x : FmtI)
  /-- R304: Read a buffer record's patched address or limit. -/
  | lrec (x : FmtI)
  /-- R306: Unconditional relative branch. -/
  | br (x : FmtJ)
  /-- R306: Branch if zero. -/
  | bz (x : FmtJ)
  /-- R306: Branch if nonzero. -/
  | bnz (x : FmtJ)
  /-- R306: Relative call writing the link register. -/
  | call (x : FmtJ)
  /-- R306: Branch if negative. -/
  | bltz (x : FmtJ)
  /-- R306: Branch if not negative. -/
  | bgez (x : FmtJ)
  /-- R306: Decrement a counter and branch while nonzero. -/
  | loop (x : FmtJ)
  /-- R307: Jump to a register address. -/
  | jr (x : FmtR)
  /-- R307: Call a register address. -/
  | callr (x : FmtR)
  /-- R307: Return through g15. -/
  | ret (x : FmtR)
  /-- R307: No operation. -/
  | nop (x : FmtR)
  /-- R308: End the strand and free its context. -/
  | halt (x : FmtR)
  /-- R309: Return the strand to the tail of its base run-queue level. -/
  | yield (x : FmtR)
  /-- R310: Move the strand to another tile of the rectangle. -/
  | hop (x : FmtR)
  /-- R314: Raise TC_BKPT with a register argument. -/
  | trap (x : FmtR)
  /-- R315: Return from a trap handler to RPC. -/
  | tret (x : FmtR)
  /-- R316: Breakpoint: halt under DBGCTL or raise TC_BKPT. -/
  | bkpt (x : FmtR)
  /-- R317: Invalidate the core's cached instructions over a range. -/
  | icinv (x : FmtR)
  /-- R318: Read a special register. -/
  | mfsr (x : FmtI)
  /-- R319: Write a special register. -/
  | mtsr (x : FmtI)
  /-- R323: Scalar load, zero-extended, with optional acquire or sync. -/
  | ld (x : FmtM)
  /-- R323: Scalar load, sign-extended. -/
  | lds (x : FmtM)
  /-- R324: Scalar store with optional release or sync. -/
  | st (x : FmtM)
  /-- R325: Consuming sync load that sets the word empty. -/
  | ldc (x : FmtM)
  /-- R357: Contiguous vector load. -/
  | vld (x : FmtM)
  /-- R357: Contiguous vector store. -/
  | vst (x : FmtM)
  /-- R329: Atomic exchange. -/
  | amswap (x : FmtM)
  /-- R329: Atomic add. -/
  | amadd (x : FmtM)
  /-- R329: Atomic AND. -/
  | amand (x : FmtM)
  /-- R329: Atomic OR. -/
  | amor (x : FmtM)
  /-- R329: Atomic XOR. -/
  | amxor (x : FmtM)
  /-- R329: Atomic signed minimum. -/
  | ammin (x : FmtM)
  /-- R329: Atomic signed maximum. -/
  | ammax (x : FmtM)
  /-- R329: Atomic unsigned minimum. -/
  | amminu (x : FmtM)
  /-- R329: Atomic unsigned maximum. -/
  | ammaxu (x : FmtM)
  /-- R329: Atomic compare-and-swap. -/
  | amcas (x : FmtM)
  /-- R331: Order the strand's accesses at a scope. -/
  | fence (x : FmtR)
  /-- R332: Initialise a transaction barrier. -/
  | binit (x : FmtR)
  /-- R332: Arrive on a transaction barrier with a count. -/
  | barrive (x : FmtR)
  /-- R332: Add expected sectors to a barrier. -/
  | bexpect (x : FmtR)
  /-- R334: Wait for a barrier's phase to leave v, with a bound. -/
  | bwait (x : FmtR)
  /-- R335: Claim a ring slot. -/
  | rclaim (x : FmtR)
  /-- R335: Commit a claimed ring slot. -/
  | rcommit (x : FmtR)
  /-- R335: Take a committed ring slot. -/
  | rtake (x : FmtR)
  /-- R335: Give a slot back to a ring. -/
  | rgive (x : FmtR)
  /-- R336: Read a queue register's count and room. -/
  | qstat (x : FmtR)
  /-- R337: Send a task or data message to a mailbox. -/
  | sendm (x : FmtR)
  /-- R339: Send key-value pairs to accumulate into bins. -/
  | sendk (x : FmtR)
  /-- R338: Arm a mailbox with a handler and configuration. -/
  | mbarm (x : FmtR)
  /-- R344: Lane add. -/
  | vadd (x : FmtR)
  /-- R344: Lane subtract. -/
  | vsub (x : FmtR)
  /-- R344: Lane multiply. -/
  | vmul (x : FmtR)
  /-- R344: Lane fused multiply-add. -/
  | vfma (x : FmtR)
  /-- R345: Lane minimum. -/
  | vmin (x : FmtR)
  /-- R345: Lane maximum. -/
  | vmax (x : FmtR)
  /-- R345: Lane divide. -/
  | vdiv (x : FmtR)
  /-- R344: Lane bitwise AND. -/
  | vand (x : FmtR)
  /-- R344: Lane bitwise OR. -/
  | vor (x : FmtR)
  /-- R344: Lane bitwise XOR. -/
  | vxor (x : FmtR)
  /-- R344: Lane shift left. -/
  | vshl (x : FmtR)
  /-- R344: Lane logical shift right. -/
  | vshr (x : FmtR)
  /-- R344: Lane arithmetic shift right. -/
  | vsra (x : FmtR)
  /-- R346: Compare lanes for equality into a predicate. -/
  | vceq (x : FmtR)
  /-- R346: Compare lanes for inequality into a predicate. -/
  | vcne (x : FmtR)
  /-- R346: Compare lanes less-than into a predicate. -/
  | vclt (x : FmtR)
  /-- R346: Compare lanes less-or-equal into a predicate. -/
  | vcle (x : FmtR)
  /-- R347: Select lanes by mask. -/
  | vsel (x : FmtR)
  /-- R351: Convert lanes between formats. -/
  | vcvt (x : FmtR)
  /-- R352: Broadcast a g-register into lanes. -/
  | vbcast (x : FmtR)
  /-- R352: Insert a g-register into one lane. -/
  | vins (x : FmtR)
  /-- R352: Extract one lane into a g-register. -/
  | vext (x : FmtR)
  /-- R352: Copy lanes, or push a vector onto q6 or q7. -/
  | vmov (x : FmtR)
  /-- R348: Predicate AND. -/
  | kand (x : FmtR)
  /-- R348: Predicate OR. -/
  | kor (x : FmtR)
  /-- R348: Predicate XOR. -/
  | kxor (x : FmtR)
  /-- R348: Predicate NOT. -/
  | knot (x : FmtR)
  /-- R353: Reduce lanes by sum into lane 0. -/
  | vredsum (x : FmtR)
  /-- R353: Reduce lanes by maximum. -/
  | vredmax (x : FmtR)
  /-- R353: Reduce lanes by minimum. -/
  | vredmin (x : FmtR)
  /-- R353: Inclusive prefix sum over active lanes. -/
  | vscan (x : FmtR)
  /-- R354: Permute lanes by index. -/
  | vperm (x : FmtR)
  /-- R355: Lane 2^a, correctly rounded. -/
  | vexp2 (x : FmtR)
  /-- R355: Lane log2 a, correctly rounded. -/
  | vlog2 (x : FmtR)
  /-- R355: Lane reciprocal. -/
  | vrcp (x : FmtR)
  /-- R355: Lane reciprocal square root. -/
  | vrsqrt (x : FmtR)
  /-- R355: Lane square root. -/
  | vsqrt (x : FmtR)
  /-- R358: Indexed vector load. -/
  | vgath (x : FmtR)
  /-- R358: Indexed vector store. -/
  | vscat (x : FmtR)
  /-- R359: Request a vector length. -/
  | vgrant (x : FmtR)
  /-- R361: Bind a stream register to a stream descriptor. -/
  | sbind (x : FmtR)
  /-- R363: Unbind a stream register after its writes land. -/
  | sunbind (x : FmtR)
  /-- R363: Read a stream register's state. -/
  | sstat (x : FmtR)
  /-- R370: Load a tile register by rows. -/
  | tld (x : FmtE)
  /-- R372: Load a tile register through an index vector. -/
  | tldx (x : FmtE)
  /-- R373: Store a tile register. -/
  | tst (x : FmtE)
  /-- R375: Add a full product step into an accumulator. -/
  | mma (x : FmtE)
  /-- R375: Add one limb pair's product into an accumulator. -/
  | mmal (x : FmtE)
  /-- R376: Clear an accumulator. -/
  | accz (x : FmtE)
  /-- R377: Read an accumulator row into a vector register. -/
  | accrd (x : FmtE)
  /-- R379: Write accumulator rows to memory in a format. -/
  | accwb (x : FmtE)
  /-- R380: Read an accumulator's status. -/
  | accstat (x : FmtE)
  /-- R381: Take the oldest entry from the tile's error log. -/
  | accerr (x : FmtE)
  /-- R384: Start a copy on the tile copy engine from a template. -/
  | cp (x : FmtE)
  /-- R385: Abort or dequeue a tile copy by tag. -/
  | cpabort (x : FmtE)
  /-- R385: Read a tile copy's state by tag. -/
  | cpstat (x : FmtE)
  /-- R386: Read a word of a watermark slot. -/
  | wmread (x : FmtE)
  /-- R387: Invalidate a streamer's template cache. -/
  | cinval (x : FmtE)
  /-- R389: Gather rows from a subgroup table. -/
  | gath (x : FmtE)
  /-- R390: Scatter rows to a subgroup table. -/
  | scat (x : FmtE)
  /-- R392: Look up an expert entry for a work record. -/
  | xlook (x : FmtE)
  /-- R392: Park a work record without replicas or a fill. -/
  | xpark (x : FmtE)
  /-- R392: Unpin an expert entry. -/
  | xrel (x : FmtE)
  /-- R393: Push a record at the bottom of the deque. -/
  | dqpush (x : FmtE)
  /-- R393: Pop the bottom record, stealing when empty. -/
  | dqpop (x : FmtE)
  /-- R394: Snapshot and clear routing counter bins. -/
  | ctrsnap (x : FmtE)
  /-- R396: Join a top-k merge round over a subgroup. -/
  | kmerge (x : FmtE)
  /-- R397: Join a vector reduction round over a subgroup. -/
  | rred (x : FmtE)
  /-- R398: Subgroup barrier. -/
  | gbar (x : FmtE)
  /-- R400: Issue a launch on a rectangle from a tile core. -/
  | launch (x : FmtE)
  /-- R418: Clear an inline-cache site. -/
  | icl (x : FmtR)
  /-- R418: Add or update an inline-cache site entry. -/
  | icu (x : FmtR)
  /-- R419: Find the site entry matching a key. -/
  | guard (x : FmtR)
  /-- R420: Classify a tagged value. -/
  | tagchk (x : FmtR)
  /-- R421: Load an object slot after a shape check. -/
  | ldslot (x : FmtR)
  /-- R421: Store an object slot with count changes. -/
  | stslot (x : FmtR)
  /-- R422: Increment an object's reference count. -/
  | rcinc (x : FmtR)
  /-- R422: Decrement an object's reference count. -/
  | rcdec (x : FmtR)
  /-- R423: Wait until a tensor's PEND is full. -/
  | twait (x : FmtR)
  /-- R424: Make a native detour to a DTVEC handler. -/
  | detour (x : FmtR)
  /-- R425: Return from a handler to bytecode mode. -/
  | detret (x : FmtR)
  /-- R427: Issue a port launch from native code. -/
  | plaunch (x : FmtR)
  /-- R222: Stop the core at the end bytecode. -/
  | bcEnd
  /-- R414: Return from a bytecode frame. -/
  | bcRet
  /-- R222: Push an integer constant. -/
  | bcLdi (x0 : BitVec 16)
  /-- R408: Push a special value. -/
  | bcLdsp (x0 : BitVec 8)
  /-- R222: Push a local. -/
  | bcLdloc (x0 : BitVec 8)
  /-- R222: Pop into a local. -/
  | bcStloc (x0 : BitVec 8)
  /-- R408: Push a global. -/
  | bcLdglob (x0 : BitVec 16)
  /-- R408: Pop into a global. -/
  | bcStglob (x0 : BitVec 16)
  /-- R408: Duplicate the top of stack. -/
  | bcDup
  /-- R408: Pop the top of stack. -/
  | bcPop
  /-- R408: Exchange the top two values. -/
  | bcSwap
  /-- R409: Attribute-read site bytecode. -/
  | bcGetattrS (x0 : BitVec 16)
  /-- R409: Attribute-write site bytecode. -/
  | bcSetattrS (x0 : BitVec 16)
  /-- R409: Replace an object by one of its slots. -/
  | bcLdsl (x0 : BitVec 8)
  /-- R409: Store into an object slot by exchange. -/
  | bcStsl (x0 : BitVec 8)
  /-- R409: Allocate an object from stack values. -/
  | bcMkobj (x0 : BitVec 16) (x1 : BitVec 8)
  /-- R409: Push an object's slots. -/
  | bcUnpack (x0 : BitVec 8)
  /-- R222: Decrement a local and branch while nonzero. -/
  | bcLoopdec (x0 : BitVec 8) (x1 : BitVec 16)
  /-- R410: Bytecode branch. -/
  | bcBr (x0 : BitVec 16)
  /-- R410: Pop and branch if true. -/
  | bcBrt (x0 : BitVec 16)
  /-- R410: Pop and branch if false. -/
  | bcBrf (x0 : BitVec 16)
  /-- R410: Range-loop step over two locals. -/
  | bcForr (x0 : BitVec 8) (x1 : BitVec 16)
  /-- R222: Binary add site bytecode. -/
  | bcAddS (x0 : BitVec 16)
  /-- R411: Binary subtract site bytecode. -/
  | bcSubS (x0 : BitVec 16)
  /-- R411: Binary multiply site bytecode. -/
  | bcMulS (x0 : BitVec 16)
  /-- R411: Binary divide site bytecode. -/
  | bcDivS (x0 : BitVec 16)
  /-- R411: Matrix-multiply site bytecode. -/
  | bcMmS (x0 : BitVec 16)
  /-- R411: Less-than site bytecode. -/
  | bcLtS (x0 : BitVec 16)
  /-- R411: Less-or-equal site bytecode. -/
  | bcLeS (x0 : BitVec 16)
  /-- R411: Equality site bytecode. -/
  | bcEqS (x0 : BitVec 16)
  /-- R412: Unary negate site bytecode. -/
  | bcNegS (x0 : BitVec 16)
  /-- R411: Call site bytecode. -/
  | bcCallS (x0 : BitVec 16) (x1 : BitVec 8)
  /-- R413: Direct call of a bytecode function. -/
  | bcCallb (x0 : BitVec 8)
  /-- R415: Issue a launch from a template held in a global. -/
  | bcTlaunch (x0 : BitVec 16)
  /-- R415: Wait for a tensor and raise on error. -/
  | bcWaitt
  /-- R415: Detour with RAISE. -/
  | bcRaise
  /-- R415: Record a try handler in the frame. -/
  | bcTry (x0 : BitVec 16)
  /-- R415: Clear the frame's try handler. -/
  | bcUntry
  /-- R293: A core fetches a word with a reserved OP or FN, such as zero padding, and traps with TC_ILLOP at decode. -/
  | reservedOpcode (w : Word)
  /-- R416: A control core in bytecode mode meets an unassigned opcode byte and detours with BADOP, g1 holding the byte. -/
  | unassignedBytecode (b : Byte)
  /-- R29: Power-on runs the bring-up sequence: identity derivation, signature checks, tier-port training, CD0 start and reduced service. -/
  | powerOn
  /-- R31: The firmware widens service to full service once HBM, dies and scale-out links are trained, and the clock moves to the profile clock. -/
  | fullService
  /-- R21: A host write of PWR_CTL.SEL requests a power profile; a write of 3 leaves SEL unchanged. -/
  | pwrCtlSel
  /-- R21: Within 50 us of a SEL write, the clock changes to the profile in force, and CUR and CLK update. -/
  | profileChange
  /-- R23: Over each 10 ms window the module lowers or restores the arithmetic, mesh and firmware clocks in 0.1 GHz steps to hold the power limit. -/
  | powerLimitWindow
  /-- R23: The hottest junction reaches 105 C; the module falls to P-eco and sets THERM. -/
  | thermalThrottle
  /-- R23: The hottest junction falls below 95 C; THERM clears and the profile of R22 returns. -/
  | thermalRecover
  /-- R23: At 115 C every die, firmware core and engine stops, TRIP is set and MGMT_VEC is raised. -/
  | thermalTrip
  /-- R13: A tier port fails its link or exceeds its retry limit; its granules deliver poison until reset and an ERROR event of class 9 is raised. -/
  | tierPortFail
  /-- R35: Every 10 minutes the firmware writes the lifetime counters and histograms to module flash. -/
  | counterUpdate
  /-- R15: A write to a BAR0 or control-window register that has no behaviour of its own sets its RW fields; narrow or reserved writes are ignored. -/
  | registerWrite
  /-- R25: A write of 1 to CKPT_CTL.START drains every launch rectangle and starts a checkpoint of HBM to the tier. -/
  | ckptStart
  /-- R28: A write of 1 to CKPT_CTL.RESTORE checks for present work and a completed checkpoint, then starts a restore from slot GOOD. -/
  | ckptRestore
  /-- R28: A write of 1 to CKPT_CTL.ABORT stops the checkpoint or restore in progress and discards the frames being written. -/
  | ckptAbort
  /-- R25: The checkpoint's writes finish; it becomes the good checkpoint, SEQ and GOOD update and frames only the previous one used are freed. -/
  | checkpointComplete
  /-- R28: The restore has written HBM and resumed the drained rectangles; STATUS becomes 8. -/
  | restoreComplete
  /-- R37: Management command that registers a user queue from a registration record and returns its queue id or a refusal code. -/
  | qreg
  /-- R96: Management command that deregisters a queue after aborting its launches and copies under R60. -/
  | qdereg
  /-- R56: Management command that stops a queue with status 6 and aborts its launched work. -/
  | qstop
  /-- R56: Management command that sets a stopped queue active, clears ERR and sets PEND if it has ready work. -/
  | qresume
  /-- R92: Management command that sets a PASID's slot budget. -/
  | qbudget
  /-- R96: Management command that gives a PASID an empty root and admits it to PASID commands. -/
  | pasidEn
  /-- R59: Management command that kills every queue of a PASID, bumps GEN, stops fetches and starts teardown. -/
  | pasidRel
  /-- R60: When no access under the PASID can remain, the firmware writes the PASID_REL reply and the queues read STATE 3 with ERR 6. -/
  | pasidRelComplete
  /-- R74: Management command that checks an Olivel container, places its sections, patches buffer records and returns a load handle and report. -/
  | oload
  /-- R75: Management command that releases a load handle; sections are freed once the launches naming its templates complete. -/
  | ounload
  /-- R201: Management command that binds a control core to a PASID and starts it in bytecode or native mode. -/
  | ccstart
  /-- R201: Management command that stops a control core at an instruction or bytecode boundary and returns its VPC or PC. -/
  | ccstop
  /-- R128: Management command that binds a streamer channel to a PASID and a template table. -/
  | onrbindBind
  /-- R96: Management command that unbinds a channel once its start queue is empty and its copy has ended. -/
  | onrbindUnbind
  /-- R19: Management command that defines a remote window with PASID, base, length, directions and accepted modules. -/
  | rwsetDefine
  /-- R19: Management command that deletes a remote window once every copy naming it has ended. -/
  | rwsetDelete
  /-- R316: Management command that sets halt-on-breakpoint for a core. -/
  | dbgctlSetHalt
  /-- R316: Management command that clears halt-on-breakpoint for a core. -/
  | dbgctlClearHalt
  /-- R316: Management command that resumes a debugger-halted core at NPC. -/
  | dbgctlResume
  /-- R34: Management command that writes an attestation report with digests, module id and nonce signed by the identity key. -/
  | attest
  /-- R35: Management command that copies the lifetime counters into a host buffer. -/
  | ctrread
  /-- R29: Management command that checks and installs a signed firmware image or configuration record for the next power-on. -/
  | fwupdate
  /-- R95: A firmware write of MG_DONE marks a command slot done, releasing the reply, and raises MGMT_VEC if IRQ was set. -/
  | mgDone
  /-- R40: A write of DB sets WIDX as a kick, is ignored, or stops the queue with ERR 9. -/
  | doorbell
  /-- R38: A write of WM_SET sets waymarks atomically and counts as a kick. -/
  | wmSet
  /-- R38: A write of WM_CLR clears waymarks atomically. -/
  | wmClr
  /-- R41: While the window has a free entry, the module reads the next packet whole, checks and captures it, and advances RIDX. -/
  | packetFetch
  /-- R42: A windowed packet whose waymarks, barrier and resource conditions all hold launches, clearing WAIT bits under CONSUME. -/
  | packetLaunch
  /-- R53: A packet completes: its writes become visible, its SET takes effect, its record is written and its interrupt raised. -/
  | packetComplete
  /-- R48: Every die acknowledges the invalidation of the patch-fence range, and the packet completes. -/
  | patchFenceComplete
  /-- R80: A slot that stays idle for 16,384 cycles raises a QIDLE event. -/
  | qidle
  /-- R80: A firmware timer's period expires and a TIMER event enters the event queue. -/
  | timer
  /-- R77: A handler runs 2^24 cycles; the core is reset, its locks released and an ERROR event of class 3 raised. -/
  | watchdogExpiry
  /-- R82: An event is handed in raise order to the lowest-numbered idle firmware core, respecting queue ordering locks. -/
  | eventHandoff
  /-- R78: A read of EVQ_TAKE ends the previous handler, then waits for an event and returns word 0 of its record. -/
  | evqTake
  /-- R78: A write of EVQ_DONE ends the handler and releases the core's ordering locks. -/
  | evqDone
  /-- R83: A write of QLOCK_REQ tries, without waiting, to take a queue's ordering lock and sets QLOCK_STAT. -/
  | qlockReq
  /-- R88: Slot command that maps a queue onto a free slot from its control block. -/
  | map
  /-- R89: Slot command that stops a slot, waits for fetches in flight and writes the queue state back to its control block. -/
  | save
  /-- R88: Slot command that changes an active slot's priority. -/
  | setprio
  /-- R78: A write of TIMER_SET starts or stops one of the core's timers with a period in microseconds. -/
  | timerSet
  /-- R93: A write of XF_DONE with outcome retry makes every agent of the ticket translate again. -/
  | xfDoneRetry
  /-- R93: A write of XF_DONE with outcome fail poisons core accesses and aborts frozen copies of the ticket. -/
  | xfDoneFail
  /-- R116: The host returns an ATS translation, which the agent caches with the leaf. -/
  | atsResponse
  /-- R116: A host ATS invalidation is held until a shoot-down covering its range completes, then answered. -/
  | atsInvalidation
  /-- R93: The host answers a PRI page request, and the firmware retries or fails the ticket. -/
  | priResponse
  /-- R93: A PRI request left unanswered for 100 ms fails its ticket. -/
  | priTimeout
  /-- R119: A write of SD_REQ starts a shoot-down of the descriptor's range to every translating agent. -/
  | sdReq
  /-- R119: The last agent acknowledges, and no access uses a covered translation from then on. -/
  | shootdownComplete
  /-- R94: A shoot-down lacks acknowledgements after 16,384 cycles and raises SDTIMEOUT. -/
  | sdtimeout
  /-- R117: A write of SD_RETRY reissues the invalidation to the agents that have not acknowledged. -/
  | sdRetry
  /-- R94: A write of SD_FORCE resets the unacknowledged agents, aborting their copies, and completes the shoot-down. -/
  | sdForce
  /-- R123: A write of MIG_REQ starts a migration: the old home sets MIG, queues arrivals and streams the frame. -/
  | migReq
  /-- R123: The frame has been streamed; the leaf is rewritten, the queue forwarded and a shoot-down over the page started. -/
  | migrationStreamEnd
  /-- R124: An agent receives a redirect notice, updates its translation and reissues the access to the new home. -/
  | redirectNotice
  /-- R123: The old home issues a queue-space notice and refused accesses are retried. -/
  | queueSpaceNotice
  /-- R129: A GO store enters a copy start into the channel's start queue, or is dropped and counted. -/
  | go
  /-- R128: A write of an on-ramp's CINVAL invalidates the channel's template cache. -/
  | cinvalWrite
  /-- R135: A copy reads its template, registers its guards or watermark slot and claims its ring slot, then goes to Running. -/
  | copyAccept
  /-- R135: An element of a copy lands in ordinal order, advancing the watermark and counting sectors on its barrier. -/
  | copyLand
  /-- R135: The last ordinal lands; guards are released, the barrier counted and the ring slot committed. -/
  | copyEnd
  /-- R141: An aborting copy has poisoned every unlanded word; its watermark jumps to E and it ends. -/
  | copyAbortComplete
  /-- R136: At least every 64 cycles while W moves, the engine reports its watermark to each guard. -/
  | watermarkReport
  /-- R137: A held access is released once every covering watermark has passed it. -/
  | heldAccessRelease
  /-- R19: A put or get arrives at the remote module and is checked against the named window. -/
  | remoteCopyRequest
  /-- R17: The destination reports its last element landed and the put completes at the source. -/
  | remotePutComplete
  /-- R18: No beat arrives for 50 ms; the destination aborts the incoming copy. -/
  | remoteSourceTimeout
  /-- R18: No acknowledgement arrives for 50 ms; the source streamer ends the copy with an engine error. -/
  | remoteAckTimeout
  /-- R153: An owner receives its gather sub-list, reads its rows and returns them. -/
  | gatherSublistArrival
  /-- R153: A returned gather row lands full at the requester and lowers its counter and PEND. -/
  | gatherRowArrival
  /-- R390: An owner writes a scattered row and acknowledges it. -/
  | scatterRowArrival
  /-- R390: A scatter acknowledgement lowers counter j and PEND; PEND 0 sets the record's low word full. -/
  | scatterAck
  /-- R146: A waiter observes PHASE differ from v and returns true. -/
  | bwaitWake
  /-- R146: The bound of a bwait passes and it returns false. -/
  | bwaitTimeout
  /-- R162: A Blocked context's condition clears; its instruction completes and it becomes Ready. -/
  | blockedWake
  /-- R163: A core dispatches the head of its highest non-empty run-queue level. -/
  | dispatch
  /-- R163: An entry that waits 4,096 cycles moves to the next level up. -/
  | runqueueAgeing
  /-- R163: A strand that runs 16,384 cycles without blocking returns to its base level if another entry is Ready. -/
  | timeSlice
  /-- R164: A task message at an armed task mailbox admits a context at HPC, or is refused or discarded. -/
  | taskMessageArrival
  /-- R164: A data message claims a ring slot, writes its payload and commits it, or is refused or discarded. -/
  | dataMessageArrival
  /-- R167: A hop message is admitted with its live registers, or refused. -/
  | hopMessageArrival
  /-- R166: A freed context is reserved for the oldest eligible listed sender, which is notified to resend. -/
  | contextFreeNotice
  /-- R166: A freed ring slot is reserved for the oldest listed refused data message. -/
  | ringSpaceNotice
  /-- R166: 512 cycles pass without the resend; the entry returns to the list tail and the reservation ends. -/
  | noticeReservationExpiry
  /-- R165: An unlisted refused sender resends after 2,048 cycles. -/
  | unlistedResend
  /-- R170: A launch's strands, messages, copies and parked records are all done; it completes. -/
  | launchComplete
  /-- R215: A port launch starts once its rectangle is free and its wait list has retired, or retires with ERR 12. -/
  | portLaunchStart
  /-- R400: A tile-issued launch starts when its rectangle is granted at its queue's priority. -/
  | tileLaunchStart
  /-- R171: Retained banks not claimed within 10 ms are cleared and powered down. -/
  | retentionExpiry
  /-- R174: A write of DRAIN_REQ starts the pre-emption of a launch: no new placements and a grace period. -/
  | drainReq
  /-- R174: The grace period ends; contexts stop at instruction boundaries and engines settle. -/
  | drainGraceExpiry
  /-- R174: No message remains; tile state is written to the save area, the tiles free and DRAIN_WAIT returns. -/
  | drainComplete
  /-- R175: A write of RESUME_REQ restores a saved launch on its original rectangle. -/
  | resumeReq
  /-- R175: The resumption has restored every context and engine, and RESUME_WAIT returns. -/
  | resumeComplete
  /-- R183: XCMD CONFIG loads an expert residency entry from an image. -/
  | config
  /-- R182: XCMD FILL clears FERR and starts the fill of an ABSENT entry. -/
  | fill
  /-- R182: XCMD EVICT drains or drops a RESIDENT entry. -/
  | evict
  /-- R187: XCMD FLUSH releases the layby with ERRF set and no pins. -/
  | flush
  /-- R196: XCMD SETREP replaces the replica list atomically. -/
  | setrep
  /-- R183: XCMD SETWB sets WB of a RESIDENT entry. -/
  | setwb
  /-- R183: XCMD CLRPIN clears PIN and PUNDER. -/
  | clrpin
  /-- R181: Every 65,536 cycles each unpinned RESIDENT entry gains 1 in AGE. -/
  | ertAgeing
  /-- R185: The expert paging unit applies a lookup, park or unpin request as one atomic step. -/
  | expertRequest
  /-- R392: The unit's reply returns; resolved record words are written and the result goes to g[D]. -/
  | expertReply
  /-- R187: A released record is pushed at the bottom of its origin tile's C-core deque, or refused and listed. -/
  | laybyDelivery
  /-- R187: A freed deque entry is reserved for the oldest listed layby. -/
  | dequeSpaceNotice
  /-- R187: A layby that found the deque-space list full retries after 2,048 cycles. -/
  | laybyRetry
  /-- R187: 512 cycles pass without the layby's resend; the entry frees and the layby returns to the list tail. -/
  | dequeReservationExpiry
  /-- R193: A victim receives a steal request and yields the top half of its records up to r. -/
  | stealRequest
  /-- R193: The thief receives stolen records, pushes them and pops, or tries the next direction. -/
  | stealReply
  /-- R194: A key-routed element arrives and is added into its bin. -/
  | sendkArrival
  /-- R395: A collective round's combined result is written and its words set full, or its gbar waiters released. -/
  | collectiveResult
  /-- R224: An engine starts the head command of its queue once its conditions hold. -/
  | engineCommandStart
  /-- R198: A tile-load row arrives; when all have arrived the tile register becomes Full. -/
  | tileLoadRowArrival
  /-- R375: A product step finishes, adding into the accumulator and releasing last-use tile registers. -/
  | mmaComplete
  /-- R253: A vector command completes and ORs its flags into AFLAGS. -/
  | vectorCommandComplete
  /-- R362: A read stream fetches elements in ordinal order into its prefetch window. -/
  | streamElementFetch
  /-- R232: Every 2^26 cycles the tile scrubs each powered bank, correcting or poisoning words. -/
  | sramScrub
  /-- R35: Power is lost between counter updates and at most the last 10 minutes of lifetime counts are lost. -/
  | powerLoss
  /-- R35: At orderly shutdown the firmware writes the lifetime counters and histograms to module flash. -/
  | orderlyShutdown
  /-- R35: A tier or scale-out link retries a transfer, which counts in the per-port retry counters and, past the limit, fails the port. -/
  | linkRetry
  /-- R253: An accz, accrd, accwb or accstat finishes on the matrix engine, writing its result, releasing a Blocked accrd and ORing its flags into AFLAGS. -/
  | matrixCommandComplete
  /-- R95: A host write of MGO captures the command slot's request, sets STATE busy, increments SEQ and raises a MGMT event, or is ignored while busy; an unknown code is answered with status 255. -/
  | mgo
  deriving DecidableEq, Repr

end Sys2Proof
end

