-- ==== Sys2Proof/WellFormed.lean ====
section
/-! DEFINITION. Which instruction words are well-formed: register classes (R282), modifiers (R290, R291), types and
rounding (R287), and each entry's own fields. What depends on the core or on the launch (R292, R227, R70, R230) is checked
when the instruction executes. A word that breaks any of these traps with TC_ILLOP (R293). -/

namespace Sys2Proof

/-- The class of a register field (R282) and the modifiers the entry accepts on it (R290). -/
inductive Slot where
  /-- not used: code 0x00, no modifier -/
  | unused
  /-- g0-g15 read, last-use accepted -/
  | g
  /-- g0-g15 written -/
  | gd
  /-- scalar source: g0-g15 or q0-q5; `nz` when N and Z are accepted -/
  | sc (nz : Bool)
  /-- scalar destination -/
  | scd
  /-- scalar destination, or an f-register (movi with IT 3, R302) -/
  | scfd
  /-- vector source: f0-f31, q6, q7 -/
  | v (nz : Bool)
  /-- vector source of an entry that accepts no modifier (R347) -/
  | vn
  /-- vector destination f0-f31 -/
  | vd
  /-- vector destination, or q6, q7 (vmov, R352) -/
  | vdq
  /-- f0-f31 read only (vst data, vcvt C) -/
  | f
  /-- f24-f31, a stream register written (R361) -/
  | strmD
  /-- f24-f31, a stream register inspected (R361) -/
  | strmS
  /-- k1-k7 written -/
  | kd
  /-- k0-k7 read -/
  | ks
  /-- acc0-acc7 -/
  | acc
  /-- wm0-wm7 -/
  | wm
  /-- t0-t7, no last-use -/
  | tn
  /-- t0-t7 as a source that last-use releases (R374) -/
  | tl
  /-- q0-q7, inspected (R336) -/
  | qq
  deriving DecidableEq, Repr

/-- One register field of an instruction: its class, its code and its modifiers. -/
structure Field where
  slot : Slot
  code : BitVec 6
  last : Bool
  neg : Bool
  abs : Bool
  deriving DecidableEq, Repr

/-- The codes of each class (R282). -/
def Slot.codeOk (k : Slot) (c : Nat) : Bool :=
  match k with
  | .unused => c = 0
  | .g | .gd => c < 16
  | .sc _ | .scd => c < 16 || (48 ≤ c && c < 54)
  | .scfd => c < 54
  | .v _ | .vn => (16 ≤ c && c < 48) || c = 54 || c = 55
  | .vdq => (16 ≤ c && c < 48) || c = 54 || c = 55
  | .vd | .f => 16 ≤ c && c < 48
  | .strmD | .strmS => 40 ≤ c && c < 48
  | .kd => 1 ≤ c && c < 8
  | .ks | .acc | .wm => c < 8
  | .tn | .tl => 56 ≤ c
  | .qq => 48 ≤ c && c < 56

/-- Whether the class accepts a last-use bit on this code (R290, R227). -/
def Slot.lastOk (k : Slot) (c : Nat) : Bool :=
  match k with
  | .g | .tl | .f => true
  | .sc _ | .v _ => c < 48
  | _ => false

/-- Whether the class accepts N and Z (R290). -/
def Slot.nzOk (k : Slot) : Bool :=
  match k with
  | .sc nz | .v nz => nz
  | _ => false

/-- A register field within its class and modifiers. -/
def Field.ok (x : Field) : Bool :=
  x.slot.codeOk x.code.toNat && (!x.last || x.slot.lastOk x.code.toNat) && ((!x.neg && !x.abs) || x.slot.nzOk)

/-- The fields A, B, C, D of format R, in the order of R294; a `D` that is read comes last. -/
def FmtR.fields (x : FmtR) (d a b c : Slot) : List Field :=
  [⟨a, x.a, x.ma.getLsbD 2, x.ma.getLsbD 1, x.ma.getLsbD 0⟩, ⟨b, x.b, x.mb.getLsbD 2, x.mb.getLsbD 1, x.mb.getLsbD 0⟩,
   ⟨c, x.c, x.mc.getLsbD 2, x.mc.getLsbD 1, x.mc.getLsbD 0⟩, ⟨d, x.d, false, false, false⟩]

/-- The fields of format E. -/
def FmtE.fields (x : FmtE) (d a b c : Slot) : List Field :=
  [⟨a, x.a, x.la, false, false⟩, ⟨b, x.b, x.lb, false, false⟩, ⟨c, x.c, x.lc, false, false⟩,
   ⟨d, x.d, false, false, false⟩]

/-- The fields of format I. -/
def FmtI.fields (x : FmtI) (d a : Slot) : List Field :=
  [⟨a, x.a, x.la, false, false⟩, ⟨d, x.d, false, false, false⟩]

/-- The fields of format M: base, index (absent for 0x3F, R285), data. -/
def FmtM.fields (x : FmtM) (data : Slot) : List Field :=
  ⟨.g, x.base, x.lbase, false, false⟩ ::
    ((if x.idx = 0x3F then [] else [⟨.g, x.idx, x.lidx, false, false⟩]) ++ [⟨data, x.dr, false, false, false⟩])

/-- No modifier bits, `CLAMP`, `SCALE`, `DT` or `RM` (the last-use bits are the fields' own). -/
def FmtR.plain (x : FmtR) : Bool := x.clamp = 0 && x.scale = 0 && x.dt = 0 && x.rm = 0

/-- `DT` 1 or 2, no rounding, `CLAMP` 0 or 3 with any `SCALE` when `cs` (R296), else none. -/
def FmtR.intOk (x : FmtR) (cs : Bool) : Bool :=
  (x.dt = 1 || x.dt = 2) && x.rm = 0 && (if cs then x.clamp = 0 || x.clamp = 3 else x.clamp = 0 && x.scale = 0)

/-- The types `dts`, `RM` 0-5 for the float ones and 0 for the others, `CLAMP` and `SCALE` when `cs` (R343, R353, R355). -/
def FmtR.typeOk (x : FmtR) (dts : List Nat) (cs : Bool) : Bool :=
  dts.contains x.dt.toNat && (if x.dt = 9 || x.dt = 15 then x.rm.toNat ≤ 5 else x.rm = 0) &&
    (cs || (x.clamp = 0 && x.scale = 0))

/-- An FP4 or BFP type code (R349). -/
def blockType (t : Nat) : Bool := t = 14 || (16 ≤ t && t ≤ 22)

/-- The C field of `vcvt` (R349). -/
def FmtR.vcvtC (x : FmtR) : Slot :=
  if x.dt = 15 then .f else if blockType x.dt.toNat || blockType x.b.toNat then .g else .unused

/-- The type fields of `vcvt` (R349): the source type stands in field B. -/
def FmtR.vcvtOk (x : FmtR) : Bool :=
  ((3 ≤ x.b.toNat && x.b.toNat ≤ 14) || (16 ≤ x.b.toNat && x.b.toNat ≤ 22)) && 3 ≤ x.dt.toNat && x.dt.toNat ≤ 22 &&
    x.rm.toNat ≤ 5 && x.mb = 0 && !(x.dt = 15 && blockType x.b.toNat)

/-- The memory forms of R321: sizes 0-3 and the accepted `ORD`. -/
def FmtM.memOk (x : FmtM) (ords : List Nat) : Bool :=
  x.size.toNat ≤ 3 && ords.contains x.ord.toNat && !(x.idx = 0x3F && x.lidx)

/-- The vector memory forms of R356. -/
def FmtM.vecOk (x : FmtM) (ords : List Nat) : Bool :=
  x.size = 4 && ords.contains x.ord.toNat && !(x.idx = 0x3F && x.lidx)

/-- The atomic forms of R328: `SIZE` 2 or 3 and a `SCOPE` of 0-4. -/
def FmtM.atomOk (x : FmtM) : Bool :=
  (x.size = 2 || x.size = 3) && x.off.toNat >>> 17 ≤ 4 && !(x.idx = 0x3F && x.lidx)

/-- The `IT` code of an immediate form (R302): 3 only for `movi`. -/
def FmtI.itOk (x : FmtI) : Bool := x.it.toNat ≤ 2

/-- The immediate widened under R288. -/
def FmtI.value (x : FmtI) : Word :=
  match x.it.toNat with
  | 0 => x.imm.signExtend 64
  | 2 => x.imm.setWidth 64 <<< 32
  | _ => x.imm.setWidth 64

/-- Bits [hi:lo] of an engine command field. -/
def FmtE.cb (x : FmtE) (hi lo : Nat) : Nat := (x.cmd.toNat >>> lo) % 2 ^ (hi + 1 - lo)

/-- The write-back formats of R379. -/
def accwbFormat (t : Nat) : Bool := t = 3 || t = 7 || (9 ≤ t && t ≤ 14) || (16 ≤ t && t ≤ 22)

/-- The predicate of an instruction (R289): `none` for a row that carries none. -/
def Instr.pred (i : Instr) : Option (Nat × Bool) :=
  match i with
  | .add x => some (x.pk.toNat, x.pn)
  | .sub x => some (x.pk.toNat, x.pn)
  | .mul x => some (x.pk.toNat, x.pn)
  | .mulh x => some (x.pk.toNat, x.pn)
  | .mulhu x => some (x.pk.toNat, x.pn)
  | .div x => some (x.pk.toNat, x.pn)
  | .divu x => some (x.pk.toNat, x.pn)
  | .rem x => some (x.pk.toNat, x.pn)
  | .remu x => some (x.pk.toNat, x.pn)
  | .min x => some (x.pk.toNat, x.pn)
  | .max x => some (x.pk.toNat, x.pn)
  | .minu x => some (x.pk.toNat, x.pn)
  | .maxu x => some (x.pk.toNat, x.pn)
  | .and x => some (x.pk.toNat, x.pn)
  | .or x => some (x.pk.toNat, x.pn)
  | .xor x => some (x.pk.toNat, x.pn)
  | .shl x => some (x.pk.toNat, x.pn)
  | .shr x => some (x.pk.toNat, x.pn)
  | .sra x => some (x.pk.toNat, x.pn)
  | .clz x => some (x.pk.toNat, x.pn)
  | .ctz x => some (x.pk.toNat, x.pn)
  | .popc x => some (x.pk.toNat, x.pn)
  | .bext x => some (x.pk.toNat, x.pn)
  | .bins x => some (x.pk.toNat, x.pn)
  | .seq x => some (x.pk.toNat, x.pn)
  | .sne x => some (x.pk.toNat, x.pn)
  | .slt x => some (x.pk.toNat, x.pn)
  | .sltu x => some (x.pk.toNat, x.pn)
  | .sle x => some (x.pk.toNat, x.pn)
  | .sleu x => some (x.pk.toNat, x.pn)
  | .sel x => some (x.pk.toNat, x.pn)
  | .mov x => some (x.pk.toNat, x.pn)
  | .movi x => some (x.pk.toNat, x.pn)
  | .addi x => some (x.pk.toNat, x.pn)
  | .andi x => some (x.pk.toNat, x.pn)
  | .ori x => some (x.pk.toNat, x.pn)
  | .xori x => some (x.pk.toNat, x.pn)
  | .shli x => some (x.pk.toNat, x.pn)
  | .shri x => some (x.pk.toNat, x.pn)
  | .srai x => some (x.pk.toNat, x.pn)
  | .slti x => some (x.pk.toNat, x.pn)
  | .sltui x => some (x.pk.toNat, x.pn)
  | .lrec x => some (x.pk.toNat, x.pn)
  | .br x => some (x.pk.toNat, x.pn)
  | .bz x => some (x.pk.toNat, x.pn)
  | .bnz x => some (x.pk.toNat, x.pn)
  | .call x => some (x.pk.toNat, x.pn)
  | .bltz x => some (x.pk.toNat, x.pn)
  | .bgez x => some (x.pk.toNat, x.pn)
  | .loop x => some (x.pk.toNat, x.pn)
  | .jr x => some (x.pk.toNat, x.pn)
  | .callr x => some (x.pk.toNat, x.pn)
  | .ret x => some (x.pk.toNat, x.pn)
  | .nop x => some (x.pk.toNat, x.pn)
  | .halt x => some (x.pk.toNat, x.pn)
  | .yield x => some (x.pk.toNat, x.pn)
  | .hop x => some (x.pk.toNat, x.pn)
  | .trap x => some (x.pk.toNat, x.pn)
  | .tret x => some (x.pk.toNat, x.pn)
  | .bkpt x => some (x.pk.toNat, x.pn)
  | .icinv x => some (x.pk.toNat, x.pn)
  | .mfsr x => some (x.pk.toNat, x.pn)
  | .mtsr x => some (x.pk.toNat, x.pn)
  | .ld x => some (x.pk.toNat, x.pn)
  | .lds x => some (x.pk.toNat, x.pn)
  | .st x => some (x.pk.toNat, x.pn)
  | .ldc x => some (x.pk.toNat, x.pn)
  | .vld x => some (x.pk.toNat, x.pn)
  | .vst x => some (x.pk.toNat, x.pn)
  | .amswap x => some (x.pk.toNat, x.pn)
  | .amadd x => some (x.pk.toNat, x.pn)
  | .amand x => some (x.pk.toNat, x.pn)
  | .amor x => some (x.pk.toNat, x.pn)
  | .amxor x => some (x.pk.toNat, x.pn)
  | .ammin x => some (x.pk.toNat, x.pn)
  | .ammax x => some (x.pk.toNat, x.pn)
  | .amminu x => some (x.pk.toNat, x.pn)
  | .ammaxu x => some (x.pk.toNat, x.pn)
  | .amcas x => some (x.pk.toNat, x.pn)
  | .fence x => some (x.pk.toNat, x.pn)
  | .binit x => some (x.pk.toNat, x.pn)
  | .barrive x => some (x.pk.toNat, x.pn)
  | .bexpect x => some (x.pk.toNat, x.pn)
  | .bwait x => some (x.pk.toNat, x.pn)
  | .rclaim x => some (x.pk.toNat, x.pn)
  | .rcommit x => some (x.pk.toNat, x.pn)
  | .rtake x => some (x.pk.toNat, x.pn)
  | .rgive x => some (x.pk.toNat, x.pn)
  | .qstat x => some (x.pk.toNat, x.pn)
  | .sendm x => some (x.pk.toNat, x.pn)
  | .sendk x => some (x.pk.toNat, x.pn)
  | .mbarm x => some (x.pk.toNat, x.pn)
  | .vadd x => some (x.pk.toNat, x.pn)
  | .vsub x => some (x.pk.toNat, x.pn)
  | .vmul x => some (x.pk.toNat, x.pn)
  | .vfma x => some (x.pk.toNat, x.pn)
  | .vmin x => some (x.pk.toNat, x.pn)
  | .vmax x => some (x.pk.toNat, x.pn)
  | .vdiv x => some (x.pk.toNat, x.pn)
  | .vand x => some (x.pk.toNat, x.pn)
  | .vor x => some (x.pk.toNat, x.pn)
  | .vxor x => some (x.pk.toNat, x.pn)
  | .vshl x => some (x.pk.toNat, x.pn)
  | .vshr x => some (x.pk.toNat, x.pn)
  | .vsra x => some (x.pk.toNat, x.pn)
  | .vceq x => some (x.pk.toNat, x.pn)
  | .vcne x => some (x.pk.toNat, x.pn)
  | .vclt x => some (x.pk.toNat, x.pn)
  | .vcle x => some (x.pk.toNat, x.pn)
  | .vsel x => some (x.pk.toNat, x.pn)
  | .vcvt x => some (x.pk.toNat, x.pn)
  | .vbcast x => some (x.pk.toNat, x.pn)
  | .vins x => some (x.pk.toNat, x.pn)
  | .vext x => some (x.pk.toNat, x.pn)
  | .vmov x => some (x.pk.toNat, x.pn)
  | .kand x => some (x.pk.toNat, x.pn)
  | .kor x => some (x.pk.toNat, x.pn)
  | .kxor x => some (x.pk.toNat, x.pn)
  | .knot x => some (x.pk.toNat, x.pn)
  | .vredsum x => some (x.pk.toNat, x.pn)
  | .vredmax x => some (x.pk.toNat, x.pn)
  | .vredmin x => some (x.pk.toNat, x.pn)
  | .vscan x => some (x.pk.toNat, x.pn)
  | .vperm x => some (x.pk.toNat, x.pn)
  | .vexp2 x => some (x.pk.toNat, x.pn)
  | .vlog2 x => some (x.pk.toNat, x.pn)
  | .vrcp x => some (x.pk.toNat, x.pn)
  | .vrsqrt x => some (x.pk.toNat, x.pn)
  | .vsqrt x => some (x.pk.toNat, x.pn)
  | .vgath x => some (x.pk.toNat, x.pn)
  | .vscat x => some (x.pk.toNat, x.pn)
  | .vgrant x => some (x.pk.toNat, x.pn)
  | .sbind x => some (x.pk.toNat, x.pn)
  | .sunbind x => some (x.pk.toNat, x.pn)
  | .sstat x => some (x.pk.toNat, x.pn)
  | .tld x => some (x.pk.toNat, x.pn)
  | .tldx x => some (x.pk.toNat, x.pn)
  | .tst x => some (x.pk.toNat, x.pn)
  | .mma x => some (x.pk.toNat, x.pn)
  | .mmal x => some (x.pk.toNat, x.pn)
  | .accz x => some (x.pk.toNat, x.pn)
  | .accrd x => some (x.pk.toNat, x.pn)
  | .accwb x => some (x.pk.toNat, x.pn)
  | .accstat x => some (x.pk.toNat, x.pn)
  | .accerr x => some (x.pk.toNat, x.pn)
  | .cp x => some (x.pk.toNat, x.pn)
  | .cpabort x => some (x.pk.toNat, x.pn)
  | .cpstat x => some (x.pk.toNat, x.pn)
  | .wmread x => some (x.pk.toNat, x.pn)
  | .cinval x => some (x.pk.toNat, x.pn)
  | .gath x => some (x.pk.toNat, x.pn)
  | .scat x => some (x.pk.toNat, x.pn)
  | .xlook x => some (x.pk.toNat, x.pn)
  | .xpark x => some (x.pk.toNat, x.pn)
  | .xrel x => some (x.pk.toNat, x.pn)
  | .dqpush x => some (x.pk.toNat, x.pn)
  | .dqpop x => some (x.pk.toNat, x.pn)
  | .ctrsnap x => some (x.pk.toNat, x.pn)
  | .kmerge x => some (x.pk.toNat, x.pn)
  | .rred x => some (x.pk.toNat, x.pn)
  | .gbar x => some (x.pk.toNat, x.pn)
  | .launch x => some (x.pk.toNat, x.pn)
  | .icl x => some (x.pk.toNat, x.pn)
  | .icu x => some (x.pk.toNat, x.pn)
  | .guard x => some (x.pk.toNat, x.pn)
  | .tagchk x => some (x.pk.toNat, x.pn)
  | .ldslot x => some (x.pk.toNat, x.pn)
  | .stslot x => some (x.pk.toNat, x.pn)
  | .rcinc x => some (x.pk.toNat, x.pn)
  | .rcdec x => some (x.pk.toNat, x.pn)
  | .twait x => some (x.pk.toNat, x.pn)
  | .detour x => some (x.pk.toNat, x.pn)
  | .detret x => some (x.pk.toNat, x.pn)
  | .plaunch x => some (x.pk.toNat, x.pn)
  | .bcEnd => none
  | .bcRet => none
  | .bcLdi _ => none
  | .bcLdsp _ => none
  | .bcLdloc _ => none
  | .bcStloc _ => none
  | .bcLdglob _ => none
  | .bcStglob _ => none
  | .bcDup => none
  | .bcPop => none
  | .bcSwap => none
  | .bcGetattrS _ => none
  | .bcSetattrS _ => none
  | .bcLdsl _ => none
  | .bcStsl _ => none
  | .bcMkobj _ _ => none
  | .bcUnpack _ => none
  | .bcLoopdec _ _ => none
  | .bcBr _ => none
  | .bcBrt _ => none
  | .bcBrf _ => none
  | .bcForr _ _ => none
  | .bcAddS _ => none
  | .bcSubS _ => none
  | .bcMulS _ => none
  | .bcDivS _ => none
  | .bcMmS _ => none
  | .bcLtS _ => none
  | .bcLeS _ => none
  | .bcEqS _ => none
  | .bcNegS _ => none
  | .bcCallS _ _ => none
  | .bcCallb _ => none
  | .bcTlaunch _ => none
  | .bcWaitt => none
  | .bcRaise => none
  | .bcTry _ => none
  | .bcUntry => none
  | .reservedOpcode _ => none
  | .unassignedBytecode _ => none
  | .powerOn => none
  | .fullService => none
  | .pwrCtlSel => none
  | .profileChange => none
  | .powerLimitWindow => none
  | .thermalThrottle => none
  | .thermalRecover => none
  | .thermalTrip => none
  | .tierPortFail => none
  | .counterUpdate => none
  | .registerWrite => none
  | .ckptStart => none
  | .ckptRestore => none
  | .ckptAbort => none
  | .checkpointComplete => none
  | .restoreComplete => none
  | .qreg => none
  | .qdereg => none
  | .qstop => none
  | .qresume => none
  | .qbudget => none
  | .pasidEn => none
  | .pasidRel => none
  | .pasidRelComplete => none
  | .oload => none
  | .ounload => none
  | .ccstart => none
  | .ccstop => none
  | .onrbindBind => none
  | .onrbindUnbind => none
  | .rwsetDefine => none
  | .rwsetDelete => none
  | .dbgctlSetHalt => none
  | .dbgctlClearHalt => none
  | .dbgctlResume => none
  | .attest => none
  | .ctrread => none
  | .fwupdate => none
  | .mgDone => none
  | .doorbell => none
  | .wmSet => none
  | .wmClr => none
  | .packetFetch => none
  | .packetLaunch => none
  | .packetComplete => none
  | .patchFenceComplete => none
  | .qidle => none
  | .timer => none
  | .watchdogExpiry => none
  | .eventHandoff => none
  | .evqTake => none
  | .evqDone => none
  | .qlockReq => none
  | .map => none
  | .save => none
  | .setprio => none
  | .timerSet => none
  | .xfDoneRetry => none
  | .xfDoneFail => none
  | .atsResponse => none
  | .atsInvalidation => none
  | .priResponse => none
  | .priTimeout => none
  | .sdReq => none
  | .shootdownComplete => none
  | .sdtimeout => none
  | .sdRetry => none
  | .sdForce => none
  | .migReq => none
  | .migrationStreamEnd => none
  | .redirectNotice => none
  | .queueSpaceNotice => none
  | .go => none
  | .cinvalWrite => none
  | .copyAccept => none
  | .copyLand => none
  | .copyEnd => none
  | .copyAbortComplete => none
  | .watermarkReport => none
  | .heldAccessRelease => none
  | .remoteCopyRequest => none
  | .remotePutComplete => none
  | .remoteSourceTimeout => none
  | .remoteAckTimeout => none
  | .gatherSublistArrival => none
  | .gatherRowArrival => none
  | .scatterRowArrival => none
  | .scatterAck => none
  | .bwaitWake => none
  | .bwaitTimeout => none
  | .blockedWake => none
  | .dispatch => none
  | .runqueueAgeing => none
  | .timeSlice => none
  | .taskMessageArrival => none
  | .dataMessageArrival => none
  | .hopMessageArrival => none
  | .contextFreeNotice => none
  | .ringSpaceNotice => none
  | .noticeReservationExpiry => none
  | .unlistedResend => none
  | .launchComplete => none
  | .portLaunchStart => none
  | .tileLaunchStart => none
  | .retentionExpiry => none
  | .drainReq => none
  | .drainGraceExpiry => none
  | .drainComplete => none
  | .resumeReq => none
  | .resumeComplete => none
  | .config => none
  | .fill => none
  | .evict => none
  | .flush => none
  | .setrep => none
  | .setwb => none
  | .clrpin => none
  | .ertAgeing => none
  | .expertRequest => none
  | .expertReply => none
  | .laybyDelivery => none
  | .dequeSpaceNotice => none
  | .laybyRetry => none
  | .dequeReservationExpiry => none
  | .stealRequest => none
  | .stealReply => none
  | .sendkArrival => none
  | .collectiveResult => none
  | .engineCommandStart => none
  | .tileLoadRowArrival => none
  | .mmaComplete => none
  | .vectorCommandComplete => none
  | .streamElementFetch => none
  | .sramScrub => none
  | .powerLoss => none
  | .orderlyShutdown => none
  | .linkRetry => none
  | .matrixCommandComplete => none
  | .mgo => none

/-- The register fields of a native instruction, each with the class its entry states, in the order of R294. -/
def Instr.fields (i : Instr) : List Field :=
  match i with
  | .add x => x.fields .scd (.sc true) (.sc true) .unused
  | .sub x => x.fields .scd (.sc true) (.sc true) .unused
  | .mul x => x.fields .scd (.sc true) (.sc true) .unused
  | .mulh x => x.fields .scd (.sc true) (.sc true) .unused
  | .mulhu x => x.fields .scd (.sc true) (.sc true) .unused
  | .div x => x.fields .scd (.sc true) (.sc true) .unused
  | .divu x => x.fields .scd (.sc true) (.sc true) .unused
  | .rem x => x.fields .scd (.sc true) (.sc true) .unused
  | .remu x => x.fields .scd (.sc true) (.sc true) .unused
  | .min x => x.fields .scd (.sc true) (.sc true) .unused
  | .max x => x.fields .scd (.sc true) (.sc true) .unused
  | .minu x => x.fields .scd (.sc true) (.sc true) .unused
  | .maxu x => x.fields .scd (.sc true) (.sc true) .unused
  | .and x => x.fields .scd (.sc false) (.sc false) .unused
  | .or x => x.fields .scd (.sc false) (.sc false) .unused
  | .xor x => x.fields .scd (.sc false) (.sc false) .unused
  | .shl x => x.fields .scd (.sc false) (.sc false) .unused
  | .shr x => x.fields .scd (.sc false) (.sc false) .unused
  | .sra x => x.fields .scd (.sc false) (.sc false) .unused
  | .clz x => x.fields .scd (.sc false) .unused .unused
  | .ctz x => x.fields .scd (.sc false) .unused .unused
  | .popc x => x.fields .scd (.sc false) .unused .unused
  | .bext x => x.fields .scd (.sc false) (.sc false) .unused
  | .bins x => x.fields .scd (.sc false) (.sc false) (.sc false)
  | .seq x => x.fields .scd (.sc true) (.sc true) .unused
  | .sne x => x.fields .scd (.sc true) (.sc true) .unused
  | .slt x => x.fields .scd (.sc true) (.sc true) .unused
  | .sltu x => x.fields .scd (.sc true) (.sc true) .unused
  | .sle x => x.fields .scd (.sc true) (.sc true) .unused
  | .sleu x => x.fields .scd (.sc true) (.sc true) .unused
  | .sel x => x.fields .scd (.sc true) (.sc true) (.sc false)
  | .mov x => x.fields .scd (.sc true) .unused .unused
  | .movi x => x.fields (if x.it = 3 then .scfd else .scd) .unused
  | .addi x => x.fields .scd (.sc false)
  | .andi x => x.fields .scd (.sc false)
  | .ori x => x.fields .scd (.sc false)
  | .xori x => x.fields .scd (.sc false)
  | .shli x => x.fields .scd (.sc false)
  | .shri x => x.fields .scd (.sc false)
  | .srai x => x.fields .scd (.sc false)
  | .slti x => x.fields .scd (.sc false)
  | .sltui x => x.fields .scd (.sc false)
  | .lrec x => x.fields .scd .unused
  | .br x => [⟨.unused, x.reg, false, false, false⟩]
  | .bz x => [⟨.g, x.reg, false, false, false⟩]
  | .bnz x => [⟨.g, x.reg, false, false, false⟩]
  | .call x => [⟨.gd, x.reg, false, false, false⟩]
  | .bltz x => [⟨.g, x.reg, false, false, false⟩]
  | .bgez x => [⟨.g, x.reg, false, false, false⟩]
  | .loop x => [⟨.g, x.reg, false, false, false⟩]
  | .jr x => x.fields .unused .g .unused .unused
  | .callr x => x.fields .gd .g .unused .unused
  | .ret x => x.fields .unused .unused .unused .unused
  | .nop x => x.fields .unused .unused .unused .unused
  | .halt x => x.fields .unused .unused .unused .unused
  | .yield x => x.fields .unused .unused .unused .unused
  | .hop x => x.fields .unused .g .unused .unused
  | .trap x => x.fields .unused .g .unused .unused
  | .tret x => x.fields .unused .unused .unused .unused
  | .bkpt x => x.fields .unused .unused .unused .unused
  | .icinv x => x.fields .unused .g .g .unused
  | .mfsr x => x.fields .scd .unused
  | .mtsr x => x.fields .unused (.sc false)
  | .ld x => x.fields .scd
  | .lds x => x.fields .scd
  | .st x => x.fields (.sc false)
  | .ldc x => x.fields .scd
  | .vld x => x.fields .vd
  | .vst x => x.fields .f
  | .amswap x => x.fields .g
  | .amadd x => x.fields .g
  | .amand x => x.fields .g
  | .amor x => x.fields .g
  | .amxor x => x.fields .g
  | .ammin x => x.fields .g
  | .ammax x => x.fields .g
  | .amminu x => x.fields .g
  | .ammaxu x => x.fields .g
  | .amcas x => [⟨.g, x.base, x.lbase, false, false⟩, ⟨.g, x.idx, x.lidx, false, false⟩, ⟨.g, x.dr, false, false, false⟩]
  | .fence x => x.fields .unused .unused .unused .unused
  | .binit x => x.fields .unused .g .g .g
  | .barrive x => x.fields .unused .g .g .unused
  | .bexpect x => x.fields .unused .g .g .unused
  | .bwait x => x.fields .kd .g .g .g
  | .rclaim x => x.fields .gd .g .unused .unused
  | .rcommit x => x.fields .unused .g .g .unused
  | .rtake x => x.fields .gd .g .unused .unused
  | .rgive x => x.fields .unused .g .unused .unused
  | .qstat x => x.fields .gd .qq .unused .unused
  | .sendm x => x.fields .unused .g .unused .g
  | .sendk x => x.fields .unused (.v false) (.v false) (.sc false)
  | .mbarm x => [⟨.g, x.a, x.ma.getLsbD 2, x.ma.getLsbD 1, x.ma.getLsbD 0⟩, ⟨.g, x.b, x.mb.getLsbD 2, x.mb.getLsbD 1, x.mb.getLsbD 0⟩,
      ⟨.unused, x.c, x.mc.getLsbD 2, x.mc.getLsbD 1, x.mc.getLsbD 0⟩]
  | .vadd x => x.fields .vd (.v true) (.v true) .unused
  | .vsub x => x.fields .vd (.v true) (.v true) .unused
  | .vmul x => x.fields .vd (.v true) (.v true) .unused
  | .vfma x => x.fields .vd (.v true) (.v true) (.v true)
  | .vmin x => x.fields .vd (.v true) (.v true) .unused
  | .vmax x => x.fields .vd (.v true) (.v true) .unused
  | .vdiv x => x.fields .vd (.v true) (.v true) .unused
  | .vand x => x.fields .vd (.v false) (.v false) .unused
  | .vor x => x.fields .vd (.v false) (.v false) .unused
  | .vxor x => x.fields .vd (.v false) (.v false) .unused
  | .vshl x => x.fields .vd (.v false) (.v false) .unused
  | .vshr x => x.fields .vd (.v false) (.v false) .unused
  | .vsra x => x.fields .vd (.v false) (.v false) .unused
  | .vceq x => x.fields .kd (.v true) (.v true) .unused
  | .vcne x => x.fields .kd (.v true) (.v true) .unused
  | .vclt x => x.fields .kd (.v true) (.v true) .unused
  | .vcle x => x.fields .kd (.v true) (.v true) .unused
  | .vsel x => x.fields .vd .vn .vn .ks
  | .vcvt x => [⟨.v true, x.a, x.ma.getLsbD 2, x.ma.getLsbD 1, x.ma.getLsbD 0⟩,
      ⟨x.vcvtC, x.c, x.mc.getLsbD 2, x.mc.getLsbD 1, x.mc.getLsbD 0⟩, ⟨.vd, x.d, false, false, false⟩]
  | .vbcast x => x.fields .vd (.sc false) .unused .unused
  | .vins x => x.fields .vd (.sc false) (.sc false) .unused
  | .vext x => x.fields .scd (.v false) (.sc false) .unused
  | .vmov x => x.fields .vdq (.v false) .unused .unused
  | .kand x => x.fields .kd .ks .ks .unused
  | .kor x => x.fields .kd .ks .ks .unused
  | .kxor x => x.fields .kd .ks .ks .unused
  | .knot x => x.fields .kd .ks .unused .unused
  | .vredsum x => x.fields .vd (.v true) .unused .unused
  | .vredmax x => x.fields .vd (.v true) .unused .unused
  | .vredmin x => x.fields .vd (.v true) .unused .unused
  | .vscan x => x.fields .vd (.v true) .unused .unused
  | .vperm x => x.fields .vd (.v false) (.v false) .unused
  | .vexp2 x => x.fields .vd (.v true) .unused .unused
  | .vlog2 x => x.fields .vd (.v true) .unused .unused
  | .vrcp x => x.fields .vd (.v true) .unused .unused
  | .vrsqrt x => x.fields .vd (.v true) .unused .unused
  | .vsqrt x => x.fields .vd (.v true) .unused .unused
  | .vgath x => x.fields .vd (.sc false) (.v false) .unused
  | .vscat x => x.fields .unused (.sc false) (.v false) (.v false)
  | .vgrant x => x.fields .scd (.sc false) .unused .unused
  | .sbind x => x.fields .strmD (.sc false) .unused .unused
  | .sunbind x => x.fields .strmD .unused .unused .unused
  | .sstat x => x.fields .scd .strmS .unused .unused
  | .tld x => x.fields .tn .g .g (if x.cb 3 3 = 1 then .g else .unused)
  | .tldx x => x.fields .tn .g .g (if x.cb 3 3 = 1 || x.cb 4 4 = 1 then .g else .unused)
  | .tst x => x.fields .unused .g .g .tn
  | .mma x => x.fields .acc .tl .tl .unused
  | .mmal x => x.fields .acc .tl .tl .unused
  | .accz x => x.fields .acc .unused .unused .unused
  | .accrd x => x.fields .vd .acc .g .unused
  | .accwb x => x.fields .acc .g .g (if x.cb 3 3 = 1 then .g else .unused)
  | .accstat x => x.fields .gd .acc .unused .unused
  | .accerr x => x.fields .gd .unused .unused .unused
  | .cp x => x.fields (if x.cb 0 0 = 1 then .gd else .unused) .g .unused .unused
  | .cpabort x => x.fields .unused .g .unused .unused
  | .cpstat x => x.fields .gd .g .unused .unused
  | .wmread x => x.fields .gd .wm .g .unused
  | .cinval x => x.fields .unused .g .unused .unused
  | .gath x => x.fields .g .g .g .g
  | .scat x => x.fields .g .g .g .g
  | .xlook x => x.fields .gd .g .g .unused
  | .xpark x => x.fields .gd .g .g .unused
  | .xrel x => x.fields .gd .g .unused .unused
  | .dqpush x => x.fields .gd .g .unused .unused
  | .dqpop x => x.fields .gd .g .unused .unused
  | .ctrsnap x => x.fields .g .g .g .unused
  | .kmerge x => x.fields .g .g .unused .g
  | .rred x => x.fields .g (.v false) .unused .g
  | .gbar x => x.fields .unused .unused .unused .g
  | .launch x => x.fields .gd .g .unused .unused
  | .icl x => x.fields .unused .g .unused .unused
  | .icu x => x.fields .gd .g .g .g
  | .guard x => x.fields .gd .g .g .unused
  | .tagchk x => x.fields .gd .g .unused .unused
  | .ldslot x => x.fields .gd .g .g .unused
  | .stslot x => x.fields .unused .g .g .g
  | .rcinc x => x.fields .unused .g .unused .unused
  | .rcdec x => x.fields .unused .g .unused .unused
  | .twait x => x.fields (if x.dt = 1 then .gd else .unused) .g .unused .unused
  | .detour x => x.fields .unused .g .g .unused
  | .detret x => x.fields .unused .unused .unused .unused
  | .plaunch x => x.fields .gd .g .g .g
  | .bcEnd => []
  | .bcRet => []
  | .bcLdi _ => []
  | .bcLdsp _ => []
  | .bcLdloc _ => []
  | .bcStloc _ => []
  | .bcLdglob _ => []
  | .bcStglob _ => []
  | .bcDup => []
  | .bcPop => []
  | .bcSwap => []
  | .bcGetattrS _ => []
  | .bcSetattrS _ => []
  | .bcLdsl _ => []
  | .bcStsl _ => []
  | .bcMkobj _ _ => []
  | .bcUnpack _ => []
  | .bcLoopdec _ _ => []
  | .bcBr _ => []
  | .bcBrt _ => []
  | .bcBrf _ => []
  | .bcForr _ _ => []
  | .bcAddS _ => []
  | .bcSubS _ => []
  | .bcMulS _ => []
  | .bcDivS _ => []
  | .bcMmS _ => []
  | .bcLtS _ => []
  | .bcLeS _ => []
  | .bcEqS _ => []
  | .bcNegS _ => []
  | .bcCallS _ _ => []
  | .bcCallb _ => []
  | .bcTlaunch _ => []
  | .bcWaitt => []
  | .bcRaise => []
  | .bcTry _ => []
  | .bcUntry => []
  | .reservedOpcode _ => []
  | .unassignedBytecode _ => []
  | .powerOn => []
  | .fullService => []
  | .pwrCtlSel => []
  | .profileChange => []
  | .powerLimitWindow => []
  | .thermalThrottle => []
  | .thermalRecover => []
  | .thermalTrip => []
  | .tierPortFail => []
  | .counterUpdate => []
  | .registerWrite => []
  | .ckptStart => []
  | .ckptRestore => []
  | .ckptAbort => []
  | .checkpointComplete => []
  | .restoreComplete => []
  | .qreg => []
  | .qdereg => []
  | .qstop => []
  | .qresume => []
  | .qbudget => []
  | .pasidEn => []
  | .pasidRel => []
  | .pasidRelComplete => []
  | .oload => []
  | .ounload => []
  | .ccstart => []
  | .ccstop => []
  | .onrbindBind => []
  | .onrbindUnbind => []
  | .rwsetDefine => []
  | .rwsetDelete => []
  | .dbgctlSetHalt => []
  | .dbgctlClearHalt => []
  | .dbgctlResume => []
  | .attest => []
  | .ctrread => []
  | .fwupdate => []
  | .mgDone => []
  | .doorbell => []
  | .wmSet => []
  | .wmClr => []
  | .packetFetch => []
  | .packetLaunch => []
  | .packetComplete => []
  | .patchFenceComplete => []
  | .qidle => []
  | .timer => []
  | .watchdogExpiry => []
  | .eventHandoff => []
  | .evqTake => []
  | .evqDone => []
  | .qlockReq => []
  | .map => []
  | .save => []
  | .setprio => []
  | .timerSet => []
  | .xfDoneRetry => []
  | .xfDoneFail => []
  | .atsResponse => []
  | .atsInvalidation => []
  | .priResponse => []
  | .priTimeout => []
  | .sdReq => []
  | .shootdownComplete => []
  | .sdtimeout => []
  | .sdRetry => []
  | .sdForce => []
  | .migReq => []
  | .migrationStreamEnd => []
  | .redirectNotice => []
  | .queueSpaceNotice => []
  | .go => []
  | .cinvalWrite => []
  | .copyAccept => []
  | .copyLand => []
  | .copyEnd => []
  | .copyAbortComplete => []
  | .watermarkReport => []
  | .heldAccessRelease => []
  | .remoteCopyRequest => []
  | .remotePutComplete => []
  | .remoteSourceTimeout => []
  | .remoteAckTimeout => []
  | .gatherSublistArrival => []
  | .gatherRowArrival => []
  | .scatterRowArrival => []
  | .scatterAck => []
  | .bwaitWake => []
  | .bwaitTimeout => []
  | .blockedWake => []
  | .dispatch => []
  | .runqueueAgeing => []
  | .timeSlice => []
  | .taskMessageArrival => []
  | .dataMessageArrival => []
  | .hopMessageArrival => []
  | .contextFreeNotice => []
  | .ringSpaceNotice => []
  | .noticeReservationExpiry => []
  | .unlistedResend => []
  | .launchComplete => []
  | .portLaunchStart => []
  | .tileLaunchStart => []
  | .retentionExpiry => []
  | .drainReq => []
  | .drainGraceExpiry => []
  | .drainComplete => []
  | .resumeReq => []
  | .resumeComplete => []
  | .config => []
  | .fill => []
  | .evict => []
  | .flush => []
  | .setrep => []
  | .setwb => []
  | .clrpin => []
  | .ertAgeing => []
  | .expertRequest => []
  | .expertReply => []
  | .laybyDelivery => []
  | .dequeSpaceNotice => []
  | .laybyRetry => []
  | .dequeReservationExpiry => []
  | .stealRequest => []
  | .stealReply => []
  | .sendkArrival => []
  | .collectiveResult => []
  | .engineCommandStart => []
  | .tileLoadRowArrival => []
  | .mmaComplete => []
  | .vectorCommandComplete => []
  | .streamElementFetch => []
  | .sramScrub => []
  | .powerLoss => []
  | .orderlyShutdown => []
  | .linkRetry => []
  | .matrixCommandComplete => []
  | .mgo => []
/-- The major opcodes of R292, each with the number of its `FN` values. -/
def opcodeMap : List (Nat × Nat) :=
  [(1, 13), (2, 11), (3, 8), (4, 11), (8, 7), (9, 11), (10, 2), (16, 6), (17, 10), (18, 10), (19, 3), (32, 13), (33, 14), (34, 10), (35, 6), (48, 10), (49, 7), (50, 10), (64, 12)]

/-- A reserved `OP` or `FN` (R292). -/
def reservedOp (op fn : Nat) : Bool := !opcodeMap.any fun p => p.1 = op && fn < p.2

/-- The opcode bytes that R222, R408 to R411 and R413 to R415 assign. -/
def assignedBytes : List Nat :=
  [1, 2, 8, 9, 16, 17, 18, 19, 20, 21, 22, 32, 33, 34, 35, 36, 37, 48, 49, 50, 51, 52, 64, 65, 66, 67, 68, 69, 70, 71, 72, 96, 97, 98, 112, 113, 114, 115]

/-- An opcode byte without a bytecode (R416). -/
def unassigned (b : Nat) : Bool := !assignedBytes.contains b


/-- The type, rounding, modifier and command fields of a native instruction within what its entry accepts. -/
def Instr.optionsOk (i : Instr) : Bool :=
  match i with
  | .add x => x.intOk true
  | .sub x => x.intOk true
  | .mul x => x.intOk true
  | .mulh x => x.intOk false
  | .mulhu x => x.intOk false
  | .div x => x.intOk false
  | .divu x => x.intOk false
  | .rem x => x.intOk false
  | .remu x => x.intOk false
  | .min x => x.intOk false
  | .max x => x.intOk false
  | .minu x => x.intOk false
  | .maxu x => x.intOk false
  | .and x => x.plain
  | .or x => x.plain
  | .xor x => x.plain
  | .shl x => x.plain
  | .shr x => x.plain
  | .sra x => x.plain
  | .clz x => x.plain
  | .ctz x => x.plain
  | .popc x => x.plain
  | .bext x => x.plain
  | .bins x => x.plain
  | .seq x => x.intOk false
  | .sne x => x.intOk false
  | .slt x => x.intOk false
  | .sltu x => x.intOk false
  | .sle x => x.intOk false
  | .sleu x => x.intOk false
  | .sel x => x.intOk false
  | .mov x => x.intOk false
  | .movi x => x.it.toNat ≤ 3
  | .addi x => x.itOk
  | .andi x => x.itOk
  | .ori x => x.itOk
  | .xori x => x.itOk
  | .shli x => x.itOk && x.value.toNat ≤ 63
  | .shri x => x.itOk && x.value.toNat ≤ 63
  | .srai x => x.itOk && x.value.toNat ≤ 63
  | .slti x => x.itOk
  | .sltui x => x.itOk
  | .lrec x => x.it.toNat ≤ 1 && x.imm.toNat < 65536
  | .br _ => true
  | .bz _ => true
  | .bnz _ => true
  | .call _ => true
  | .bltz _ => true
  | .bgez _ => true
  | .loop _ => true
  | .jr x => x.plain
  | .callr x => x.plain
  | .ret x => x.plain
  | .nop x => x.plain
  | .halt x => x.plain
  | .yield x => x.plain
  | .hop x => x.plain
  | .trap x => x.plain
  | .tret x => x.plain
  | .bkpt x => x.plain
  | .icinv x => x.plain
  | .mfsr x => x.it = 0 && x.imm.toNat < 4096
  | .mtsr x => x.it = 0 && x.imm.toNat < 4096
  | .ld x => x.memOk [0, 1, 3]
  | .lds x => x.memOk [0, 1, 3]
  | .st x => x.memOk [0, 2, 3]
  | .ldc x => x.memOk [3]
  | .vld x => x.vecOk [0, 1]
  | .vst x => x.vecOk [0, 2]
  | .amswap x => x.atomOk
  | .amadd x => x.atomOk
  | .amand x => x.atomOk
  | .amor x => x.atomOk
  | .amxor x => x.atomOk
  | .ammin x => x.atomOk
  | .ammax x => x.atomOk
  | .amminu x => x.atomOk
  | .ammaxu x => x.atomOk
  | .amcas x => x.atomOk && x.sc = 0
  | .fence x => x.clamp = 0 && x.scale = 0 && x.rm = 0 && x.dt.toNat >>> 2 ≤ 4 && x.dt.toNat % 4 ≤ 2
  | .binit x => x.plain
  | .barrive x => x.plain
  | .bexpect x => x.plain
  | .bwait x => x.plain
  | .rclaim x => x.plain
  | .rcommit x => x.plain
  | .rtake x => x.plain
  | .rgive x => x.plain
  | .qstat x => x.plain
  | .sendm x => x.plain
  | .sendk x => x.clamp = 0 && x.scale = 0 && x.rm = 0 && (x.dt = 1 || x.dt = 9)
  | .mbarm x => x.plain && x.d.toNat < 4
  | .vadd x => x.typeOk [3, 4, 9, 15] true
  | .vsub x => x.typeOk [3, 4, 9, 15] true
  | .vmul x => x.typeOk [3, 4, 9, 15] true
  | .vfma x => x.typeOk [3, 4, 9, 15] true
  | .vmin x => x.typeOk [3, 4, 9, 15] true
  | .vmax x => x.typeOk [3, 4, 9, 15] true
  | .vdiv x => x.typeOk [3, 4, 9, 15] true
  | .vand x => x.plain
  | .vor x => x.plain
  | .vxor x => x.plain
  | .vshl x => x.plain
  | .vshr x => x.plain
  | .vsra x => x.plain
  | .vceq x => x.typeOk [3, 4, 9] false && x.rm = 0
  | .vcne x => x.typeOk [3, 4, 9] false && x.rm = 0
  | .vclt x => x.typeOk [3, 4, 9] false && x.rm = 0
  | .vcle x => x.typeOk [3, 4, 9] false && x.rm = 0
  | .vsel x => x.plain
  | .vcvt x => x.vcvtOk
  | .vbcast x => x.plain
  | .vins x => x.plain
  | .vext x => x.plain
  | .vmov x => x.plain
  | .kand x => x.plain
  | .kor x => x.plain
  | .kxor x => x.plain
  | .knot x => x.plain
  | .vredsum x => x.typeOk [3, 4, 9] false
  | .vredmax x => x.typeOk [3, 4, 9] false
  | .vredmin x => x.typeOk [3, 4, 9] false
  | .vscan x => x.typeOk [3, 4, 9] false
  | .vperm x => x.plain
  | .vexp2 x => x.typeOk [9, 15] true
  | .vlog2 x => x.typeOk [9, 15] true
  | .vrcp x => x.typeOk [9, 15] true
  | .vrsqrt x => x.typeOk [9, 15] true
  | .vsqrt x => x.typeOk [9, 15] true
  | .vgath x => x.plain
  | .vscat x => x.plain
  | .vgrant x => x.plain
  | .sbind x => x.plain
  | .sunbind x => x.plain
  | .sstat x => x.plain
  | .tld x => x.cb 2 0 ≤ 5 && x.cb 20 4 = 0
  | .tldx x => x.cb 2 0 ≤ 5 && x.cb 20 6 = 0 && !(x.cb 5 5 = 1 && x.cb 4 4 = 0) && !(x.cb 3 3 = 1 && x.cb 4 4 = 1)
  | .tst x => x.cmd = 0
  | .mma x => x.cmd = 0 && !(x.la && x.lb && x.a = x.b)
  | .mmal x => x.cb 20 4 = 0 && !(x.la && x.lb && x.a = x.b)
  | .accz x => x.cmd = 0
  | .accrd x => x.cb 2 0 ≤ 5 && (x.cb 8 4 = 9 || x.cb 8 4 = 3) && x.cb 20 9 = 0
  | .accwb x => x.cb 2 0 ≤ 5 && accwbFormat (x.cb 9 5) && x.cb 20 10 = 0
  | .accstat x => x.cb 2 0 = 0 && x.cb 20 4 = 0
  | .accerr x => x.cmd = 0
  | .cp x => x.cb 20 1 = 0
  | .cpabort x => x.cmd = 0
  | .cpstat x => x.cmd = 0
  | .wmread x => x.cmd = 0
  | .cinval x => x.cmd = 0
  | .gath x => 1 ≤ x.cb 12 0 && x.cb 12 0 ≤ 4096 && x.cb 20 13 = 0
  | .scat x => 1 ≤ x.cb 12 0 && x.cb 12 0 ≤ 4096 && x.cb 20 13 = 0
  | .xlook x => x.cb 20 20 = 0
  | .xpark x => x.cb 20 20 = 0
  | .xrel x => x.cmd = 0
  | .dqpush x => x.cb 20 20 = 0
  | .dqpop _ => true
  | .ctrsnap x => x.cmd = 0
  | .kmerge x => x.cmd = 0
  | .rred x => x.cb 1 0 ≤ 2 && (x.cb 7 3 = 3 || x.cb 7 3 = 4 || x.cb 7 3 = 9) && x.cb 20 8 = 0
  | .gbar x => x.cmd = 0
  | .launch x => x.cmd = 0
  | .icl x => x.plain
  | .icu x => x.plain
  | .guard x => x.plain
  | .tagchk x => x.plain
  | .ldslot x => x.plain
  | .stslot x => x.plain
  | .rcinc x => x.plain
  | .rcdec x => x.plain
  | .twait x => x.clamp = 0 && x.scale = 0 && x.rm = 0 && x.dt.toNat ≤ 1
  | .detour x => x.plain
  | .detret x => x.plain
  | .plaunch x => x.plain
  | .bcEnd => true
  | .bcRet => true
  | .bcLdi _ => true
  | .bcLdsp _ => true
  | .bcLdloc _ => true
  | .bcStloc _ => true
  | .bcLdglob _ => true
  | .bcStglob _ => true
  | .bcDup => true
  | .bcPop => true
  | .bcSwap => true
  | .bcGetattrS _ => true
  | .bcSetattrS _ => true
  | .bcLdsl _ => true
  | .bcStsl _ => true
  | .bcMkobj _ _ => true
  | .bcUnpack _ => true
  | .bcLoopdec _ x1 => x1.toNat % 8 = 0
  | .bcBr x0 => x0.toNat % 8 = 0
  | .bcBrt x0 => x0.toNat % 8 = 0
  | .bcBrf x0 => x0.toNat % 8 = 0
  | .bcForr _ x1 => x1.toNat % 8 = 0
  | .bcAddS _ => true
  | .bcSubS _ => true
  | .bcMulS _ => true
  | .bcDivS _ => true
  | .bcMmS _ => true
  | .bcLtS _ => true
  | .bcLeS _ => true
  | .bcEqS _ => true
  | .bcNegS _ => true
  | .bcCallS _ _ => true
  | .bcCallb _ => true
  | .bcTlaunch _ => true
  | .bcWaitt => true
  | .bcRaise => true
  | .bcTry x0 => x0.toNat % 8 = 0
  | .bcUntry => true
  | .reservedOpcode w => reservedOp (w.toNat >>> 56) ((w.toNat >>> 52) % 16)
  | .unassignedBytecode b => unassigned b.toNat
  | .powerOn => true
  | .fullService => true
  | .pwrCtlSel => true
  | .profileChange => true
  | .powerLimitWindow => true
  | .thermalThrottle => true
  | .thermalRecover => true
  | .thermalTrip => true
  | .tierPortFail => true
  | .counterUpdate => true
  | .registerWrite => true
  | .ckptStart => true
  | .ckptRestore => true
  | .ckptAbort => true
  | .checkpointComplete => true
  | .restoreComplete => true
  | .qreg => true
  | .qdereg => true
  | .qstop => true
  | .qresume => true
  | .qbudget => true
  | .pasidEn => true
  | .pasidRel => true
  | .pasidRelComplete => true
  | .oload => true
  | .ounload => true
  | .ccstart => true
  | .ccstop => true
  | .onrbindBind => true
  | .onrbindUnbind => true
  | .rwsetDefine => true
  | .rwsetDelete => true
  | .dbgctlSetHalt => true
  | .dbgctlClearHalt => true
  | .dbgctlResume => true
  | .attest => true
  | .ctrread => true
  | .fwupdate => true
  | .mgDone => true
  | .doorbell => true
  | .wmSet => true
  | .wmClr => true
  | .packetFetch => true
  | .packetLaunch => true
  | .packetComplete => true
  | .patchFenceComplete => true
  | .qidle => true
  | .timer => true
  | .watchdogExpiry => true
  | .eventHandoff => true
  | .evqTake => true
  | .evqDone => true
  | .qlockReq => true
  | .map => true
  | .save => true
  | .setprio => true
  | .timerSet => true
  | .xfDoneRetry => true
  | .xfDoneFail => true
  | .atsResponse => true
  | .atsInvalidation => true
  | .priResponse => true
  | .priTimeout => true
  | .sdReq => true
  | .shootdownComplete => true
  | .sdtimeout => true
  | .sdRetry => true
  | .sdForce => true
  | .migReq => true
  | .migrationStreamEnd => true
  | .redirectNotice => true
  | .queueSpaceNotice => true
  | .go => true
  | .cinvalWrite => true
  | .copyAccept => true
  | .copyLand => true
  | .copyEnd => true
  | .copyAbortComplete => true
  | .watermarkReport => true
  | .heldAccessRelease => true
  | .remoteCopyRequest => true
  | .remotePutComplete => true
  | .remoteSourceTimeout => true
  | .remoteAckTimeout => true
  | .gatherSublistArrival => true
  | .gatherRowArrival => true
  | .scatterRowArrival => true
  | .scatterAck => true
  | .bwaitWake => true
  | .bwaitTimeout => true
  | .blockedWake => true
  | .dispatch => true
  | .runqueueAgeing => true
  | .timeSlice => true
  | .taskMessageArrival => true
  | .dataMessageArrival => true
  | .hopMessageArrival => true
  | .contextFreeNotice => true
  | .ringSpaceNotice => true
  | .noticeReservationExpiry => true
  | .unlistedResend => true
  | .launchComplete => true
  | .portLaunchStart => true
  | .tileLaunchStart => true
  | .retentionExpiry => true
  | .drainReq => true
  | .drainGraceExpiry => true
  | .drainComplete => true
  | .resumeReq => true
  | .resumeComplete => true
  | .config => true
  | .fill => true
  | .evict => true
  | .flush => true
  | .setrep => true
  | .setwb => true
  | .clrpin => true
  | .ertAgeing => true
  | .expertRequest => true
  | .expertReply => true
  | .laybyDelivery => true
  | .dequeSpaceNotice => true
  | .laybyRetry => true
  | .dequeReservationExpiry => true
  | .stealRequest => true
  | .stealReply => true
  | .sendkArrival => true
  | .collectiveResult => true
  | .engineCommandStart => true
  | .tileLoadRowArrival => true
  | .mmaComplete => true
  | .vectorCommandComplete => true
  | .streamElementFetch => true
  | .sramScrub => true
  | .powerLoss => true
  | .orderlyShutdown => true
  | .linkRetry => true
  | .matrixCommandComplete => true
  | .mgo => true

/-- What is wrong with an ill-formed instruction. -/
inductive Defect where
  /-- `PK` 0 with `PN` 1 (R289) -/
  | predicate
  /-- a register code outside its class, or a modifier the field does not accept (R282, R290) -/
  | operand
  /-- a type, rounding, size, order, command or immediate field outside what the entry accepts -/
  | option
  deriving DecidableEq, Repr

/-- The first defect of an instruction, if it has one. -/
def Instr.defect (i : Instr) : Option Defect :=
  if i.pred = some (0, true) then some .predicate
  else if !i.fields.all Field.ok then some .operand
  else if !i.optionsOk then some .option
  else none

/-- A well-formed instruction: every instruction word that R293 does not reject in itself. -/
def Instr.wf (i : Instr) : Bool := i.defect = none

end Sys2Proof
end

