-- ==== Sys2Proof/Decode.lean ====
section
/-! DEFINITION. From instruction words to instructions (R283, R284, R292) and from bytecode words to bytecodes (R220, R295,
R404), total on any 64-bit word, rejecting by name; and after it the encoder, written from the same tables. -/

namespace Sys2Proof

/-- The fields of format R. -/
def fmtR (w : Word) : FmtR :=
  { pk := w.extractLsb' 49 3, pn := w.getLsbD 48, d := w.extractLsb' 42 6, a := w.extractLsb' 36 6, b := w.extractLsb' 30 6,
    c := w.extractLsb' 24 6, ma := w.extractLsb' 21 3, mb := w.extractLsb' 18 3, mc := w.extractLsb' 15 3,
    clamp := w.extractLsb' 13 2, scale := w.extractLsb' 10 3, dt := w.extractLsb' 5 5, rm := w.extractLsb' 2 3 }

/-- The fields of format I. -/
def fmtI (w : Word) : FmtI :=
  { pk := w.extractLsb' 49 3, pn := w.getLsbD 48, d := w.extractLsb' 42 6, a := w.extractLsb' 36 6, la := w.getLsbD 35,
    it := w.extractLsb' 32 3, imm := w.extractLsb' 0 32 }

/-- The fields of format M. -/
def fmtM (w : Word) : FmtM :=
  { pk := w.extractLsb' 49 3, pn := w.getLsbD 48, dr := w.extractLsb' 42 6, base := w.extractLsb' 36 6,
    idx := w.extractLsb' 30 6, lbase := w.getLsbD 29, lidx := w.getLsbD 28, sc := w.extractLsb' 26 2,
    ord := w.extractLsb' 24 2, size := w.extractLsb' 20 4, off := w.extractLsb' 0 20 }

/-- The fields of format E. -/
def fmtE (w : Word) : FmtE :=
  { pk := w.extractLsb' 49 3, pn := w.getLsbD 48, d := w.extractLsb' 42 6, a := w.extractLsb' 36 6, b := w.extractLsb' 30 6,
    c := w.extractLsb' 24 6, la := w.getLsbD 23, lb := w.getLsbD 22, lc := w.getLsbD 21, cmd := w.extractLsb' 0 21 }

/-- The fields of format J. -/
def fmtJ (w : Word) : FmtJ :=
  { pk := w.extractLsb' 49 3, pn := w.getLsbD 48, reg := w.extractLsb' 42 6, off := w.extractLsb' 0 42 }

/-- The functions of `OP` 0x01 (R292). -/
def rawOp01 (fn : Nat) (w : Word) : Instr :=
  match fn with
  | 0 => .add (fmtR w)
  | 1 => .sub (fmtR w)
  | 2 => .mul (fmtR w)
  | 3 => .mulh (fmtR w)
  | 4 => .mulhu (fmtR w)
  | 5 => .div (fmtR w)
  | 6 => .divu (fmtR w)
  | 7 => .rem (fmtR w)
  | 8 => .remu (fmtR w)
  | 9 => .min (fmtR w)
  | 10 => .max (fmtR w)
  | 11 => .minu (fmtR w)
  | 12 => .maxu (fmtR w)
  | _ => .reservedOpcode w

/-- The functions of `OP` 0x02 (R292). -/
def rawOp02 (fn : Nat) (w : Word) : Instr :=
  match fn with
  | 0 => .and (fmtR w)
  | 1 => .or (fmtR w)
  | 2 => .xor (fmtR w)
  | 3 => .shl (fmtR w)
  | 4 => .shr (fmtR w)
  | 5 => .sra (fmtR w)
  | 6 => .clz (fmtR w)
  | 7 => .ctz (fmtR w)
  | 8 => .popc (fmtR w)
  | 9 => .bext (fmtR w)
  | 10 => .bins (fmtR w)
  | _ => .reservedOpcode w

/-- The functions of `OP` 0x03 (R292). -/
def rawOp03 (fn : Nat) (w : Word) : Instr :=
  match fn with
  | 0 => .seq (fmtR w)
  | 1 => .sne (fmtR w)
  | 2 => .slt (fmtR w)
  | 3 => .sltu (fmtR w)
  | 4 => .sle (fmtR w)
  | 5 => .sleu (fmtR w)
  | 6 => .sel (fmtR w)
  | 7 => .mov (fmtR w)
  | _ => .reservedOpcode w

/-- The functions of `OP` 0x04 (R292). -/
def rawOp04 (fn : Nat) (w : Word) : Instr :=
  match fn with
  | 0 => .movi (fmtI w)
  | 1 => .addi (fmtI w)
  | 2 => .andi (fmtI w)
  | 3 => .ori (fmtI w)
  | 4 => .xori (fmtI w)
  | 5 => .shli (fmtI w)
  | 6 => .shri (fmtI w)
  | 7 => .srai (fmtI w)
  | 8 => .slti (fmtI w)
  | 9 => .sltui (fmtI w)
  | 10 => .lrec (fmtI w)
  | _ => .reservedOpcode w

/-- The functions of `OP` 0x08 (R292). -/
def rawOp08 (fn : Nat) (w : Word) : Instr :=
  match fn with
  | 0 => .br (fmtJ w)
  | 1 => .bz (fmtJ w)
  | 2 => .bnz (fmtJ w)
  | 3 => .call (fmtJ w)
  | 4 => .bltz (fmtJ w)
  | 5 => .bgez (fmtJ w)
  | 6 => .loop (fmtJ w)
  | _ => .reservedOpcode w

/-- The functions of `OP` 0x09 (R292). -/
def rawOp09 (fn : Nat) (w : Word) : Instr :=
  match fn with
  | 0 => .jr (fmtR w)
  | 1 => .callr (fmtR w)
  | 2 => .ret (fmtR w)
  | 3 => .halt (fmtR w)
  | 4 => .yield (fmtR w)
  | 5 => .hop (fmtR w)
  | 6 => .trap (fmtR w)
  | 7 => .tret (fmtR w)
  | 8 => .bkpt (fmtR w)
  | 9 => .icinv (fmtR w)
  | 10 => .nop (fmtR w)
  | _ => .reservedOpcode w

/-- The functions of `OP` 0x0A (R292). -/
def rawOp0A (fn : Nat) (w : Word) : Instr :=
  match fn with
  | 0 => .mfsr (fmtI w)
  | 1 => .mtsr (fmtI w)
  | _ => .reservedOpcode w

/-- The functions of `OP` 0x10 (R292). -/
def rawOp10 (fn : Nat) (w : Word) : Instr :=
  match fn with
  | 0 => .ld (fmtM w)
  | 1 => .lds (fmtM w)
  | 2 => .st (fmtM w)
  | 3 => .ldc (fmtM w)
  | 4 => .vld (fmtM w)
  | 5 => .vst (fmtM w)
  | _ => .reservedOpcode w

/-- The functions of `OP` 0x11 (R292). -/
def rawOp11 (fn : Nat) (w : Word) : Instr :=
  match fn with
  | 0 => .amswap (fmtM w)
  | 1 => .amadd (fmtM w)
  | 2 => .amand (fmtM w)
  | 3 => .amor (fmtM w)
  | 4 => .amxor (fmtM w)
  | 5 => .ammin (fmtM w)
  | 6 => .ammax (fmtM w)
  | 7 => .amminu (fmtM w)
  | 8 => .ammaxu (fmtM w)
  | 9 => .amcas (fmtM w)
  | _ => .reservedOpcode w

/-- The functions of `OP` 0x12 (R292). -/
def rawOp12 (fn : Nat) (w : Word) : Instr :=
  match fn with
  | 0 => .fence (fmtR w)
  | 1 => .binit (fmtR w)
  | 2 => .barrive (fmtR w)
  | 3 => .bexpect (fmtR w)
  | 4 => .bwait (fmtR w)
  | 5 => .rclaim (fmtR w)
  | 6 => .rcommit (fmtR w)
  | 7 => .rtake (fmtR w)
  | 8 => .rgive (fmtR w)
  | 9 => .qstat (fmtR w)
  | _ => .reservedOpcode w

/-- The functions of `OP` 0x13 (R292). -/
def rawOp13 (fn : Nat) (w : Word) : Instr :=
  match fn with
  | 0 => .sendm (fmtR w)
  | 1 => .sendk (fmtR w)
  | 2 => .mbarm (fmtR w)
  | _ => .reservedOpcode w

/-- The functions of `OP` 0x20 (R292). -/
def rawOp20 (fn : Nat) (w : Word) : Instr :=
  match fn with
  | 0 => .vadd (fmtR w)
  | 1 => .vsub (fmtR w)
  | 2 => .vmul (fmtR w)
  | 3 => .vfma (fmtR w)
  | 4 => .vmin (fmtR w)
  | 5 => .vmax (fmtR w)
  | 6 => .vdiv (fmtR w)
  | 7 => .vand (fmtR w)
  | 8 => .vor (fmtR w)
  | 9 => .vxor (fmtR w)
  | 10 => .vshl (fmtR w)
  | 11 => .vshr (fmtR w)
  | 12 => .vsra (fmtR w)
  | _ => .reservedOpcode w

/-- The functions of `OP` 0x21 (R292). -/
def rawOp21 (fn : Nat) (w : Word) : Instr :=
  match fn with
  | 0 => .vceq (fmtR w)
  | 1 => .vcne (fmtR w)
  | 2 => .vclt (fmtR w)
  | 3 => .vcle (fmtR w)
  | 4 => .vsel (fmtR w)
  | 5 => .vcvt (fmtR w)
  | 6 => .vbcast (fmtR w)
  | 7 => .vins (fmtR w)
  | 8 => .vext (fmtR w)
  | 9 => .vmov (fmtR w)
  | 10 => .kand (fmtR w)
  | 11 => .kor (fmtR w)
  | 12 => .kxor (fmtR w)
  | 13 => .knot (fmtR w)
  | _ => .reservedOpcode w

/-- The functions of `OP` 0x22 (R292). -/
def rawOp22 (fn : Nat) (w : Word) : Instr :=
  match fn with
  | 0 => .vredsum (fmtR w)
  | 1 => .vredmax (fmtR w)
  | 2 => .vredmin (fmtR w)
  | 3 => .vscan (fmtR w)
  | 4 => .vperm (fmtR w)
  | 5 => .vexp2 (fmtR w)
  | 6 => .vlog2 (fmtR w)
  | 7 => .vrcp (fmtR w)
  | 8 => .vrsqrt (fmtR w)
  | 9 => .vsqrt (fmtR w)
  | _ => .reservedOpcode w

/-- The functions of `OP` 0x23 (R292). -/
def rawOp23 (fn : Nat) (w : Word) : Instr :=
  match fn with
  | 0 => .vgath (fmtR w)
  | 1 => .vscat (fmtR w)
  | 2 => .vgrant (fmtR w)
  | 3 => .sbind (fmtR w)
  | 4 => .sunbind (fmtR w)
  | 5 => .sstat (fmtR w)
  | _ => .reservedOpcode w

/-- The functions of `OP` 0x30 (R292). -/
def rawOp30 (fn : Nat) (w : Word) : Instr :=
  match fn with
  | 0 => .tld (fmtE w)
  | 1 => .tldx (fmtE w)
  | 2 => .tst (fmtE w)
  | 3 => .mma (fmtE w)
  | 4 => .mmal (fmtE w)
  | 5 => .accz (fmtE w)
  | 6 => .accrd (fmtE w)
  | 7 => .accwb (fmtE w)
  | 8 => .accstat (fmtE w)
  | 9 => .accerr (fmtE w)
  | _ => .reservedOpcode w

/-- The functions of `OP` 0x31 (R292). -/
def rawOp31 (fn : Nat) (w : Word) : Instr :=
  match fn with
  | 0 => .cp (fmtE w)
  | 1 => .cpabort (fmtE w)
  | 2 => .cpstat (fmtE w)
  | 3 => .wmread (fmtE w)
  | 4 => .cinval (fmtE w)
  | 5 => .gath (fmtE w)
  | 6 => .scat (fmtE w)
  | _ => .reservedOpcode w

/-- The functions of `OP` 0x32 (R292). -/
def rawOp32 (fn : Nat) (w : Word) : Instr :=
  match fn with
  | 0 => .xlook (fmtE w)
  | 1 => .xpark (fmtE w)
  | 2 => .xrel (fmtE w)
  | 3 => .dqpush (fmtE w)
  | 4 => .dqpop (fmtE w)
  | 5 => .ctrsnap (fmtE w)
  | 6 => .kmerge (fmtE w)
  | 7 => .rred (fmtE w)
  | 8 => .gbar (fmtE w)
  | 9 => .launch (fmtE w)
  | _ => .reservedOpcode w

/-- The functions of `OP` 0x40 (R292). -/
def rawOp40 (fn : Nat) (w : Word) : Instr :=
  match fn with
  | 0 => .icl (fmtR w)
  | 1 => .icu (fmtR w)
  | 2 => .guard (fmtR w)
  | 3 => .tagchk (fmtR w)
  | 4 => .ldslot (fmtR w)
  | 5 => .stslot (fmtR w)
  | 6 => .rcinc (fmtR w)
  | 7 => .rcdec (fmtR w)
  | 8 => .twait (fmtR w)
  | 9 => .detour (fmtR w)
  | 10 => .detret (fmtR w)
  | 11 => .plaunch (fmtR w)
  | _ => .reservedOpcode w

/-- The instruction a word names by its `OP` and `FN`, its fields not yet checked; a reserved one is `reservedOpcode`. -/
def decodeRaw (w : Word) : Instr :=
  let fn := (w.toNat >>> 52) % 16
  match w.toNat >>> 56 with
  | 1 => rawOp01 fn w
  | 2 => rawOp02 fn w
  | 3 => rawOp03 fn w
  | 4 => rawOp04 fn w
  | 8 => rawOp08 fn w
  | 9 => rawOp09 fn w
  | 10 => rawOp0A fn w
  | 16 => rawOp10 fn w
  | 17 => rawOp11 fn w
  | 18 => rawOp12 fn w
  | 19 => rawOp13 fn w
  | 32 => rawOp20 fn w
  | 33 => rawOp21 fn w
  | 34 => rawOp22 fn w
  | 35 => rawOp23 fn w
  | 48 => rawOp30 fn w
  | 49 => rawOp31 fn w
  | 50 => rawOp32 fn w
  | 64 => rawOp40 fn w
  | _ => .reservedOpcode w

/-- Why a word is refused. -/
inductive DecodeError where
  /-- bits [1:0] of a format R word are not zero (R283) -/
  | reservedBits
  /-- a field outside what the entry accepts -/
  | defect (d : Defect)
  /-- a nonzero padding byte of a bytecode (R220) -/
  | padding
  deriving DecidableEq, Repr

/-- The major opcodes of format R, whose bits [1:0] are reserved. -/
def formatR (op : Nat) : Bool := [1, 2, 3, 9, 18, 19, 32, 33, 34, 35, 64].contains op

/-- The native decoder (R293): a well-formed instruction, or the reason why the word is refused. -/
def decode (w : Word) : Except DecodeError Instr :=
  let i := decodeRaw w
  if formatR (w.toNat >>> 56) && !reservedOp (w.toNat >>> 56) ((w.toNat >>> 52) % 16) && w.extractLsb' 0 2 ≠ 0 then
    .error .reservedBits
  else
    match i.defect with
    | some d => .error (.defect d)
    | none => .ok i

/-- Operand byte `k` of a bytecode word. -/
def bcN8 (w : Word) (k : Nat) : BitVec 8 := w.extractLsb' (8 * k) 8

/-- A 16-bit operand that begins at byte `k`. -/
def bcN16 (w : Word) (k : Nat) : BitVec 16 := w.extractLsb' (8 * k) 16

/-- The bytecode that a word names by its opcode byte, with its length in bytes (R404). -/
def bcRaw (w : Word) : Instr × Nat :=
  match w.toNat % 256 with
  | 1 => (.bcEnd, 1)
  | 2 => (.bcRet, 1)
  | 8 => (.bcLdi (bcN16 w 1), 3)
  | 9 => (.bcLdsp (bcN8 w 1), 2)
  | 16 => (.bcLdloc (bcN8 w 1), 2)
  | 17 => (.bcStloc (bcN8 w 1), 2)
  | 18 => (.bcLdglob (bcN16 w 1), 3)
  | 19 => (.bcStglob (bcN16 w 1), 3)
  | 20 => (.bcDup, 1)
  | 21 => (.bcPop, 1)
  | 22 => (.bcSwap, 1)
  | 32 => (.bcGetattrS (bcN16 w 1), 3)
  | 33 => (.bcSetattrS (bcN16 w 1), 3)
  | 34 => (.bcLdsl (bcN8 w 1), 2)
  | 35 => (.bcStsl (bcN8 w 1), 2)
  | 36 => (.bcMkobj (bcN16 w 1) (bcN8 w 3), 4)
  | 37 => (.bcUnpack (bcN8 w 1), 2)
  | 48 => (.bcLoopdec (bcN8 w 1) (bcN16 w 2), 4)
  | 49 => (.bcBr (bcN16 w 1), 3)
  | 50 => (.bcBrt (bcN16 w 1), 3)
  | 51 => (.bcBrf (bcN16 w 1), 3)
  | 52 => (.bcForr (bcN8 w 1) (bcN16 w 2), 4)
  | 64 => (.bcAddS (bcN16 w 1), 3)
  | 65 => (.bcSubS (bcN16 w 1), 3)
  | 66 => (.bcMulS (bcN16 w 1), 3)
  | 67 => (.bcDivS (bcN16 w 1), 3)
  | 68 => (.bcMmS (bcN16 w 1), 3)
  | 69 => (.bcLtS (bcN16 w 1), 3)
  | 70 => (.bcLeS (bcN16 w 1), 3)
  | 71 => (.bcEqS (bcN16 w 1), 3)
  | 72 => (.bcNegS (bcN16 w 1), 3)
  | 96 => (.bcCallS (bcN16 w 1) (bcN8 w 3), 4)
  | 97 => (.bcCallb (bcN8 w 1), 2)
  | 98 => (.bcTlaunch (bcN16 w 1), 3)
  | 112 => (.bcWaitt, 1)
  | 113 => (.bcRaise, 1)
  | 114 => (.bcTry (bcN16 w 1), 3)
  | 115 => (.bcUntry, 1)
  | _ => (.unassignedBytecode (bcN8 w 0), 8)

/-- The bytecode decoder: zero padding up to 8 bytes, and branch offsets that are multiples of 8 (R220). -/
def decodeBytecode (w : Word) : Except DecodeError Instr :=
  let (i, n) := bcRaw w
  if w.toNat >>> (8 * n) ≠ 0 then .error .padding
  else
    match i.defect with
    | some d => .error (.defect d)
    | none => .ok i

/-- The instruction of a table row's word: rows of at most 32 bits are bytecodes, the others native words. -/
def decodeTableWord (nbits w : Nat) : Option Instr :=
  if w ≥ 2 ^ 64 then none
  else
    match (if nbits ≤ 32 then decodeBytecode (BitVec.ofNat 64 w) else decode (BitVec.ofNat 64 w)) with
    | .ok i => some i
    | .error _ => none

/-- Bits [63:48] of every format (R283). -/
def encHead (op fn : Nat) (pk : BitVec 3) (pn : Bool) : BitVec 16 :=
  BitVec.ofNat 8 op ++ BitVec.ofNat 4 fn ++ pk ++ BitVec.ofBool pn

/-- A format R word. -/
def encR (op fn : Nat) (x : FmtR) : Word :=
  encHead op fn x.pk x.pn ++ x.d ++ x.a ++ x.b ++ x.c ++ x.ma ++ x.mb ++ x.mc ++ x.clamp ++ x.scale ++ x.dt ++ x.rm ++ 0#2

/-- A format I word. -/
def encI (op fn : Nat) (x : FmtI) : Word :=
  encHead op fn x.pk x.pn ++ x.d ++ x.a ++ BitVec.ofBool x.la ++ x.it ++ x.imm

/-- A format M word. -/
def encM (op fn : Nat) (x : FmtM) : Word :=
  encHead op fn x.pk x.pn ++ x.dr ++ x.base ++ x.idx ++ BitVec.ofBool x.lbase ++ BitVec.ofBool x.lidx ++ x.sc ++ x.ord ++
    x.size ++ x.off

/-- A format E word. -/
def encE (op fn : Nat) (x : FmtE) : Word :=
  encHead op fn x.pk x.pn ++ x.d ++ x.a ++ x.b ++ x.c ++ BitVec.ofBool x.la ++ BitVec.ofBool x.lb ++ BitVec.ofBool x.lc ++ x.cmd

/-- A format J word. -/
def encJ (op fn : Nat) (x : FmtJ) : Word := encHead op fn x.pk x.pn ++ x.reg ++ x.off

/-- A bytecode word without operands. -/
def encB (op : Nat) : Word := BitVec.ofNat 64 op

/-- A bytecode word with an 8-bit operand. -/
def encB8 (op : Nat) (n : BitVec 8) : Word := 0#48 ++ n ++ BitVec.ofNat 8 op

/-- A bytecode word with a 16-bit operand. -/
def encB16 (op : Nat) (n : BitVec 16) : Word := 0#40 ++ n ++ BitVec.ofNat 8 op

/-- A bytecode word with an 8-bit and then a 16-bit operand. -/
def encB816 (op : Nat) (n : BitVec 8) (m : BitVec 16) : Word := 0#32 ++ m ++ n ++ BitVec.ofNat 8 op

/-- A bytecode word with a 16-bit and then an 8-bit operand. -/
def encB168 (op : Nat) (n : BitVec 16) (m : BitVec 8) : Word := 0#32 ++ m ++ n ++ BitVec.ofNat 8 op

/-- The word of an instruction; a step of the machine itself has none and gives the word of zeros. -/
def encode (i : Instr) : Word :=
  match i with
  | .add x => encR 0x01 0 x
  | .sub x => encR 0x01 1 x
  | .mul x => encR 0x01 2 x
  | .mulh x => encR 0x01 3 x
  | .mulhu x => encR 0x01 4 x
  | .div x => encR 0x01 5 x
  | .divu x => encR 0x01 6 x
  | .rem x => encR 0x01 7 x
  | .remu x => encR 0x01 8 x
  | .min x => encR 0x01 9 x
  | .max x => encR 0x01 10 x
  | .minu x => encR 0x01 11 x
  | .maxu x => encR 0x01 12 x
  | .and x => encR 0x02 0 x
  | .or x => encR 0x02 1 x
  | .xor x => encR 0x02 2 x
  | .shl x => encR 0x02 3 x
  | .shr x => encR 0x02 4 x
  | .sra x => encR 0x02 5 x
  | .clz x => encR 0x02 6 x
  | .ctz x => encR 0x02 7 x
  | .popc x => encR 0x02 8 x
  | .bext x => encR 0x02 9 x
  | .bins x => encR 0x02 10 x
  | .seq x => encR 0x03 0 x
  | .sne x => encR 0x03 1 x
  | .slt x => encR 0x03 2 x
  | .sltu x => encR 0x03 3 x
  | .sle x => encR 0x03 4 x
  | .sleu x => encR 0x03 5 x
  | .sel x => encR 0x03 6 x
  | .mov x => encR 0x03 7 x
  | .movi x => encI 0x04 0 x
  | .addi x => encI 0x04 1 x
  | .andi x => encI 0x04 2 x
  | .ori x => encI 0x04 3 x
  | .xori x => encI 0x04 4 x
  | .shli x => encI 0x04 5 x
  | .shri x => encI 0x04 6 x
  | .srai x => encI 0x04 7 x
  | .slti x => encI 0x04 8 x
  | .sltui x => encI 0x04 9 x
  | .lrec x => encI 0x04 10 x
  | .br x => encJ 0x08 0 x
  | .bz x => encJ 0x08 1 x
  | .bnz x => encJ 0x08 2 x
  | .call x => encJ 0x08 3 x
  | .bltz x => encJ 0x08 4 x
  | .bgez x => encJ 0x08 5 x
  | .loop x => encJ 0x08 6 x
  | .jr x => encR 0x09 0 x
  | .callr x => encR 0x09 1 x
  | .ret x => encR 0x09 2 x
  | .nop x => encR 0x09 10 x
  | .halt x => encR 0x09 3 x
  | .yield x => encR 0x09 4 x
  | .hop x => encR 0x09 5 x
  | .trap x => encR 0x09 6 x
  | .tret x => encR 0x09 7 x
  | .bkpt x => encR 0x09 8 x
  | .icinv x => encR 0x09 9 x
  | .mfsr x => encI 0x0A 0 x
  | .mtsr x => encI 0x0A 1 x
  | .ld x => encM 0x10 0 x
  | .lds x => encM 0x10 1 x
  | .st x => encM 0x10 2 x
  | .ldc x => encM 0x10 3 x
  | .vld x => encM 0x10 4 x
  | .vst x => encM 0x10 5 x
  | .amswap x => encM 0x11 0 x
  | .amadd x => encM 0x11 1 x
  | .amand x => encM 0x11 2 x
  | .amor x => encM 0x11 3 x
  | .amxor x => encM 0x11 4 x
  | .ammin x => encM 0x11 5 x
  | .ammax x => encM 0x11 6 x
  | .amminu x => encM 0x11 7 x
  | .ammaxu x => encM 0x11 8 x
  | .amcas x => encM 0x11 9 x
  | .fence x => encR 0x12 0 x
  | .binit x => encR 0x12 1 x
  | .barrive x => encR 0x12 2 x
  | .bexpect x => encR 0x12 3 x
  | .bwait x => encR 0x12 4 x
  | .rclaim x => encR 0x12 5 x
  | .rcommit x => encR 0x12 6 x
  | .rtake x => encR 0x12 7 x
  | .rgive x => encR 0x12 8 x
  | .qstat x => encR 0x12 9 x
  | .sendm x => encR 0x13 0 x
  | .sendk x => encR 0x13 1 x
  | .mbarm x => encR 0x13 2 x
  | .vadd x => encR 0x20 0 x
  | .vsub x => encR 0x20 1 x
  | .vmul x => encR 0x20 2 x
  | .vfma x => encR 0x20 3 x
  | .vmin x => encR 0x20 4 x
  | .vmax x => encR 0x20 5 x
  | .vdiv x => encR 0x20 6 x
  | .vand x => encR 0x20 7 x
  | .vor x => encR 0x20 8 x
  | .vxor x => encR 0x20 9 x
  | .vshl x => encR 0x20 10 x
  | .vshr x => encR 0x20 11 x
  | .vsra x => encR 0x20 12 x
  | .vceq x => encR 0x21 0 x
  | .vcne x => encR 0x21 1 x
  | .vclt x => encR 0x21 2 x
  | .vcle x => encR 0x21 3 x
  | .vsel x => encR 0x21 4 x
  | .vcvt x => encR 0x21 5 x
  | .vbcast x => encR 0x21 6 x
  | .vins x => encR 0x21 7 x
  | .vext x => encR 0x21 8 x
  | .vmov x => encR 0x21 9 x
  | .kand x => encR 0x21 10 x
  | .kor x => encR 0x21 11 x
  | .kxor x => encR 0x21 12 x
  | .knot x => encR 0x21 13 x
  | .vredsum x => encR 0x22 0 x
  | .vredmax x => encR 0x22 1 x
  | .vredmin x => encR 0x22 2 x
  | .vscan x => encR 0x22 3 x
  | .vperm x => encR 0x22 4 x
  | .vexp2 x => encR 0x22 5 x
  | .vlog2 x => encR 0x22 6 x
  | .vrcp x => encR 0x22 7 x
  | .vrsqrt x => encR 0x22 8 x
  | .vsqrt x => encR 0x22 9 x
  | .vgath x => encR 0x23 0 x
  | .vscat x => encR 0x23 1 x
  | .vgrant x => encR 0x23 2 x
  | .sbind x => encR 0x23 3 x
  | .sunbind x => encR 0x23 4 x
  | .sstat x => encR 0x23 5 x
  | .tld x => encE 0x30 0 x
  | .tldx x => encE 0x30 1 x
  | .tst x => encE 0x30 2 x
  | .mma x => encE 0x30 3 x
  | .mmal x => encE 0x30 4 x
  | .accz x => encE 0x30 5 x
  | .accrd x => encE 0x30 6 x
  | .accwb x => encE 0x30 7 x
  | .accstat x => encE 0x30 8 x
  | .accerr x => encE 0x30 9 x
  | .cp x => encE 0x31 0 x
  | .cpabort x => encE 0x31 1 x
  | .cpstat x => encE 0x31 2 x
  | .wmread x => encE 0x31 3 x
  | .cinval x => encE 0x31 4 x
  | .gath x => encE 0x31 5 x
  | .scat x => encE 0x31 6 x
  | .xlook x => encE 0x32 0 x
  | .xpark x => encE 0x32 1 x
  | .xrel x => encE 0x32 2 x
  | .dqpush x => encE 0x32 3 x
  | .dqpop x => encE 0x32 4 x
  | .ctrsnap x => encE 0x32 5 x
  | .kmerge x => encE 0x32 6 x
  | .rred x => encE 0x32 7 x
  | .gbar x => encE 0x32 8 x
  | .launch x => encE 0x32 9 x
  | .icl x => encR 0x40 0 x
  | .icu x => encR 0x40 1 x
  | .guard x => encR 0x40 2 x
  | .tagchk x => encR 0x40 3 x
  | .ldslot x => encR 0x40 4 x
  | .stslot x => encR 0x40 5 x
  | .rcinc x => encR 0x40 6 x
  | .rcdec x => encR 0x40 7 x
  | .twait x => encR 0x40 8 x
  | .detour x => encR 0x40 9 x
  | .detret x => encR 0x40 10 x
  | .plaunch x => encR 0x40 11 x
  | .bcEnd => encB 0x01
  | .bcRet => encB 0x02
  | .bcLdi x0 => encB16 0x08 x0
  | .bcLdsp x0 => encB8 0x09 x0
  | .bcLdloc x0 => encB8 0x10 x0
  | .bcStloc x0 => encB8 0x11 x0
  | .bcLdglob x0 => encB16 0x12 x0
  | .bcStglob x0 => encB16 0x13 x0
  | .bcDup => encB 0x14
  | .bcPop => encB 0x15
  | .bcSwap => encB 0x16
  | .bcGetattrS x0 => encB16 0x20 x0
  | .bcSetattrS x0 => encB16 0x21 x0
  | .bcLdsl x0 => encB8 0x22 x0
  | .bcStsl x0 => encB8 0x23 x0
  | .bcMkobj x0 x1 => encB168 0x24 x0 x1
  | .bcUnpack x0 => encB8 0x25 x0
  | .bcLoopdec x0 x1 => encB816 0x30 x0 x1
  | .bcBr x0 => encB16 0x31 x0
  | .bcBrt x0 => encB16 0x32 x0
  | .bcBrf x0 => encB16 0x33 x0
  | .bcForr x0 x1 => encB816 0x34 x0 x1
  | .bcAddS x0 => encB16 0x40 x0
  | .bcSubS x0 => encB16 0x41 x0
  | .bcMulS x0 => encB16 0x42 x0
  | .bcDivS x0 => encB16 0x43 x0
  | .bcMmS x0 => encB16 0x44 x0
  | .bcLtS x0 => encB16 0x45 x0
  | .bcLeS x0 => encB16 0x46 x0
  | .bcEqS x0 => encB16 0x47 x0
  | .bcNegS x0 => encB16 0x48 x0
  | .bcCallS x0 x1 => encB168 0x60 x0 x1
  | .bcCallb x0 => encB8 0x61 x0
  | .bcTlaunch x0 => encB16 0x62 x0
  | .bcWaitt => encB 0x70
  | .bcRaise => encB 0x71
  | .bcTry x0 => encB16 0x72 x0
  | .bcUntry => encB 0x73
  | .reservedOpcode w => w
  | .unassignedBytecode b => 0#56 ++ b
  | .powerOn => 0
  | .fullService => 0
  | .pwrCtlSel => 0
  | .profileChange => 0
  | .powerLimitWindow => 0
  | .thermalThrottle => 0
  | .thermalRecover => 0
  | .thermalTrip => 0
  | .tierPortFail => 0
  | .counterUpdate => 0
  | .registerWrite => 0
  | .ckptStart => 0
  | .ckptRestore => 0
  | .ckptAbort => 0
  | .checkpointComplete => 0
  | .restoreComplete => 0
  | .qreg => 0
  | .qdereg => 0
  | .qstop => 0
  | .qresume => 0
  | .qbudget => 0
  | .pasidEn => 0
  | .pasidRel => 0
  | .pasidRelComplete => 0
  | .oload => 0
  | .ounload => 0
  | .ccstart => 0
  | .ccstop => 0
  | .onrbindBind => 0
  | .onrbindUnbind => 0
  | .rwsetDefine => 0
  | .rwsetDelete => 0
  | .dbgctlSetHalt => 0
  | .dbgctlClearHalt => 0
  | .dbgctlResume => 0
  | .attest => 0
  | .ctrread => 0
  | .fwupdate => 0
  | .mgDone => 0
  | .doorbell => 0
  | .wmSet => 0
  | .wmClr => 0
  | .packetFetch => 0
  | .packetLaunch => 0
  | .packetComplete => 0
  | .patchFenceComplete => 0
  | .qidle => 0
  | .timer => 0
  | .watchdogExpiry => 0
  | .eventHandoff => 0
  | .evqTake => 0
  | .evqDone => 0
  | .qlockReq => 0
  | .map => 0
  | .save => 0
  | .setprio => 0
  | .timerSet => 0
  | .xfDoneRetry => 0
  | .xfDoneFail => 0
  | .atsResponse => 0
  | .atsInvalidation => 0
  | .priResponse => 0
  | .priTimeout => 0
  | .sdReq => 0
  | .shootdownComplete => 0
  | .sdtimeout => 0
  | .sdRetry => 0
  | .sdForce => 0
  | .migReq => 0
  | .migrationStreamEnd => 0
  | .redirectNotice => 0
  | .queueSpaceNotice => 0
  | .go => 0
  | .cinvalWrite => 0
  | .copyAccept => 0
  | .copyLand => 0
  | .copyEnd => 0
  | .copyAbortComplete => 0
  | .watermarkReport => 0
  | .heldAccessRelease => 0
  | .remoteCopyRequest => 0
  | .remotePutComplete => 0
  | .remoteSourceTimeout => 0
  | .remoteAckTimeout => 0
  | .gatherSublistArrival => 0
  | .gatherRowArrival => 0
  | .scatterRowArrival => 0
  | .scatterAck => 0
  | .bwaitWake => 0
  | .bwaitTimeout => 0
  | .blockedWake => 0
  | .dispatch => 0
  | .runqueueAgeing => 0
  | .timeSlice => 0
  | .taskMessageArrival => 0
  | .dataMessageArrival => 0
  | .hopMessageArrival => 0
  | .contextFreeNotice => 0
  | .ringSpaceNotice => 0
  | .noticeReservationExpiry => 0
  | .unlistedResend => 0
  | .launchComplete => 0
  | .portLaunchStart => 0
  | .tileLaunchStart => 0
  | .retentionExpiry => 0
  | .drainReq => 0
  | .drainGraceExpiry => 0
  | .drainComplete => 0
  | .resumeReq => 0
  | .resumeComplete => 0
  | .config => 0
  | .fill => 0
  | .evict => 0
  | .flush => 0
  | .setrep => 0
  | .setwb => 0
  | .clrpin => 0
  | .ertAgeing => 0
  | .expertRequest => 0
  | .expertReply => 0
  | .laybyDelivery => 0
  | .dequeSpaceNotice => 0
  | .laybyRetry => 0
  | .dequeReservationExpiry => 0
  | .stealRequest => 0
  | .stealReply => 0
  | .sendkArrival => 0
  | .collectiveResult => 0
  | .engineCommandStart => 0
  | .tileLoadRowArrival => 0
  | .mmaComplete => 0
  | .vectorCommandComplete => 0
  | .streamElementFetch => 0
  | .sramScrub => 0
  | .powerLoss => 0
  | .orderlyShutdown => 0
  | .linkRetry => 0
  | .matrixCommandComplete => 0
  | .mgo => 0

end Sys2Proof
end

