-- ==== Sys2Proof/Config.lean ====
section
/-! DEFINITION. What one BN7 fixes (its configuration record, the firmware image) and the free values the manual leaves
open: opaque constants, so that no proof can see what they are. Each is a DESIGN CHOICE of assumptions 5, 6, 7 and 59. -/

namespace Sys2Proof.Config

/-- The module id of the configuration record (R33), 18 bits. -/
opaque moduleId : BitVec 18

/-- `MAXP` of the configuration record (R22, R33): the highest profile allowed. -/
opaque maxProfile : Nat

/-- The 32-bit version of the installed configuration record (R33). -/
opaque recordVersion : Nat

/-- Frames of 64 KiB that the configuration record sets aside for checkpoints (R25). -/
opaque checkpointFrames : Nat

/-- MSI-X vectors that the host has enabled (R14, R37). -/
opaque vectorEnabled : Nat → Bool

/-- The serial number of the configuration record (R33). -/
opaque serialNumber : Nat

/-- Which of the three port layouts of R16 the configuration record gives the 64 scale-out lanes (R33): 8, 16 or 32 ports, modulo 3. -/
opaque laneLayout : Nat

/-- The tier region of the configuration record (R33): first tier address and length in bytes. -/
opaque tierRegion : Nat × Nat

/-- The checkpoint region within the tier (R25, R33): first tier address; its frames are `checkpointFrames`. -/
opaque checkpointBase : Nat

/-- The signed content of the installed firmware image and of the configuration record (R34). -/
opaque firmwareContent : List (BitVec 8)
opaque recordContent : List (BitVec 8)

/-- The private key of the module's identity, derived from its SRAM (R32), and the public key that signs images and records (R33): 57 bytes
each. -/
opaque identityKey : BitVec 456
opaque vendorKey : BitVec 456

/-- The 32-bit version that a configuration record image carries (R33); its place in the image is not given. -/
opaque imageVersion : List (BitVec 8) → Nat

/-- The entry point of the firmware image (R77). -/
opaque firmwareEntry : BitVec 64

/-- Of a replacement firmware image or configuration record that `FWUPDATE` has brought (R29, R96), given as its bytes: the signed content, the
signature, the entry point, and the record's fields; their places in the image are not given. -/
opaque imageContent : List (BitVec 8) → List (BitVec 8)
opaque imageSignature : List (BitVec 8) → List (BitVec 8)
opaque imageSerial : List (BitVec 8) → Nat
opaque imageLaneLayout : List (BitVec 8) → Nat
opaque imageTierRegion : List (BitVec 8) → Nat × Nat
opaque imageCheckpointBase : List (BitVec 8) → Nat
opaque imageEntry : List (BitVec 8) → BitVec 64
opaque imageModuleId : List (BitVec 8) → BitVec 18
opaque imageMaxProfile : List (BitVec 8) → Nat
opaque imageCheckpointFrames : List (BitVec 8) → Nat

/-- The device address from which the loader looks for the place of a section, given the number of the load, the section's index and its length (R62,
R74); the manual gives no placement policy. -/
opaque placeAt : Nat → Nat → Nat → Nat

/-- Whether device memory can hold the sections of a load (R74, code 7), given its number, the ranges that loads already hold, and its own. -/
opaque loadFits : Nat → List (Nat × Nat) → List (Nat × Nat) → Bool

/-- The load handle of the n-th load (R74). -/
opaque loadHandle : Nat → BitVec 64

/-- A fresh free value, by a plain counter of the state: a value the manual leaves open. -/
opaque freeWord : Nat → BitVec 64

end Sys2Proof.Config
end

