-- ==== Sys2Proof/Machine/Numbers.lean ====
section
/-! DEFINITION. Number formats and exact arithmetic (16_numbers.md): values are exact until one rounding. An exact value is
a sign, a number, a power of two, and for a value that is no finite binary fraction the mark that a little more is left. -/

namespace Sys2Proof.Machine

/-- An exact value: NaN, an infinity, or (-1)^neg × (num + rest) × 2^exp, where rest is 0, or with `sticky` some value
strictly between 0 and 1. -/
inductive Ex where
  | nan
  | inf (neg : Bool)
  | fin (neg : Bool) (num : Nat) (exp : Int) (sticky : Bool)
  deriving DecidableEq, Repr

/-- A floating-point element format (R240). -/
structure Fmt where
  es : Nat
  ms : Nat
  bias : Nat
  infs : Bool
  deriving DecidableEq, Repr

def fp32 : Fmt := ⟨8, 23, 127, true⟩
def bf16 : Fmt := ⟨8, 7, 127, true⟩
def fp16 : Fmt := ⟨5, 10, 15, true⟩
def fp8e4 : Fmt := ⟨4, 3, 7, false⟩
def fp8e5 : Fmt := ⟨5, 2, 15, true⟩
def fp4 : Fmt := ⟨2, 1, 1, false⟩

/-- The format of a float `DT` code (R287). -/
def fmtOfDt (t : Nat) : Option Fmt :=
  match t with
  | 9 => some fp32
  | 10 => some bf16
  | 11 => some fp16
  | 12 => some fp8e4
  | 13 => some fp8e5
  | 14 => some fp4
  | _ => none

/-- The float format of a page format, `PFMT` 1 to 5 (R246). -/
def fmtOfPage (p : Nat) : Option Fmt :=
  match p with
  | 1 => some fp32
  | 2 => some bf16
  | 3 => some fp16
  | 4 => some fp8e4
  | 5 => some fp8e5
  | _ => none

/-- The rounding modes (R247, R287). -/
inductive Rnd where
  | rne
  | rtz
  | rup
  | rdn
  | stoch
  deriving DecidableEq, Repr

/-- The mode of an `RM` field: 1-5 name one, 0 takes `RNDCTL.RM` (R247, R287). -/
def rndMode (rm : Nat) (rndctl : Nat) : Rnd :=
  match (if rm = 0 then rndctl + 1 else rm) with
  | 1 => .rne
  | 2 => .rtz
  | 3 => .rup
  | 4 => .rdn
  | 5 => .stoch
  | _ => .rne

/-- The flags of `AFLAGS` (R252). -/
def flInvalid : BitVec 6 := 1
def flOverflow : BitVec 6 := 2
def flUnderflow : BitVec 6 := 4
def flInexact : BitVec 6 := 8
def flSat : BitVec 6 := 16
def flDivzero : BitVec 6 := 32

/-- What a conversion reads and changes beside its value: the tile's stochastic source and the flags. -/
structure Fp where
  seed : BitVec 32 := 1
  flags : BitVec 6 := 0
  deriving DecidableEq, Repr

/-- A flag raised. -/
def Fp.raise (s : Fp) (f : BitVec 6) : Fp := { s with flags := s.flags ||| f }

/-- One step of the stochastic source (R249). -/
def lfsrStep (x : BitVec 32) : BitVec 32 := (x >>> 1) ^^^ (if x.getLsbD 0 then 0x80200003#32 else 0#32)

/-- The step that every conversion under STOCH takes, and the draw d. -/
def Fp.draw (s : Fp) (m : Rnd) : Nat × Fp :=
  if m = .stoch then
    let x := lfsrStep s.seed
    (x.toNat % 2 ^ 24, { s with seed := x })
  else (0, s)

/-- `n` steps of the stochastic source. -/
def lfsrAfter (x : BitVec 32) : Nat → BitVec 32
  | 0 => x
  | n + 1 => lfsrAfter (lfsrStep x) n

/-- floor(log2 n); 0 for 0. -/
def log2 (n : Nat) : Nat := Nat.log2 n

/-- The code's value (R240). -/
def Fmt.decode (f : Fmt) (c : Nat) : Ex :=
  let s := (c >>> (f.es + f.ms)) % 2 = 1
  let e := (c >>> f.ms) % 2 ^ f.es
  let m := c % 2 ^ f.ms
  if f.infs && e = 2 ^ f.es - 1 then (if m = 0 then .inf s else .nan)
  else if !f.infs && f.ms = 3 && e = 15 && m = 7 then .nan
  else if e = 0 then .fin s m (1 - (f.bias : Int) - f.ms) false
  else .fin s (2 ^ f.ms + m) ((e : Int) - f.bias - f.ms) false

/-- A code's sign bit. -/
def Fmt.signBit (f : Fmt) (neg : Bool) : Nat := if neg then 2 ^ (f.es + f.ms) else 0

/-- The code of an infinity. -/
def Fmt.infCode (f : Fmt) (neg : Bool) : Nat := f.signBit neg + (2 ^ f.es - 1) * 2 ^ f.ms

/-- The code of the largest finite value. -/
def Fmt.maxCode (f : Fmt) (neg : Bool) : Nat :=
  f.signBit neg + (if f.infs then (2 ^ f.es - 1) * 2 ^ f.ms - 1 else if f.ms = 3 then 0x7E else 2 ^ (f.es + f.ms) - 1)

/-- The canonical NaN (R241); FP4 has none and takes 0. -/
def Fmt.nanCode (f : Fmt) : Nat :=
  if f.infs then (2 ^ f.es - 1) * 2 ^ f.ms + 2 ^ (f.ms - 1) else if f.ms = 3 then 0x7F else 0

/-- The code of 1. -/
def Fmt.oneCode (f : Fmt) (neg : Bool) : Nat := f.signBit neg + f.bias * 2 ^ f.ms

/-- The number (num + rest) × 2^-sh rounded to an integer, with whether it went away from zero and whether it changed. -/
def roundShift (neg : Bool) (num : Nat) (sticky : Bool) (sh : Int) (m : Rnd) (d : Nat) : Nat × Bool × Bool :=
  let k := sh.toNat
  let q := if sh ≤ 0 then num <<< (-sh).toNat else num >>> k
  let r := if sh ≤ 0 then 0 else num % 2 ^ k
  let inexact := r ≠ 0 || sticky
  let up :=
    match m with
    | .rne => k ≠ 0 && (r > 2 ^ (k - 1) || (r = 2 ^ (k - 1) && (sticky || q % 2 = 1)))
    | .rtz => false
    | .rup => inexact && !neg
    | .rdn => inexact && neg
    | .stoch => (r <<< 24) >>> k > d
  (if up then q + 1 else q, up, inexact)

/-- round_fmt of R248; `sat` replaces every overflow with ±max (clamp 11, R254). -/
def roundFmt (f : Fmt) (m : Rnd) (sat : Bool) (x : Ex) (s0 : Fp) : Nat × Fp :=
  let (d, s) := s0.draw m
  match x with
  | .nan => (f.nanCode, if f.es = 2 then s.raise flInvalid else s)
  | .inf neg => if f.infs then (f.infCode neg, s) else (f.maxCode neg, s.raise flOverflow)
  | .fin neg num exp sticky =>
    if num = 0 && !sticky then (f.signBit neg, s)
    else
      let top : Int := (log2 num : Int) + exp
      let low : Int := 1 - (f.bias : Int)
      let tiny := num = 0 || top < low
      let unit : Int := (if tiny then low else top) - f.ms
      let (q0, up, inexact) := roundShift neg num sticky (unit - exp) m d
      let (q, u) := if q0 = 2 ^ (f.ms + 1) then (2 ^ f.ms, unit + 1) else (q0, unit)
      let e : Nat := if q < 2 ^ f.ms then 0 else (u + f.ms + f.bias).toNat
      let fr := q % 2 ^ f.ms
      let top := if f.infs then 2 ^ f.es - 1 else 2 ^ f.es
      let big := e ≥ top || (!f.infs && f.ms = 3 && e = 15 && fr = 7)
      if big then
        let s := s.raise (flOverflow ||| flInexact)
        let toInf : Bool := f.infs && !sat &&
          (match m with
           | .rne => true
           | .rtz => false
           | .rup => !neg
           | .rdn => neg
           | .stoch => up)
        (if toInf then f.infCode neg else f.maxCode neg, s)
      else
        let s := if inexact then s.raise flInexact else s
        let s := if inexact && tiny then s.raise flUnderflow else s
        (f.signBit neg + e * 2 ^ f.ms + fr, s)

/-- The value times 2^s (R254). -/
def Ex.scale (x : Ex) (s : Int) : Ex :=
  match x with
  | .fin neg num exp st => .fin neg num (exp + s) st
  | y => y

/-- The value with its sign inverted. -/
def Ex.neg (x : Ex) : Ex :=
  match x with
  | .nan => .nan
  | .inf n => .inf (!n)
  | .fin n num exp st => .fin (!n) num exp st

/-- The sign of a value. -/
def Ex.isNeg (x : Ex) : Bool :=
  match x with
  | .nan => false
  | .inf n => n
  | .fin n _ _ _ => n

/-- An integer as an exact value. -/
def Ex.ofInt (i : Int) : Ex := .fin (i < 0) i.natAbs 0 false

/-- The exact product; 0 × ∞ is invalid (R241). -/
def Ex.mul (a b : Ex) : Ex × BitVec 6 :=
  match a, b with
  | .nan, _ => (.nan, 0)
  | _, .nan => (.nan, 0)
  | .inf n, .inf k => (.inf (n != k), 0)
  | .inf n, .fin k num _ _ => if num = 0 then (.nan, flInvalid) else (.inf (n != k), 0)
  | .fin n num _ _, .inf k => if num = 0 then (.nan, flInvalid) else (.inf (n != k), 0)
  | .fin n x e _, .fin k y g _ => (.fin (n != k) (x * y) (e + g) false, 0)

/-- A finite value as a signed number of units 2^e, for an e at or below its own. -/
def scaled (neg : Bool) (num : Nat) (exp e : Int) : Int :=
  let v : Int := ((num <<< (exp - e).toNat : Nat) : Int)
  if neg then -v else v

/-- The exact sum; the zero of opposite signs is +0, or -0 under RDN (R248). -/
def Ex.add (m : Rnd) (a b : Ex) : Ex × BitVec 6 :=
  match a, b with
  | .nan, _ => (.nan, 0)
  | _, .nan => (.nan, 0)
  | .inf n, .inf k => if n = k then (.inf n, 0) else (.nan, flInvalid)
  | .inf n, .fin _ _ _ _ => (.inf n, 0)
  | .fin _ _ _ _, .inf k => (.inf k, 0)
  | .fin n x e _, .fin k y g _ =>
    if x = 0 && y = 0 && n = k then (.fin n 0 0 false, 0)
    else
      let u := min e g
      let t := scaled n x e u + scaled k y g u
      if t = 0 then (.fin (m = .rdn) 0 0 false, 0) else (.fin (t < 0) t.natAbs u false, 0)

/-- Bits kept beyond the operands' own by a quotient or a root before the last place is marked sticky. -/
def extraBits : Nat := 128

/-- The quotient (R345): a nonzero value over zero is an infinity without a flag. -/
def Ex.div (a b : Ex) : Ex × BitVec 6 :=
  match a, b with
  | .nan, _ => (.nan, 0)
  | _, .nan => (.nan, 0)
  | .inf _, .inf _ => (.nan, flInvalid)
  | .inf n, .fin k _ _ _ => (.inf (n != k), 0)
  | .fin n _ _ _, .inf k => (.fin (n != k) 0 0 false, 0)
  | .fin n x e _, .fin k y g _ =>
    if y = 0 then (if x = 0 then (.nan, flInvalid) else (.inf (n != k), 0))
    else
      let sh := extraBits + log2 y
      let p := x <<< sh
      (.fin (n != k) (p / y) (e - g - sh) (p % y ≠ 0), 0)

/-- The integer square root, by bits. -/
def isqrtGo (n : Nat) : Nat → Nat → Nat
  | 0, r => if (r + 1) * (r + 1) ≤ n then r + 1 else r
  | i + 1, r => let t := r + 2 ^ (i + 1); isqrtGo n i (if t * t ≤ n then t else r)

/-- floor(√n). -/
def isqrt (n : Nat) : Nat := if n = 0 then 0 else isqrtGo n (log2 n / 2) 0

/-- √a (R355). -/
def Ex.sqrt (a : Ex) : Ex × BitVec 6 :=
  match a with
  | .nan => (.nan, 0)
  | .inf n => if n then (.nan, flInvalid) else (.inf false, 0)
  | .fin n x e _ =>
    if x = 0 then (.fin n 0 0 false, 0)
    else if n then (.nan, flInvalid)
    else
      let odd := e % 2 = 1
      let x := if odd then 2 * x else x
      let e := if odd then e - 1 else e
      let p := x <<< (2 * extraBits)
      let r := isqrt p
      (.fin false r (e / 2 - extraBits) (r * r ≠ p), 0)

/-- 1/a (R355). -/
def Ex.rcp (a : Ex) : Ex × BitVec 6 :=
  match a with
  | .nan => (.nan, 0)
  | .inf n => (.fin n 0 0 false, 0)
  | .fin n x e _ =>
    if x = 0 then (.inf n, 0)
    else
      let sh := extraBits + log2 x
      (.fin n (2 ^ sh / x) (-e - sh) (2 ^ sh % x ≠ 0), 0)

/-- 1/√a (R355). -/
def Ex.rsqrt (a : Ex) : Ex × BitVec 6 :=
  match a with
  | .nan => (.nan, 0)
  | .inf n => if n then (.nan, flInvalid) else (.fin false 0 0 false, 0)
  | .fin n x e _ =>
    if x = 0 then (.inf n, 0)
    else if n then (.nan, flInvalid)
    else
      let odd := e % 2 = 1
      let x := if odd then 2 * x else x
      let e := if odd then e - 1 else e
      let k := extraBits + log2 x
      let q := 2 ^ (2 * k) / x
      let r := isqrt q
      (.fin false r (-(e / 2) - k) (r * r * x ≠ 2 ^ (2 * k)), 0)

/-- Fixed-point places used for the transcendental functions: the distance of any operand's result from a rounding boundary
is far greater. (DEDUCED, assumption 28) -/
def places : Nat := 400

/-- ln 2 in `places` places, as the sum of 1 / (n 2^n). -/
def ln2Go : Nat → Nat
  | 0 => 0
  | n + 1 => ln2Go n + 2 ^ (places + 16) / ((n + 1) * 2 ^ (n + 1))

/-- ln 2 in `places` places. -/
def ln2 : Nat := ln2Go (places + 16) >>> 16

/-- The sum of the exponential series from a term on. -/
def expGo (x : Nat) : Nat → Nat → Nat → Nat → Nat
  | 0, _, _, acc => acc
  | k + 1, n, term, acc => let t := (term * x / n) >>> places; expGo x k (n + 1) t (acc + t)

/-- 2^f for a fraction f of `places` places, in `places` places: between 1 and 2. -/
def exp2Frac (f : Nat) : Nat :=
  let x := (f * ln2) >>> places
  expGo x 100 1 (2 ^ places) (2 ^ places)

/-- 2^a (R355). (DEDUCED, assumption 28) -/
def Ex.exp2 (a : Ex) : Ex × BitVec 6 :=
  match a with
  | .nan => (.nan, 0)
  | .inf n => (if n then .fin false 0 0 false else .inf false, 0)
  | .fin n x e _ =>
    if x = 0 then (.fin false 1 0 false, 0)
    else if e ≥ 0 then
      let v : Int := min ((x : Int) <<< (min e 64).toNat) (2 ^ 40)
      (.fin false 1 (if n then -v else v) false, 0)
    else
      let k := (-e).toNat
      let v : Int := if n then -(x : Int) else x
      let i := v / 2 ^ k
      let f := (v % 2 ^ k).toNat
      if f = 0 then (.fin false 1 i false, 0)
      else (.fin false (exp2Frac ((f <<< places) >>> k)) (i - places) true, 0)

/-- The first `k` binary places of log2 m for m in [1, 2) given in `p` places, by repeated squaring. -/
def log2Frac (p : Nat) : Nat → Nat → Nat → Nat
  | 0, _, acc => acc
  | k + 1, m, acc =>
    let s := (m * m) >>> p
    if s ≥ 2 ^ (p + 1) then log2Frac p k (s >>> 1) (2 * acc + 1) else log2Frac p k s (2 * acc)

/-- log2 a (R355). (DEDUCED, assumption 28) -/
def Ex.log2 (a : Ex) : Ex × BitVec 6 :=
  match a with
  | .nan => (.nan, 0)
  | .inf n => if n then (.nan, flInvalid) else (.inf false, 0)
  | .fin n x e _ =>
    if x = 0 then (.inf true, 0)
    else if n then (.nan, flInvalid)
    else
      let t := Nat.log2 x
      let i : Int := (t : Int) + e
      if x = 2 ^ t then (.fin (i < 0) i.natAbs 0 false, 0)
      else
        let f := log2Frac 640 200 ((x <<< 640) >>> t) 0
        let v : Int := i * 2 ^ 200 + f
        if v ≥ 0 then (.fin false v.toNat (-200) true, 0) else (.fin true ((-v).toNat - 1) (-200) true, 0)

/-- Whether |x| ≤ q × 2^k for a finite x; an infinity is not. -/
def Ex.leMag (x : Ex) (q : Nat) (k : Int) : Bool :=
  match x with
  | .nan => true
  | .inf _ => false
  | .fin _ num exp st =>
    let u := min exp k
    let l := num <<< (exp - u).toNat
    let r := q <<< (k - u).toNat
    l < r || (l = r && !st)

/-- Whether a value takes part in a block's M: not a NaN, and for the limb conversion no infinity (R250, R258). -/
def Ex.counts (limb : Bool) (x : Ex) : Bool :=
  match x with
  | .nan => false
  | .inf _ => !limb
  | .fin _ _ _ _ => true

/-- The delta of a block (R250): the least d with M × 2^-(b + d - 127 - g) ≤ Q, else 15. -/
def blockDelta (limb : Bool) (b g q : Nat) (vs : List Ex) : Nat :=
  ((List.range 16).find? fun (d : Nat) =>
    vs.all fun v => !v.counts limb || v.leMag q ((b : Int) + d - 127 - g)).getD 15

/-- A value rounded to an integer (R251, R250): the integer, and whether the rounding changed the value. -/
def roundInt (m : Rnd) (x : Ex) (s0 : Fp) : Int × Bool × Fp :=
  let (d, s) := s0.draw m
  match x with
  | .fin neg num exp st =>
    let (q, _, inexact) := roundShift neg num st (-exp) m d
    (if neg then -(q : Int) else q, inexact, s)
  | _ => (0, false, s)

/-- The conversion to an integer range (R251): ±∞ saturates, NaN gives 0. -/
def toIntRange (m : Rnd) (lo hi : Int) (x : Ex) (s : Fp) : Int × Fp :=
  let (i, inexact, s) := roundInt m x s
  match x with
  | .nan => (0, s.raise flInvalid)
  | .inf neg => (if neg then lo else hi, s.raise flSat)
  | .fin _ _ _ _ =>
    let s := if inexact then s.raise flInexact else s
    if i < lo then (lo, s.raise flSat) else if i > hi then (hi, s.raise flSat) else (i, s)

/-- One BFP or limb mantissa in [lo, hi] (R250, R258): NaN gives 0 with `INVALID`; an infinity saturates for BFP and gives 0
with `INVALID` for a limb conversion. -/
def toMantissa (limb : Bool) (m : Rnd) (lo hi : Int) (x : Ex) (s : Fp) : Int × Fp :=
  let (i, inexact, s) := roundInt m x s
  match x with
  | .nan => (0, s.raise flInvalid)
  | .inf neg => if limb then (0, s.raise flInvalid) else (if neg then lo else hi, s.raise flOverflow)
  | .fin _ _ _ _ =>
    let s := if inexact then s.raise flInexact else s
    if i < lo then (lo, s.raise flOverflow) else if i > hi then (hi, s.raise flOverflow) else (i, s)

/-- bfp_value (R243, R7). -/
def bfpValue (w : Nat) (m : Int) (base delta : Nat) : Ex :=
  .fin (m < 0) m.natAbs ((base : Int) + delta - 127 - ((w : Int) - 2)) false

/-- An FP4 element's value (R244). -/
def fp4Value (c base delta : Nat) : Ex := (fp4.decode c).scale ((base : Int) + delta - 127)

/-- The block of codes of `vs` (R250): one code per value, and the delta. FP4 for `w` = 0, else BFPw. -/
def encodeBlockGo (w : Nat) (m : Rnd) (k : Int) : List Ex → Fp → List Nat × Fp
  | [], s => ([], s)
  | x :: r, s =>
    let (c, s) :=
      if w = 0 then roundFmt fp4 m false (x.scale (-k)) s
      else
        let (i, s) := toMantissa false m (-(2 ^ (w - 1))) (2 ^ (w - 1) - 1) (x.scale (-k)) s
        ((i % 2 ^ w).toNat, s)
    let (cs, s) := encodeBlockGo w m k r s
    (c :: cs, s)

/-- The block encoding of R250 with base `b`: the codes and the delta. -/
def encodeBlock (w : Nat) (m : Rnd) (b : Nat) (vs : List Ex) (s : Fp) : (List Nat × Nat) × Fp :=
  let g := if w = 0 then 0 else w - 2
  let q := if w = 0 then 6 else 2 ^ (w - 1) - 1
  let d := blockDelta false b g q vs
  let (cs, s) := encodeBlockGo w m ((b : Int) + d - 127 - g) vs s
  ((cs, d), s)

/-- The clamp of R254 on a rounded float code: 1 to [0, 1], 2 to [-1, 1]; NaN becomes +0 and a zero keeps its sign. -/
def Fmt.clamp (f : Fmt) (cl : Nat) (c : Nat) : Nat :=
  if cl = 1 || cl = 2 then
    match f.decode c with
    | .nan => 0
    | .inf neg => if neg then (if cl = 1 then 0 else f.oneCode true) else f.oneCode false
    | .fin neg num exp st =>
      if num = 0 then c
      else if neg then (if cl = 1 then 0 else if (Ex.fin neg num exp st).leMag 1 0 then c else f.oneCode true)
      else if (Ex.fin neg num exp st).leMag 1 0 then c
      else f.oneCode false
  else c

/-- The clamp of R254 on an exact value, before a block encoding. -/
def Ex.clamp (cl : Nat) (x : Ex) : Ex :=
  if cl = 1 || cl = 2 then
    match x with
    | .nan => .fin false 0 0 false
    | .inf neg => if neg then (if cl = 1 then .fin false 0 0 false else .fin true 1 0 false) else .fin false 1 0 false
    | .fin neg num exp st =>
      if num = 0 then x
      else if neg && cl = 1 then .fin false 0 0 false
      else if x.leMag 1 0 then x
      else .fin neg 1 0 false
  else x

/-- write() of a float result (R254): scaled, rounded once, clamped. -/
def writeFloat (f : Fmt) (m : Rnd) (scale : Int) (cl : Nat) (x : Ex) (s : Fp) : Nat × Fp :=
  let (c, s) := roundFmt f m (cl = 3) (x.scale scale) s
  (f.clamp cl c, s)

/-- write() of an integer result of `w` bits (R254, R344): scaled toward -∞, then saturated under clamp 3, else wrapped, and clamps 1 and 2 act on
the wrapped value. (DEDUCED, assumption 14) -/
def writeInt (w : Nat) (signed : Bool) (scale : Int) (cl : Nat) (x : Int) (s : Fp) : Nat × Fp :=
  let y := if scale ≥ 0 then x * 2 ^ scale.toNat else x / 2 ^ (-scale).toNat
  let lo : Int := if signed then -(2 ^ (w - 1)) else 0
  let hi : Int := if signed then 2 ^ (w - 1) - 1 else 2 ^ w - 1
  let u := y % 2 ^ w
  let v := if u > hi then u - 2 ^ w else u
  let (z, s) :=
    if cl = 3 then (if y < lo then (lo, s.raise flSat) else if y > hi then (hi, s.raise flSat) else (y, s))
    else if cl = 1 then (max 0 (min 1 v), s)
    else if cl = 2 then (max (-1) (min 1 v), s)
    else (v, s)
  ((z % 2 ^ w).toNat, s)

/-- The `SCALE` field of format R: three bits, two's complement (R283). -/
def scaleOf (b : BitVec 3) : Int := b.toInt

/-- Compares two values: `none` when either is NaN; -0 equals +0. -/
def Ex.cmp (a b : Ex) : Option Ordering :=
  match a, b with
  | .nan, _ => none
  | _, .nan => none
  | .inf n, .inf k => some (if n = k then .eq else if n then .lt else .gt)
  | .inf n, .fin _ _ _ _ => some (if n then .lt else .gt)
  | .fin _ _ _ _, .inf k => some (if k then .gt else .lt)
  | .fin n x e _, .fin k y g _ =>
    let u := min e g
    some (compare (scaled n x e u) (scaled k y g u))

/-- Float minimum or maximum (R345): a single NaN gives the other operand, -0 is below +0. (DEDUCED, assumption 15) -/
def Ex.minmax (isMax : Bool) (a b : Ex) : Ex :=
  match a.cmp b with
  | none => if a = .nan then b else a
  | some .lt => if isMax then b else a
  | some .gt => if isMax then a else b
  | some .eq => if isMax then (if a.isNeg then b else a) else (if a.isNeg then a else b)

end Sys2Proof.Machine
end

