-- ==== Sys2Proof/Machine/State.lean ====
section
/-! DEFINITION. The state of the BN7 as plain data: everything the manual gives the machine, and the model's own few fields
(which agent moves next, time, the counter of free values). Every table is keyed by numbers and lists no default entry. -/

namespace Sys2Proof.Machine

/-- Why a step stops the model. No instruction of this model ends in one. -/
inductive Fault where
  /-- raised by `step` alone, when the agenda names a core the module does not have; safe -/
  | noSuchCore
  deriving DecidableEq, Repr

/-- Why a step is refused. -/
inductive Refusal where
  /-- raised by an arm of `exec` whose instruction has no meaning yet; safe -/
  | notModelled (mnemonic : String)
  deriving DecidableEq, Repr

/-- The states of a context (R162). -/
inductive CtxState where
  | free
  | ready
  | running
  | blocked
  | hopping
  | saved
  deriving DecidableEq, Repr

/-- What a Blocked context waits for (R162), with the request it has already made. -/
inductive Await where
  | none
  /-- a queue register of its launch on its tile (R227) -/
  | queue (q : Nat)
  /-- the word of this memory key becoming full (R325) -/
  | full (key : Nat)
  /-- the word of this memory key becoming empty (R325) -/
  | empty (key : Nat)
  /-- a watermark hold, a page under migration, or a redirect notice (R137, R123, R124) -/
  | hold
  /-- a translation ticket (R112) -/
  | ticket (n : Nat)
  /-- a claim or a take of the ring with this header key (R149) -/
  | ring (key : Nat)
  /-- all refusal entries in use (R165) -/
  | refusals
  /-- `bwait` until this cycle, or without a bound (R334) -/
  | barrier (key : Nat) (deadline : Option Nat)
  /-- the reply of the expert paging unit (R392): result code and the record -/
  | expert (req : Nat) (reply : Option (Nat × BitVec 128))
  /-- the steal round of a pop (R193): directions tried -/
  | steal (tried : Nat)
  /-- a command of the matrix engine that this strand waits for (R377, R380), with its result -/
  | matrix (id : Nat) (result : Option Word)
  /-- a collective round (R395, R398) -/
  | collective (round : Nat)
  /-- fewer than 4 tile launches outstanding (R400) -/
  | launches
  /-- fewer than 32 port launches outstanding (R214) -/
  | port
  /-- the completion that a control-window read waits for (R78, R117, R172, R183) -/
  | window
  /-- pushed stream elements that must be performed first (R363, R266) -/
  | stream
  /-- elements of `sendk` that must be added first (R200, R268) -/
  | elements
  /-- the vector engine, behind a command that waits there (R224) -/
  | vector
  /-- a streamer's acknowledgement (R387) -/
  | ack
  deriving DecidableEq, Repr

/-- A vector register: 64 lanes of 32 bits and a poison bit per lane (R340). -/
structure VReg where
  lane : Tbl (BitVec 32) := []
  poison : BitVec 64 := 0
  deriving DecidableEq, Repr

/-- A stream register as it stood before an instruction took a window of it: its position, its overrun flag, the elements it held, and the vector in
the register. -/
structure UndoStrm where
  n : Nat
  pos : Nat
  ovr : Bool
  fetched : List (Nat × BitVec 32 × Bool)
  reg : VReg
  deriving DecidableEq, Repr

/-- What a vector instruction has popped that has performed some of its lanes (R263), so that a trap can put it back (R312): entries of the scalar and
the vector queue registers, and the stream registers. -/
structure Undo where
  q : Tbl (List Word) := []
  qv : Tbl (List VReg) := []
  strm : List UndoStrm := []
  deriving DecidableEq, Repr

/-- A context: the scalar state of a strand (R159, R161), or of a control core or firmware core in native mode. -/
structure Ctx where
  st : CtxState := .free
  pc : Word := 0
  g : Tbl Word := []
  /-- bit n is 1 while gn is live (R161) -/
  live : BitVec 16 := 0
  strandId : BitVec 32 := 0
  prio : Nat := 0
  launch : Nat := 0
  /-- `VL` (R238) -/
  vl : Nat := 64
  /-- `TRAPVEC`, `TRAPCODE`, `TRAPPC`, `TRAPARG`, `TRAPST` (R311) -/
  vec : Word := 0
  code : Word := 0
  rpc : Word := 0
  arg : Word := 0
  inh : Bool := false
  /-- `RNDCTL.RM` (R247) -/
  rm : BitVec 3 := 0
  /-- `AFLAGS` (R252) -/
  aflags : BitVec 6 := 0
  /-- `CYCLES` counted so far, and since which cycle it counts on (R320) -/
  cyc : Nat := 0
  cycFrom : Nat := 0
  await : Await := .none
  /-- the instruction it waits at, with the word it was read from -/
  waitAt : Option Instr := none
  /-- virtual pages (of 64 KiB) whose ticket failed for the access it waits at (R112) -/
  failed : List Nat := []
  /-- of the vector instruction it waits at: the active lanes read at issue (R289), its vector operands once lanes have been performed, and
  those lanes with what it has popped (R263, R357) -/
  act : Option (BitVec 64) := none
  data : List VReg := []
  lanes : BitVec 64 := 0
  undo : Option Undo := none
  /-- the model's number of the place that the command it waits at has in the vector engine's queue (R224) -/
  line : Option Nat := none
  /-- the f-registers that a comparison which waits in that queue has captured (R225) -/
  regs : List VReg := []
  deriving DecidableEq, Repr

/-- A context that waits for nothing. -/
def Ctx.settled (c : Ctx) : Ctx :=
  { c with await := .none, waitAt := none, failed := [], act := none, data := [], lanes := 0, undo := none, line := none,
           regs := [] }

/-- A cached line of instructions (R317): eight words, with their poison, of a PASID's 64-byte line. -/
structure ILine where
  pasid : Nat
  line : Nat
  words : List (Word × Bool)
  deriving DecidableEq, Repr

/-- A run-queue entry (R163). -/
structure RunEntry where
  ctx : Nat
  level : Nat
  since : Nat
  deriving DecidableEq, Repr

/-- A listed refusal (R165): the message, and while a notice reserves for it, until which cycle; whether its reservation has ended unused since a
context last became free (R166). -/
structure Listed where
  msg : Nat
  reservedUntil : Option Nat
  lapsed : Bool := false
  deriving DecidableEq, Repr

/-- One core of a tile, or a control or firmware core: what its strands share. -/
structure CoreSt where
  f : Tbl VReg := []
  /-- bit n is 1 while fn is dead (R290) -/
  fdead : BitVec 32 := 0
  k : Tbl Word := []
  run : Option Nat := none
  runSince : Nat := 0
  runq : List RunEntry := []
  /-- `MBPC0`-`MBPC3`, `MBCFG0`-`MBCFG3` (R164) -/
  mbpc : Tbl Word := []
  mbcfg : Tbl Word := []
  /-- the context list, and the ring-space list of each mailbox (R165) -/
  ctxList : List Listed := []
  ringList : Tbl (List Listed) := []
  icache : List ILine := []
  /-- halt-on-breakpoint, and the context a debugger halt stopped (R316) -/
  haltOn : Bool := false
  halted : Option Nat := none
  deriving DecidableEq, Repr

/-- The semaphore of a tile register (R236). -/
inductive Sem where
  | empty
  | loading
  | full
  deriving DecidableEq, Repr

/-- A tile register (R236, R366): elements keyed 64 × row + column as signed mantissas, block deltas keyed
64 × row + block, poisoned limbs keyed like elements. -/
structure TReg where
  sem : Sem := .empty
  cfg : Word := 0
  base : Nat := 0
  elem : Tbl Int := []
  delta : Tbl Nat := []
  poison : Tbl Bool := []
  deriving DecidableEq, Repr

/-- An accumulator (R255): 96-bit elements keyed 64 × row + column, those whose words are poisoned (R235), and the sticky bits. -/
structure Acc where
  val : Tbl (BitVec 96) := []
  bad : Tbl Bool := []
  anchor : Nat := 0
  anchored : Bool := false
  ovf : Bool := false
  poison : Bool := false
  deriving DecidableEq, Repr

/-- Which tile-load command (R369, R371, R373). -/
inductive LoadKind where
  | tld
  | tldx
  | tldxsg
  | tst
  deriving DecidableEq, Repr

/-- A command of the tile-load unit with its captured operands (R225); rows are issued in order, the lowest first (R198). -/
structure LoadCmd where
  /-- the model's number of the command -/
  id : Nat := 0
  kind : LoadKind
  reg : Nat
  cfg : Word
  a : Word
  b : Word
  base : Nat
  mode : Nat
  filt : Bool
  ctl : Word
  launch : Nat
  pasid : Nat
  ctx : Nat
  /-- the index of the issuing context, whose stack window it uses -/
  x : Nat := 0
  /-- rows not yet arrived, and below which row each has been issued -/
  rows : List Nat := []
  issued : Nat := 0
  index : Tbl Nat := []
  started : Bool := false
  /-- `RNDSEED` when it started: its steps of the stochastic source are its own from then on (R249) -/
  seed : BitVec 32 := 1
  /-- flags raised so far, and the ticket it is frozen on -/
  flags : BitVec 6 := 0
  ticket : Option Nat := none
  failed : Bool := false
  deriving DecidableEq, Repr

/-- Which matrix-engine command (R374 to R380). -/
inductive MatKind where
  | mma
  | accz
  | accrd
  | accwb
  | accstat
  deriving DecidableEq, Repr

/-- A command of the matrix engine with its captured operands. -/
structure MatCmd where
  id : Nat
  kind : MatKind
  acc : Nat
  ta : Nat := 0
  tb : Nat := 0
  cfga : Word := 0
  cfgb : Word := 0
  relA : Bool := false
  relB : Bool := false
  pairs : List (Nat × Nat) := []
  /-- `accrd` and `accwb`: row or row count, type, mode, destination f-register, active lanes, address, base -/
  row : Nat := 0
  ty : Nat := 0
  mode : Nat := 0
  fd : Nat := 0
  active : BitVec 64 := 0
  addr : Word := 0
  base : Nat := 0
  bsz : Nat := 16
  ctx : Nat := 0
  launch : Nat := 0
  pasid : Nat := 0
  /-- the index of the issuing context, whose stack window it uses -/
  x : Nat := 0
  /-- a write-back frozen on this ticket, and whether one has failed -/
  ticket : Option Nat := none
  failed : Bool := false
  /-- rows a write-back has still to write, the bytes of a word whose rest the next row holds, and the flags raised so far -/
  rows : List Nat := []
  carry : List (Nat × Bool) := []
  flags : BitVec 6 := 0
  /-- `RNDSEED` when it started: its steps of the stochastic source are its own from then on (R249) -/
  seed : BitVec 32 := 1
  /-- begun, and taken from the engine by a drain -/
  begun : Bool := false
  deriving DecidableEq, Repr

/-- A vector source of a command as it was captured (R225): its value, or a window of a bound read stream: the register and the ordinal of its
first element (R239). -/
inductive VecSrc where
  | val (v : VReg)
  | win (n p : Nat)
  deriving DecidableEq, Repr

/-- What a command of the vector engine writes: an f-register, or a predicate. -/
inductive VecDst where
  | f (n : Nat)
  | k (n : Nat)
  deriving DecidableEq, Repr

/-- A command of the vector engine with what it captured at its issue (R225): the sources in field order, the active lanes (R289), `RNDCTL.RM`,
`VL`, the predicate of `vsel` or the control word of `vcvt`, the context index and, for a bound write stream, the ordinal of its next element. -/
structure VecOps where
  i : Instr
  dst : VecDst := .f 0
  src : List VecSrc := []
  act : BitVec 64 := 0
  rm : BitVec 3 := 0
  vl : Nat := 64
  w : Word := 0
  x : Nat := 0
  pos : Nat := 0
  deriving DecidableEq, Repr

/-- How far a command in the vector engine's queue is (R224): performed, its flags waiting to be raised; waiting, with this number of the model, at
the strand that issued it, which performs it; or captured and not yet started. -/
inductive VecStage where
  | done
  | own (id : Nat)
  | held (o : VecOps)
  deriving DecidableEq, Repr

/-- A command of the vector engine, with the flags that it raises in `AFLAGS` when it completes (R253). -/
structure VecCmd where
  ctx : Nat
  flags : BitVec 6
  launch : Nat := 0
  stage : VecStage := .done
  deriving DecidableEq, Repr

/-- An element pushed to a write stream and not yet performed (R239, R362): ordinal, value, poison, and of the strand that pushed it the key
of its context while it lives, the rounding mode, the launch and the context index whose stack window it uses. -/
structure Pushed where
  p : Nat
  v : BitVec 32
  bad : Bool
  ctx : Nat
  rm : BitVec 3
  launch : Nat
  x : Nat
  deriving DecidableEq, Repr

/-- A bound stream register (R239, R360): the descriptor, the position, the elements fetched ahead or pushed and not yet
performed, the flags; the launch and the context index of the strand that bound it. -/
structure Stream where
  bound : Bool := false
  desc : BitVec 512 := 0
  pos : Nat := 0
  esz : Nat := 4
  ovr : Bool := false
  fault : Bool := false
  lowest : Option Word := none
  fetched : List (Nat × BitVec 32 × Bool) := []
  pushed : List Pushed := []
  launch : Nat := 0
  ctx : Nat := 0
  /-- the model's number of the binding -/
  id : Nat := 0
  /-- the page (of 64 KiB) whose ticket failed for the pushed element that comes next, and for the next one to be fetched -/
  failed : List Nat := []
  readFailed : List Nat := []
  deriving DecidableEq, Repr

/-- Banks retained for a successor (R171). -/
structure Retained where
  spb : Nat
  succ : BitVec 32
  pasid : Nat
  since : Nat
  deriving DecidableEq, Repr

/-- A tile (R223 to R239, R364 to R401): what its launches share. -/
structure Tile where
  /-- the launches it runs: the ordinary one or producer first, then its dependent (R156) -/
  runs : List Nat := []
  rndseed : BitVec 32 := 1
  dupdrop : BitVec 32 := 0
  tcfg : Tbl Word := []
  treg : Tbl TReg := []
  acc : Tbl Acc := []
  loadQ : List LoadCmd := []
  matQ : List MatCmd := []
  matRun : Option MatCmd := none
  vecQ : List VecCmd := []
  vecRun : Option VecCmd := none
  /-- tile copies queued and not yet started, and the history of tags (R383, R385) -/
  copyQ : List Nat := []
  tag : Nat := 0
  tags : List (Nat × Nat) := []
  errlog : List Word := []
  lost : Nat := 0
  deque : List (BitVec 128) := []
  dqcfg : BitVec 1 := 0
  /-- entries reserved for a steal reply (R193), the deque-space list (R187), where the last round began -/
  stealRes : Nat := 0
  dqList : List Listed := []
  stealDir : Nat := 3
  strm : Tbl Stream := []
  /-- launches issued by this tile since module reset (R400) -/
  launchCount : Nat := 0
  retained : Option Retained := none
  deriving DecidableEq, Repr

/-- A launch on one tile (R160, R226): queue registers, `RETAIN`, strands not yet placed on A and C. -/
structure OnTile where
  q : Tbl (List Word) := []
  qv : Tbl (List VReg) := []
  retain : Word := 0
  unplacedA : List Nat := []
  unplacedC : List Nat := []
  /-- collectives joined, counted from launch start (R395) -/
  rounds : Nat := 0
  deriving DecidableEq, Repr

/-- Where a launch came from: a packet (R45), a launch port (R214), a tile (R399). -/
inductive Origin where
  | packet (q : Nat) (entry : Nat)
  | port (cc : Nat) (slot : Nat) (result : Word) (pins : List Word) (waits : List Nat) (prio : Nat)
  | tile (t : Nat) (issuer : Nat) (queue : Option Nat) (done : Word)
  deriving DecidableEq, Repr

/-- The life of a launch (R45, R172 to R175). -/
inductive LaunchState where
  | waiting
  | running
  | draining
  | stopping
  | saved
  | resuming
  | faulted
  deriving DecidableEq, Repr

/-- A live launch with the template fields it was started with (R68). -/
structure Launch where
  id : BitVec 32 := 0
  pasid : Nat := 0
  x0 : Nat := 0
  y0 : Nat := 0
  w : Nat := 1
  h : Nat := 1
  args : Word := 0
  tmplAddr : Word := 0
  tmpl : BitVec 512 := 0
  origin : Origin := .packet 0 0
  producer : Option Nat := none
  st : LaunchState := .waiting
  /-- failure status of R55 that its retirement reports, 0 when none -/
  status : Nat := 0
  grace : Nat := 0
  drainFc : Nat := 0
  resumeFc : Nat := 0
  save : Word := 0
  /-- the ticket on which its template read or its completion write waits, and the pages whose ticket failed -/
  ticket : Option Nat := none
  failed : List Nat := []
  /-- its template read waits for its home, a watermark or the host -/
  held : Bool := false
  deriving DecidableEq, Repr

/-- The engine a copy runs on (R126). -/
inductive CopyEngine where
  | tile (t : Nat)
  | stream (n : Nat)
  deriving DecidableEq, Repr

/-- The states of a copy (R135), with the queued state of R385. -/
inductive CopyState where
  | queued
  | accepting
  | running
  | frozen
  | aborting
  | ended
  | aborted
  deriving DecidableEq, Repr

/-- What started a copy and what its end reports to. -/
inductive CopyOrigin where
  | tile (launch : Nat) (tag : Nat)
  | packet (q : Nat) (entry : Nat)
  | onramp
  | firmware
  | fill (entry : Nat)
  | drain (entry : Nat)
  | incoming
  deriving DecidableEq, Repr

/-- The remote side of a copy (R17 to R19): outgoing put, outgoing get, incoming put, incoming get. -/
inductive RemoteKind where
  | put
  | get
  | inPut
  | inGet
  deriving DecidableEq, Repr

/-- The remote part of a copy: direction, module, window, and the time (µs) of the last beat from its source or acknowledgement from its
destination (R18). -/
structure Remote where
  kind : RemoteKind
  modId : Nat
  window : Nat
  lastUs : Nat := 0
  deriving DecidableEq, Repr

/-- A copy (R127 to R142): geometry, progress, and what it holds. -/
structure Copy where
  engine : CopyEngine := .stream 0
  origin : CopyOrigin := .firmware
  pasid : Nat := 0
  st : CopyState := .queued
  /-- the template word, or for a copy packet its geometry in template form with `big` holding E (R127) -/
  tmpl : BitVec 512 := 0
  tmplAddr : Option Word := none
  big : Option Nat := none
  w : Nat := 0
  /-- the watermark last reported to its guards (R136) -/
  reported : Nat := 0
  err : Nat := 0
  /-- destination tile and watermark slot (R138), or the guards of the home slices -/
  slot : Option (Nat × Nat) := none
  guarded : Bool := false
  ringSlot : Option (Nat × Nat) := none
  /-- the gather row whose index was read last, with the index (none: poisoned) -/
  row : Option (Nat × Option Nat) := none
  /-- sectors already counted on the barrier, and whether the current one has taken a poisoned element -/
  sectors : Nat := 0
  bad : Bool := false
  ticket : Option Nat := none
  /-- pages (of 64 KiB) whose ticket failed, which an abort cannot poison -/
  failed : List Nat := []
  /-- frozen by a drain of its rectangle, not by a fault; and saved with that rectangle, its slot with it (R138) -/
  drained : Bool := false
  away : Bool := false
  remote : Option Remote := none
  seq : Nat := 0
  deriving DecidableEq, Repr

/-- What waits in a streamer's start queue (R126): a copy of the table. -/
structure Streamer where
  bound : Bool := false
  pasid : Nat := 0
  tbase : Word := 0
  tcount : Nat := 0
  starts : List Nat := []
  cur : Option Nat := none
  done : BitVec 32 := 0
  err : BitVec 8 := 0
  drop : Nat := 0
  lastWm : Nat := 0
  /-- the template cache, most recently used first (R131) -/
  cache : List (Nat × Nat × BitVec 512) := []
  rr : Nat := 0
  deriving DecidableEq, Repr

/-- The kinds of message between tile cores (R164). -/
inductive MsgKind where
  | task
  | data
  | hop
  deriving DecidableEq, Repr

/-- Where a message stands (R165, R166). -/
inductive MsgState where
  | network
  | listed
  | unlisted (since : Nat)
  | resend
  deriving DecidableEq, Repr

/-- A message in the network or refused (R164 to R167). -/
structure Msg where
  kind : MsgKind := .task
  launch : Nat := 0
  fromTile : Nat := 0
  fromA : Bool := false
  toTile : Nat := 0
  toA : Bool := false
  mbox : Nat := 0
  payload : List Word := []
  /-- for a hop: the source context and what it carries -/
  srcCtx : Nat := 0
  carried : Option Ctx := none
  st : MsgState := .network
  deriving DecidableEq, Repr

/-- A `sendk` element in the network (R194), or a copied bin of a snapshot not yet written (R199). -/
structure Element where
  launch : Nat := 0
  /-- the context of the strand that sent it, while that strand lives (R200) -/
  ctx : Option Nat := none
  fromTile : Nat := 0
  toTile : Nat := 0
  base : Nat := 0
  nb : Nat := 0
  key : BitVec 32 := 0
  val : Word := 0
  float : Bool := false
  poison : Bool := false
  /-- a copied bin of a snapshot on its way to its destination word, instead of an addition (R199) -/
  snap : Bool := false
  deriving DecidableEq, Repr

/-- A gather or scatter in progress (R153, R389, R390): its parameters and the entries outstanding. -/
structure Gather where
  scatter : Bool := false
  tile : Nat := 0
  launch : Nat := 0
  loc : Nat := 0
  recOff : Nat := 0
  cbase : Nat := 0
  rb : Nat := 0
  p : Nat := 0
  toff : Nat := 0
  tiles : List Nat := []
  /-- entries not yet handed to their owners, and rows in flight: list position, index, row words with poison -/
  lists : List (Nat × Nat × List (Word × Bool)) := []
  rows : List (Nat × Nat × List (Word × Bool) × Bool) := []
  deriving DecidableEq, Repr

/-- Which collective (R395). -/
inductive CollKind where
  | kmerge
  | rred
  | gbar
  deriving DecidableEq, Repr

/-- One member's part of a collective round: rank, entries or lanes with poison, result offset. -/
structure Part where
  rank : Nat
  words : List (Word × Bool)
  off : Nat
  /-- the model's number of the moment at which it joined, which orders the rounds of a tile (R395) -/
  since : Nat := 0
  deriving DecidableEq, Repr

/-- A collective round of a subgroup (R395). -/
structure Round where
  kind : CollKind := .gbar
  launch : Nat := 0
  ctl : Word := 0
  cmd : Nat := 0
  index : Nat := 0
  tiles : List Nat := []
  parts : List Part := []
  deriving DecidableEq, Repr

/-- An entry of the expert residency table (R179), the 512 bits of the manual. -/
abbrev Ert := BitVec 512

/-- A record in a layby (R186), with its launch and its origin tile. -/
structure Parked where
  launch : Nat
  tile : Nat
  record : BitVec 128
  /-- resolved and waiting for delivery; and whether it took a pin (R187) -/
  released : Bool
  pinned : Bool := false
  deriving DecidableEq, Repr

/-- A layby (R186): bound entry, its release policy, records in park order. -/
structure Layby where
  bound : Bool := false
  rel : Bool := false
  entry : Nat := 0
  recs : List Parked := []
  /-- tiles that refused its push with their list full, each with the cycle of the refusal (R187) -/
  retryAt : Tbl Nat := []
  deriving DecidableEq, Repr

/-- The requests of R185. -/
inductive ExpertKind where
  | look
  | park
  | unpin
  deriving DecidableEq, Repr

/-- A request on its way to the expert paging unit (R391). -/
structure ExpertReq where
  kind : ExpertKind := .look
  entry : Nat := 0
  record : BitVec 128 := 0
  launch : Nat := 0
  tile : Nat := 0
  isA : Bool := false
  ctx : Nat := 0
  reply : Option (Nat × BitVec 128) := none
  deriving DecidableEq, Repr

/-- A steal request or its reply on the way (R193). -/
structure Steal where
  thief : Nat := 0
  victim : Nat := 0
  ctx : Nat := 0
  r : Nat := 0
  /-- the direction in which its round began -/
  dir : Nat := 0
  reply : Option (List (BitVec 128)) := none
  deriving DecidableEq, Repr

/-- A window entry of a queue (R42, R85). -/
structure WinEntry where
  idx : BitVec 32
  pkt : BitVec 512
  launched : Bool := false
  /-- the status found, once its work has ended or it has failed -/
  status : Option Nat := none
  /-- the generation of its set target when it was fetched (R51) -/
  setGen : BitVec 16 := 0
  /-- the ticket on which its template read or its completion record waits, and the pages (of 64 KiB) whose ticket failed for it -/
  ticket : Option Nat := none
  failed : List Nat := []
  /-- its template read waits for its home, a watermark or the host -/
  held : Bool := false
  deriving DecidableEq, Repr

/-- A registered queue (R36 to R42, R85): its control block. -/
structure UQueue where
  record : BitVec 256 := 0
  ridx : BitVec 32 := 0
  err : BitVec 8 := 0
  gen : BitVec 16 := 0
  state : BitVec 4 := 0
  widx : BitVec 32 := 0
  wm : Word := 0
  win : Tbl WinEntry := []
  /-- `QCB.SCHED` (R86) -/
  sched : Word := 0
  /-- a fetch or write-back frozen on this ticket (R41), and the pages whose ticket failed for a read and for a write -/
  ticket : Option Nat := none
  failed : List Nat := []
  failedWb : List Nat := []
  /-- a fetch has begun and waits (R88); and what waits is a write -/
  fetching : Bool := false
  writing : Bool := false
  deriving DecidableEq, Repr

/-- A hardware queue slot (R88): state 0 free, 1 restoring, 2 active, 3 saving. -/
structure Slot where
  st : BitVec 2 := 0
  qid : Nat := 0
  eprio : Nat := 0
  /-- cycle since which it has been idle, and whether QIDLE was raised for that idleness (R80) -/
  idleSince : Option Nat := none
  idleRaised : Bool := false
  /-- the firmware's record of R92: the tick it was mapped at, and an idle report of reason 1 -/
  mappedTick : Nat := 0
  idleMark : Bool := false
  /-- the firmware core whose last slot command is the `SAVE` that takes the queue from it -/
  saver : Option Nat := none
  deriving DecidableEq, Repr

/-- An event record (R79), its arguments and the queue it belongs to. -/
structure Event where
  etype : Nat
  qid : Option Nat
  arg0 : Word
  arg1 : Word
  arg2 : Word
  seq : Nat
  deriving DecidableEq, Repr

/-- A timer of a firmware core (R78): period in µs and when it was last due. -/
structure Timer where
  period : Nat
  since : Nat
  deriving DecidableEq, Repr

/-- A firmware core's private window (R77, R78, R117, R172, R183). -/
structure FwCore where
  up : Bool := false
  /-- waiting in an `EVQ_TAKE` read: the only state in which the core is idle (R82) -/
  taking : Bool := false
  ev : Option Event := none
  handling : Bool := false
  takenAt : Nat := 0
  locks : List Nat := []
  qlockStat : Bool := false
  /-- `SLOT_STAT`, none while its `SAVE` of a slot waits for a fetch (R88) -/
  slotStat : Option Nat := some 0
  timers : Tbl Timer := []
  /-- last shoot-down, with its result once it has one -/
  sd : Nat := 0
  sdResult : Option Nat := some 0
  /-- last migration, drain and resumption: which one, and its status once it has ended (R117, R172) -/
  migOf : Nat := 0
  mig : Option Nat := some 0
  drainOf : Nat := 0
  drain : Option Nat := some 0
  resumeOf : Nat := 0
  resume : Option Nat := some 0
  xarg : Word := 0
  xstat : Nat := 0
  /-- in the shipped firmware's handler of an ageing tick (R92): the queues that still have their kick step -/
  ageing : Option (List Nat) := none
  deriving DecidableEq, Repr

/-- A cached site record of a control core's inline cache (R212), most recently used first: 16 words, and the guard hits of each entry not yet
written back. -/
structure Site where
  pasid : Nat
  addr : Nat
  words : List Word
  hits : Tbl Nat := []
  deriving DecidableEq, Repr

/-- A control core (R201 to R203). -/
structure CtlCore where
  on : Bool := false
  bytecode : Bool := false
  pasid : Nat := 0
  vpc : Word := 0
  vsp : Word := 0
  vfr : Word := 0
  sitebase : Word := 0
  siten : Word := 0
  dtvec : Word := 0
  nsp : Word := 0
  objp : Word := 0
  obje : Word := 0
  bufp : Word := 0
  bufe : Word := 0
  argbase : Word := 0
  lrect : Word := 0
  rqbase : Word := 0
  rqidx : Word := 0
  /-- next sequence number of the launch port; the count outstanding is that of its live launches -/
  seq : BitVec 16 := 0
  /-- launches that a `CCSTART` found outstanding: `LPORT` counts them no more (R221) -/
  uncounted : List Nat := []
  /-- argument slots in use -/
  argSlots : List Nat := []
  sites : List Site := []
  /-- hit counts not yet written back, their page being under migration (R212, R123): PASID, address, count -/
  lateHits : List (Nat × Nat × Nat) := []
  /-- descriptors whose enqueue waits for room (R209) -/
  orphans : List Word := []
  deriving DecidableEq, Repr

/-- A translation ticket (R80, R93). -/
structure Ticket where
  page : Nat
  pasid : Nat
  agent : Nat
  access : Nat
  core : Bool
  /-- the access was an instruction fetch -/
  fetch : Bool := false
  /-- agents that joined, and other pages of 64 KiB of the same huge page whose accesses did (R104) -/
  joined : List Nat := []
  also : List Nat := []
  /-- a PRI request is outstanding since this µs -/
  pri : Option Nat := none
  deriving DecidableEq, Repr

/-- A cached translation (R101, R110, R116): page base, page bits, the leaf, the host address for `LOC` 2. -/
structure Tlb where
  agent : Nat
  pasid : Nat
  va : Nat
  huge : Bool
  leaf : Word
  leafDpa : Nat
  host : Nat := 0
  deriving DecidableEq, Repr

/-- A cached non-leaf entry of a die's walker (R101), with the PASIDs and addresses whose walks have used it. -/
structure NodeEntry where
  die : Nat
  dpa : Nat
  level : Nat
  entry : Word
  uses : List (Nat × Nat) := []
  deriving DecidableEq, Repr

/-- An ATS translation wanted or a host invalidation held (R116). -/
structure AtsReq where
  pasid : Nat
  va : Nat
  agent : Nat
  answered : Option (Option Nat) := none
  deriving DecidableEq, Repr

/-- A host invalidation that waits for a shoot-down over its range (R116). -/
structure AtsInval where
  pasid : Nat
  va : Nat
  len : Nat
  deriving DecidableEq, Repr

/-- An outstanding shoot-down (R117 to R119). -/
structure Shootdown where
  id : Nat := 0
  pasid : Nat := 0
  va : Nat := 0
  npages : Nat := 0
  allp : Bool := false
  tables : Bool := false
  fc : Option Nat := none
  /-- agents that have not acknowledged, when known; cycle of the last invalidation, which has not timed out yet; timeouts so far -/
  missing : List Nat := []
  since : Nat := 0
  sent : Bool := true
  timeouts : Nat := 0
  forced : Bool := false
  mig : Option Nat := none
  deriving DecidableEq, Repr

/-- A migration (R122 to R124): stage 1 queueing and streaming, 2 redirecting until the shoot-down completes, 3 given up, its queue being
applied at the old home, 4 complete with redirected accesses still to be reissued. -/
structure Migration where
  stage : Nat := 1
  pasid : Nat := 0
  va : Nat := 0
  huge : Bool := false
  leafDpa : Nat := 0
  oldFrame : Nat := 0
  newFrame : Nat := 0
  nhome : Nat := 0
  nloc : Nat := 0
  fc : Nat := 0
  /-- accesses queued at the old home (the waiting contexts), and those refused beyond 256 -/
  queued : List (Nat × Nat) := []
  refused : List (Nat × Nat) := []
  /-- accesses answered with a redirect notice and not yet accepted by the new home (R124) -/
  redirected : List (Nat × Nat) := []
  deriving DecidableEq, Repr

/-- A management command slot (R95). -/
structure CmdSlot where
  req : Tbl Word := []
  cap : Tbl Word := []
  rsp : Tbl Word := []
  st : BitVec 2 := 0
  seq : BitVec 32 := 0
  /-- the firmware has executed the captured request and waits to write `MG_DONE` -/
  served : Bool := false
  /-- a `PASID_REL` has begun, and waits for its completion -/
  begun : Bool := false
  /-- the ticket on which an `OLOAD` waits, and the pages (of 64 KiB) whose ticket failed -/
  ticket : Option Nat := none
  failed : List Nat := []
  deriving DecidableEq, Repr

/-- A remote window (R19). -/
structure RWin where
  pasid : Nat
  base : Nat
  len : Nat
  put : Bool
  get : Bool
  any : Bool
  modId : Nat
  deriving DecidableEq, Repr

/-- A load handle (R74, R75): PASID, sections placed, template addresses, released or not. -/
structure Handle where
  handle : Word
  pasid : Nat
  templates : List Nat
  sections : List (Nat × Nat)
  unloading : Bool := false
  deriving DecidableEq, Repr

/-- Service levels of bring-up (R29 to R31, R23). -/
inductive Service where
  | off
  | badImage
  | reduced
  | full
  | tripped
  deriving DecidableEq, Repr

/-- `PWR_CTL` (R22) and the clock (R20 to R23). -/
structure Power where
  clk : Nat := 8
  maxp : Nat := 2
  therm : Bool := false
  trip : Bool := false
  cur : Nat := 2
  sel : Nat := 0
  /-- 0.1 GHz steps by which the clock is lowered to hold the power limit (R23) -/
  lowered : Nat := 0
  /-- a profile change is pending since a write of `SEL` (R21) -/
  pending : Bool := false
  deriving DecidableEq, Repr

/-- The lifetime counters and histograms (R35). -/
structure Counters where
  sram : Tbl Nat := []
  hbm : Tbl Nat := []
  poisoned : Nat := 0
  tierRetry : Tbl Nat := []
  soRetry : Tbl Nat := []
  temp : Tbl Nat := []
  droop : Tbl Nat := []
  deriving DecidableEq, Repr

/-- Engine commands that a drain takes from a tile: queued ones of each engine in order, with the tile loads in progress (R174). -/
structure SavedCmds where
  t : Nat
  loadQ : List LoadCmd := []
  matQ : List MatCmd := []
  vecQ : List VecCmd := []
  copyQ : List Nat := []
  deriving DecidableEq, Repr

/-- The ring state behind a header (R149): slots claimed and not yet covered by `FILLED`, in claim order, each with its
commit mark. -/
structure RingSt where
  claims : List (Nat × Bool) := []
  /-- data messages and strands that wait to claim, oldest first -/
  waiting : List Nat := []
  deriving DecidableEq, Repr

/-- What a drain saves of one tile (R174); `shared` while the producer whose pool it is still runs there. -/
structure SavedTile where
  t : Nat
  shared : Bool := false
  tile : Tile
  coreA : CoreSt
  coreC : CoreSt
  cells : List Host.Cell
  poison : Tbl Bool
  empty : Tbl Bool
  rings : Tbl RingSt := []
  deriving DecidableEq, Repr

/-- A saved launch (R173, R174): contexts, waiting accesses and run-queue entries in order, per-tile state, messages, rings, and what
its save area held. (DESIGN CHOICE, assumption 39) -/
structure Saved where
  ctxs : Tbl Ctx := []
  waiters : List (Nat × Await) := []
  runq : Tbl (List RunEntry) := []
  onTile : Tbl OnTile := []
  cmds : List SavedCmds := []
  tiles : List SavedTile := []
  msgs : Tbl Msg := []
  /-- its messages' entries in the context list and the ring-space lists of each core -/
  lists : Tbl (List Listed × Tbl (List Listed)) := []
  colls : Tbl Round := []
  /-- the copies that stopped with it, its own and those from outside that land in its rectangle -/
  copies : Tbl Copy := []
  area : List Host.Cell := []
  areaPoison : Tbl Bool := []
  deriving DecidableEq, Repr

/-- A completed checkpoint (R25): HBM contents, the HBM frames recorded by reference to a tier copy, each with its tier frame (both of 64
KiB), every other one held in the region; launches saved at the time. -/
structure CkptImage where
  cells : List Host.Cell := []
  poison : Tbl Bool := []
  empty : Tbl Bool := []
  refs : List (Nat × Nat) := []
  launches : List (Nat × Launch) := []
  saved : List (Nat × Saved) := []
  /-- the launches that it drained, which a restore resumes -/
  drained : List Nat := []
  deriving DecidableEq, Repr

/-- Checkpoint control (R25, R26). -/
structure Ckpt where
  seq : BitVec 32 := 0
  status : Nat := 0
  good : Bool := false
  images : Tbl CkptImage := []
  /-- HBM frames (of 64 KiB) written since the last completed checkpoint -/
  written : List Nat := []
  /-- HBM frames found clean and backed by the tier when the drain ended, each with its tier frame -/
  backed : List (Nat × Nat) := []
  /-- the launches that the checkpoint under way drains, and whether the restore under way has written HBM -/
  drained : List Nat := []
  restored : Bool := false
  /-- the module stays stopped after a restore that failed (R28) -/
  stopped : Bool := false
  deriving DecidableEq, Repr

/-- Which agent moves next, and what reaches the machine from outside. (DESIGN CHOICE, assumption 10) -/
structure Input where
  core : Core := .a 0
  n : Nat := 0
  m : Nat := 0
  v : Word := 0
  u : Word := 0
  engine : Engine := .copy
  space : RegSpace := .bar0
  flag : Bool := false
  data : List Word := []
  deriving DecidableEq, Repr

/-- One turn of the agenda: a core issues its next instruction, one of the machine's own steps happens, time passes, an
error strikes a stored word, a cached entry is evicted, or the shipped firmware serves the event a core has taken. (DESIGN CHOICE, assumption 10) (DEDUCED, assumption 64) -/
inductive Turn where
  | core (c : Core)
  | event (i : Instr) (inp : Input)
  | pass (cycles ccCycles us : Nat)
  | upset (word : Nat) (double : Bool)
  | drop (agent : Nat) (va : Nat)
  | serve (fc : Nat)
  deriving DecidableEq, Repr

/-- The machine. The fields of the model's own are named in assumption 10 (DESIGN CHOICE); raised interrupts are a list (DESIGN CHOICE, assumption 62). -/
structure State where
  /-- the model's own: whose turn it is, and the parameters of the current step -/
  agenda : List Turn := []
  cur : Core := .a 0
  curX : Nat := 0
  inp : Input := {}
  /-- cycles of the arithmetic clock, of the control-core clock, and µs, since reset -/
  now : Nat := 0
  ccNow : Nat := 0
  us : Nat := 0
  /-- how many free values have been taken -/
  free : Nat := 0
  /-- the next number given to a launch, copy, message, ticket or request of the model -/
  fresh : Nat := 1
  power : Power := {}
  service : Service := .off
  mgmtVec : BitVec 11 := 0
  ckpt : Ckpt := {}
  tierFailed : List Nat := []
  rwins : Tbl RWin := []
  counters : Counters := {}
  flash : Counters := {}
  /-- the µs of the last periodic update of the flash (R35) -/
  flashedAt : Nat := 0
  /-- a replacement image and record in force since the last power-on, none while the first ones are -/
  fwImage : Option (List Byte) := none
  cfgRecord : Option (List Byte) := none
  /-- firmware image and record installed for the next power-on (R96 `FWUPDATE`) -/
  nextImage : Option (List Byte) := none
  nextRecord : Option (List Byte) := none
  msix : List Nat := []
  queues : Tbl UQueue := []
  /-- the last generation number of each queue id (R37) -/
  gens : Tbl (BitVec 16) := []
  /-- the queue directory (R84) and its base -/
  qdir : Tbl Word := []
  qdirBase : Word := 0
  slots : Tbl Slot := []
  evq : List Event := []
  evSeq : BitVec 32 := 0
  evLost : BitVec 32 := 0
  /-- events that wait for space in a full queue (R82) -/
  evHeld : List Event := []
  fws : Tbl FwCore := []
  cmds : Tbl CmdSlot := []
  launchRR : Nat := 0
  budgets : Tbl Nat := []
  tick : Nat := 0
  pasids : List Nat := []
  dying : List Nat := []
  handles : List Handle := []
  loads : Nat := 0
  tickets : Tbl Ticket := []
  tlb : List Tlb := []
  nodes : List NodeEntry := []
  ats : Tbl AtsReq := []
  atsInv : Tbl AtsInval := []
  ptabBase : Word := 0
  shootdowns : Tbl Shootdown := []
  sdNext : BitVec 16 := 0
  migrations : Tbl Migration := []
  streamers : Tbl Streamer := []
  copies : Tbl Copy := []
  tiles : Tbl Tile := []
  onTile : Tbl OnTile := []
  cores : Tbl CoreSt := []
  ctxs : Tbl Ctx := []
  ccs : Tbl CtlCore := []
  launches : Tbl Launch := []
  saved : Tbl Saved := []
  msgs : Tbl Msg := []
  elems : Tbl Element := []
  gathers : Tbl Gather := []
  colls : Tbl Round := []
  ert : Tbl Ert := []
  ertTick : Nat := 0
  /-- the cycle at which each tile last scrubbed its banks (R232) -/
  scrubbed : Tbl Nat := []
  xstrm : BitVec 16 := 0xFFFF
  laybys : Tbl Layby := []
  expert : List (Nat × ExpertReq) := []
  steals : Tbl Steal := []
  /-- template caches of the launch units (R48): PASID, address, template -/
  tmplCache : List (Nat × Nat × BitVec 512) := []
  /-- patch-fences that wait for the dies (queue, entry) -/
  fences : List (Nat × Nat) := []
  rings : Tbl RingSt := []
  /-- waiting accesses in arrival order (R325, R227, R335): context key and what it waits for -/
  waiters : List (Nat × Await) := []
  /-- memory by key: DPA below 2^52, tile pools from 2^56, host memory from 2^64 -/
  mem : List Host.Cell := []
  /-- by word key (key div 8): poisoned, empty, single-bit error, uncorrectable error not yet found -/
  poison : Tbl Bool := []
  empty : Tbl Bool := []
  soft : Tbl Bool := []
  hard : Tbl Bool := []
  deriving DecidableEq, Repr

/-- The machine right after reset: every register that the manual gives a reset value has it (R22, R26, R91, R92, R164, R178, R180, R249, R365), and
every other one is 0 (DESIGN CHOICE, assumption 4); memory lists nothing (DESIGN CHOICE, assumption 1). -/
def State.reset : State := {}

end Sys2Proof.Machine
end

