-- ==== Sys2Proof/Machine/Access.lean ====
section
/-! DEFINITION. Reading and updating the parts of the state by name, events of the firmware complex (R79 to R82), and the
words of memory with their error, poison and full/empty bits (R232 to R234). -/

namespace Sys2Proof

/-- The tile of a tile core. -/
def Core.tile : Core → Option Nat
  | .a t => some t
  | .c t => some t
  | _ => none

/-- The tile number of a tile core; 0 elsewhere. -/
def Core.tileNo (c : Core) : Nat := c.tile.getD 0

def Core.isTile (c : Core) : Bool := c.tile.isSome

def Core.isA : Core → Bool
  | .a _ => true
  | _ => false

def Core.isC : Core → Bool
  | .c _ => true
  | _ => false

def Core.isCc : Core → Bool
  | .cc _ => true
  | _ => false

def Core.isFc : Core → Bool
  | .fc _ => true
  | _ => false

/-- The agent id of a core's translation unit (R101). -/
def Core.agent : Core → Nat
  | .a t => t
  | .c t => t
  | .cc n => 0x1040 + n
  | .fc n => 0x1080 + n

end Sys2Proof

namespace Sys2Proof.Machine

/-- The number of a core in the tables: A-cores and C-cores of the 4,096 tiles, control cores, firmware cores. -/
def coreIx : Core → Nat
  | .a t => 2 * t
  | .c t => 2 * t + 1
  | .cc n => 8192 + n
  | .fc n => 8256 + n

/-- The core with a number. -/
def coreOfIx (n : Nat) : Core :=
  if n < 8192 then (if n % 2 = 0 then .a (n / 2) else .c (n / 2)) else if n < 8256 then .cc (n - 8192) else .fc (n - 8256)

/-- The key of a context: its core and its index in [0, 31]. -/
def ctxKey (c : Core) (x : Nat) : Nat := coreIx c * 32 + x

/-- Tile coordinates (R8). -/
def tileX (t : Nat) : Nat := t % 64
def tileY (t : Nat) : Nat := t / 64
def tileAt (x y : Nat) : Nat := 64 * y + x

/-- The die of a tile (R8). -/
def tileDie (t : Nat) : Nat := 2 * (tileY t / 16) + tileX t / 32

def State.ctx (s : State) (k : Nat) : Ctx := Tbl.get {} s.ctxs k
@[simps] def State.setCtx (s : State) (k : Nat) (c : Ctx) : State := { s with ctxs := Tbl.set {} s.ctxs k c }
def State.core (s : State) (c : Core) : CoreSt := Tbl.get {} s.cores (coreIx c)
@[simps] def State.setCore (s : State) (c : Core) (v : CoreSt) : State := { s with cores := Tbl.set {} s.cores (coreIx c) v }
def State.tile (s : State) (t : Nat) : Tile := Tbl.get {} s.tiles t
@[simps] def State.setTile (s : State) (t : Nat) (v : Tile) : State := { s with tiles := Tbl.set {} s.tiles t v }
def State.cc (s : State) (n : Nat) : CtlCore := Tbl.get {} s.ccs n
@[simps] def State.setCc (s : State) (n : Nat) (v : CtlCore) : State := { s with ccs := Tbl.set {} s.ccs n v }
def State.fw (s : State) (n : Nat) : FwCore := Tbl.get {} s.fws n
@[simps] def State.setFw (s : State) (n : Nat) (v : FwCore) : State := { s with fws := Tbl.set {} s.fws n v }
def State.streamer (s : State) (n : Nat) : Streamer := Tbl.get {} s.streamers n
@[simps] def State.setStreamer (s : State) (n : Nat) (v : Streamer) : State := { s with streamers := Tbl.set {} s.streamers n v }
def State.slot (s : State) (n : Nat) : Slot := Tbl.get {} s.slots n
@[simps] def State.setSlot (s : State) (n : Nat) (v : Slot) : State := { s with slots := Tbl.set {} s.slots n v }
def State.queue (s : State) (q : Nat) : UQueue := Tbl.get {} s.queues q
@[simps] def State.setQueue (s : State) (q : Nat) (v : UQueue) : State := { s with queues := Tbl.set {} s.queues q v }
def State.cmd (s : State) (n : Nat) : CmdSlot := Tbl.get {} s.cmds n
@[simps] def State.setCmd (s : State) (n : Nat) (v : CmdSlot) : State := { s with cmds := Tbl.set {} s.cmds n v }
def State.launch (s : State) (u : Nat) : Launch := Tbl.get {} s.launches u
@[simps] def State.setLaunch (s : State) (u : Nat) (v : Launch) : State := { s with launches := Tbl.put s.launches u v }
def State.copy (s : State) (u : Nat) : Copy := Tbl.get {} s.copies u
@[simps] def State.setCopy (s : State) (u : Nat) (v : Copy) : State := { s with copies := Tbl.put s.copies u v }
def State.layby (s : State) (j : Nat) : Layby := Tbl.get {} s.laybys j
@[simps] def State.setLayby (s : State) (j : Nat) (v : Layby) : State := { s with laybys := Tbl.set {} s.laybys j v }

/-- The part of launch `u` on tile `t`. -/
def otKey (u t : Nat) : Nat := u * 4096 + t
def State.ot (s : State) (u t : Nat) : OnTile := Tbl.get {} s.onTile (otKey u t)
@[simps] def State.setOt (s : State) (u t : Nat) (v : OnTile) : State := { s with onTile := Tbl.set {} s.onTile (otKey u t) v }

/-- The executing context. -/
def State.me (s : State) : Ctx := s.ctx (ctxKey s.cur s.curX)
def State.setMe (s : State) (c : Ctx) : State := s.setCtx (ctxKey s.cur s.curX) c
def State.myKey (s : State) : Nat := ctxKey s.cur s.curX

/-- The executing core. -/
def State.myCore (s : State) : CoreSt := s.core s.cur
def State.setMyCore (s : State) (v : CoreSt) : State := s.setCore s.cur v

/-- The tile of the executing core. -/
def State.myTile (s : State) : Nat := s.cur.tileNo

/-- The launch of the executing strand. -/
def State.myLaunch (s : State) : Launch := s.launch s.me.launch

/-- The PASID under which the executing core translates: its launch's, its own (R201), or PASID 0 (R76, R103). -/
def State.myPasid (s : State) : Nat :=
  match s.cur with
  | .cc n => (s.cc n).pasid
  | .fc _ => 0
  | _ => s.myLaunch.pasid

/-- A number of the model for a new launch, copy, message, ticket or request. -/
def State.newId (s : State) : Nat × State := (s.fresh, { s with fresh := s.fresh + 1 })

/-- A free value: unconstrained, a new one each time. (DESIGN CHOICE, assumption 7) -/
def State.freeWord (s : State) : Word × State := (Config.freeWord s.free, { s with free := s.free + 1 })

/-- Bits [hi:lo] of a wide record. -/
def fld {n : Nat} (v : BitVec n) (hi lo : Nat) : Nat := (v.toNat >>> lo) % 2 ^ (hi + 1 - lo)

/-- Bits [hi:lo] of a wide record replaced. -/
def setFld {n : Nat} (v : BitVec n) (hi lo : Nat) (x : Nat) : BitVec n :=
  BitVec.ofNat n (v.toNat - (fld v hi lo <<< lo) + ((x % 2 ^ (hi + 1 - lo)) <<< lo))

/-- Template fields (R68). -/
def tmplAEntry (v : BitVec 512) : Word := w64 (fld v 63 0)
def tmplCEntry (v : BitVec 512) : Word := w64 (fld v 127 64)
def tmplPool (v : BitVec 512) : Word := w64 (fld v 191 128)
def tmplNrec (v : BitVec 512) : Nat := fld v 223 192
def tmplPart (v : BitVec 512) : Nat := fld v 255 224
def tmplNstrA (v : BitVec 512) : Nat := fld v 279 272
def tmplNstrC (v : BitVec 512) : Nat := fld v 287 280
def tmplNfreg (v : BitVec 512) : Nat := fld v 295 288
def tmplNacc (v : BitVec 512) : Nat := fld v 303 296
def tmplNbar (v : BitVec 512) : Nat := fld v 311 304
def tmplStackLg (v : BitVec 512) : Nat := fld v 319 312
def tmplClass (v : BitVec 512) : Nat := fld v 327 320

/-- The fields of the partition word (R229). `SPB` above the 32 banks of a pool, in a template that no loader has checked, counts as 32.
(DESIGN CHOICE, assumption 101) -/
def partNslice (p : Nat) : Nat := (p >>> 16) % 64
def partSpb (p : Nat) : Nat := min 32 ((p >>> 8) % 64)
def partAccb (p : Nat) : Nat := (p >>> 3) % 32
def partRfb (p : Nat) : Nat := p % 8

/-- The launch whose partition stands on a tile: the one it runs first (R156, R168). -/
def State.tileLaunch (s : State) (t : Nat) : Option Nat := (s.tile t).runs.head?

/-- Bytes of scratchpad that a tile's partition sets aside; 0 for a tile that runs no launch (R99, R230). -/
def State.spadBytes (s : State) (t : Nat) : Nat :=
  match s.tileLaunch t with
  | none => 0
  | some u => partSpb (tmplPart (s.launch u).tmpl) * 0x8000

/-- Whether a tile lies in a launch's rectangle. -/
def Launch.covers (l : Launch) (t : Nat) : Bool :=
  l.x0 ≤ tileX t && tileX t < l.x0 + l.w && l.y0 ≤ tileY t && tileY t < l.y0 + l.h

/-- The tiles of a rectangle, row by row. -/
def rectTiles (x0 y0 w h : Nat) : List Nat :=
  (List.range h).flatMap fun j => (List.range w).map fun i => tileAt (x0 + i) (y0 + j)

def Launch.tilesOf (l : Launch) : List Nat := rectTiles l.x0 l.y0 l.w l.h

/-- The whole mesh's tiles that a launch runs on, with both cores. -/
def launchCores (l : Launch) : List Core := l.tilesOf.flatMap fun t => [Core.a t, Core.c t]

-- Events

/-- An event enters the queue in raise order; an ERROR that finds it full is lost and counted, any other source holds its
event (R82). -/
def State.raiseEvent (s : State) (etype : Nat) (qid : Option Nat) (a0 a1 a2 : Word) : State :=
  let e : Event := { etype := etype, qid := qid, arg0 := a0, arg1 := a1, arg2 := a2, seq := s.evSeq.toNat }
  if s.evq.length < 4096 then { s with evq := s.evq ++ [e], evSeq := s.evSeq + 1 }
  else if etype = 7 then { s with evLost := s.evLost + 1 }
  else { s with evHeld := s.evHeld ++ [e] }

/-- An ERROR event (R81). -/
def State.raiseError (s : State) (cls : Nat) (a1 a2 : Word) : State := s.raiseEvent 7 none (w64 cls) a1 a2

/-- An MSI-X vector raised. (DESIGN CHOICE, assumption 62) -/
@[simps] def State.raiseMsix (s : State) (v : Nat) : State := { s with msix := s.msix ++ [v] }

-- Memory words

/-- The memory key of scratchpad offset `o` of tile `t`. (DEDUCED, assumption 63) -/
def poolKey (t o : Nat) : Nat := 2 ^ 56 + t * 2 ^ 20 + o

/-- The memory key of a host address. (DEDUCED, assumption 63) -/
def hostKey (a : Nat) : Nat := 2 ^ 64 + a

/-- What an unlisted address reads as: 0. (DESIGN CHOICE, assumption 1) -/
def Memory.default : Byte := 0

/-- The canonical form of memory: keys strictly rising, no entry equal to the default. -/
def Memory.wf (m : List Host.Cell) : Bool := Tbl.wf Memory.default m

/-- One byte. (DESIGN CHOICE, assumption 1) -/
def Memory.get (m : List Host.Cell) (k : Nat) : Byte := Tbl.get Memory.default m k

/-- One byte written, the canonical form kept. -/
def Memory.set (m : List Host.Cell) (k : Nat) (b : Byte) : List Host.Cell := Tbl.set Memory.default m k b

/-- `n` bytes from key `k`, little-endian (R5). -/
def Memory.read (m : List Host.Cell) (k : Nat) : Nat → Nat
  | 0 => 0
  | n + 1 => (Memory.get m k).toNat + 256 * Memory.read m (k + 1) n

/-- `n` bytes written from key `k`, little-endian. -/
def Memory.write (m : List Host.Cell) (k : Nat) : Nat → Nat → List Host.Cell
  | 0, _ => m
  | n + 1, v => Memory.write (Memory.set m k (BitVec.ofNat 8 v)) (k + 1) n (v / 256)

/-- One byte of the machine's memory. -/
def State.byte (s : State) (k : Nat) : Byte := Memory.get s.mem k

/-- An aligned word's value by its word key. -/
def State.wordAt (s : State) (wk : Nat) : Word := w64 (Memory.read s.mem (wk * 8) 8)

def State.isPoison (s : State) (wk : Nat) : Bool := Tbl.get false s.poison wk
def State.isEmpty (s : State) (wk : Nat) : Bool := Tbl.get false s.empty wk
@[simps] def State.setPoison (s : State) (wk : Nat) (b : Bool) : State := { s with poison := Tbl.set false s.poison wk b }
@[simps] def State.setEmpty (s : State) (wk : Nat) (b : Bool) : State := { s with empty := Tbl.set false s.empty wk b }

/-- Whether a key lies in HBM (R108). (DEDUCED, assumption 63) -/
def isHbm (k : Nat) : Bool := k < 2 ^ 41 && k % 2 ^ 37 < 79993765888

/-- Whether a key lies in the tier window (R108). -/
def isTier (k : Nat) : Bool := 2 ^ 51 ≤ k && k < 2 ^ 51 + 2048 * 10 ^ 9

/-- Whether a key lies in a tile's pool. -/
def isPool (k : Nat) : Bool := 2 ^ 56 ≤ k && k < 2 ^ 57

/-- Whether a key's word has a full/empty bit: pool words and HBM words (R326); elsewhere it reads as full. -/
def hasFullBit (k : Nat) : Bool := isPool k || isHbm k

/-- Whether a key lies on a failed tier port (R13). -/
def State.portFailed (s : State) (k : Nat) : Bool := isTier k && s.tierFailed.contains (((k - 2 ^ 51) / 4096) % 6)

/-- Corrected errors of a bank or a stack, counted (R35). -/
def State.countSoft (s : State) (k : Nat) : State :=
  if isPool k then
    let b := 32 * ((k - 2 ^ 56) / 2 ^ 20) + (k % 2 ^ 20) / 0x8000
    { s with counters := { s.counters with sram := Tbl.set 0 s.counters.sram b (Tbl.get 0 s.counters.sram b + 1) } }
  else
    let h := k / 2 ^ 37
    { s with counters := { s.counters with hbm := Tbl.set 0 s.counters.hbm h (Tbl.get 0 s.counters.hbm h + 1) } }

/-- The eight words of the 64-byte beat of a word (R11). -/
def beatWords (wk : Nat) : List Nat := (List.range 8).map fun i => wk / 8 * 8 + i

/-- The check that every read makes (R11, R232): a single-bit error is corrected and counted; an uncorrectable one poisons the
pool word, or the words of the HBM beat with one ERROR event of class 1. (DESIGN CHOICE, assumption 65) -/
def State.checkWord (s : State) (wk : Nat) : State :=
  if isPool (wk * 8) then
    if Tbl.get false s.hard wk then
      let s := (s.setPoison wk true)
      { s with hard := Tbl.set false s.hard wk false, soft := Tbl.set false s.soft wk false,
               counters := { s.counters with poisoned := s.counters.poisoned + 1 } }
    else if Tbl.get false s.soft wk then ({ s with soft := Tbl.set false s.soft wk false }).countSoft (wk * 8)
    else s
  else if (beatWords wk).any fun i => Tbl.get false s.hard i then
    let s := (beatWords wk).foldl (fun s i =>
      let s := s.setPoison i true
      { s with hard := Tbl.set false s.hard i false, soft := Tbl.set false s.soft i false }) s
    let s := { s with counters := { s.counters with poisoned := s.counters.poisoned + 8 } }
    s.raiseError 1 (w64 (wk / 8 * 64)) (w64 (wk * 8 / 2 ^ 37))
  else if Tbl.get false s.soft wk then ({ s with soft := Tbl.set false s.soft wk false }).countSoft (wk * 8)
  else s

/-- The poison of the bytes [k, k + n): of any of their words, or of a failed tier port. -/
def State.poisoned (s : State) (k n : Nat) : Bool :=
  (List.range ((k + n - 1) / 8 - k / 8 + 1)).any fun i => s.isPoison (k / 8 + i) || s.portFailed ((k / 8 + i) * 8)

/-- The words of [k, k + n) checked as a read checks them. -/
def State.checkWords (s : State) (k n : Nat) : State :=
  (List.range ((k + n - 1) / 8 - k / 8 + 1)).foldl (fun s i => s.checkWord (k / 8 + i)) s

/-- A read of `n` bytes: the value, its poison, and what the check leaves. (DEDUCED, assumption 3) -/
def State.load (s : State) (k n : Nat) : (Nat × Bool) × State :=
  let s := s.checkWords k n
  ((Memory.read s.mem k n, s.poisoned k n), s)

/-- The HBM frame of a key is written since the last checkpoint (R25). -/
def State.touchFrame (s : State) (k : Nat) : State :=
  if isHbm k && !s.ckpt.written.contains (k / 65536) then
    { s with ckpt := { s.ckpt with written := k / 65536 :: s.ckpt.written } }
  else s

/-- A write of `n` bytes within one word, with the poison it carries: a whole word takes the poison given; a narrower one
keeps the word's, or gains it (R233, R235). The word is left full (R234). A whole word written over one that holds an error which no read has
found ends that error without a count. (DESIGN CHOICE, assumption 79) -/
def State.storeWord (s : State) (k n v : Nat) (p : Bool) : State :=
  let wk := k / 8
  let s := if n < 8 then s.checkWord wk else { s with hard := Tbl.set false s.hard wk false, soft := Tbl.set false s.soft wk false }
  let s := { s with mem := Memory.write s.mem k n v }
  let s := if n < 8 then (if p then s.setPoison wk true else s) else s.setPoison wk p
  (s.setEmpty wk false).touchFrame k

/-- A write of `n` bytes, word by word; `n` is at most `fuel`. -/
def State.storeGo (s : State) (k n v : Nat) (p : Bool) : Nat → State
  | 0 => s
  | fuel + 1 =>
    if n = 0 then s
    else
      let m := min n (8 - k % 8)
      (s.storeWord k m (v % 256 ^ m) p).storeGo (k + m) (n - m) (v / 256 ^ m) p fuel

/-- A write of `n` bytes from key `k`. (DEDUCED, assumption 3) -/
def State.store (s : State) (k n v : Nat) (p : Bool) : State := s.storeGo k n v p n

/-- A word made poisoned and full, and counted where it was not poisoned before (R141, R35). -/
def State.poisonWord (s : State) (wk : Nat) : State :=
  let n := if s.isPoison wk then 0 else 1
  let s := (s.setPoison wk true).setEmpty wk false
  { s with hard := Tbl.set false s.hard wk false, soft := Tbl.set false s.soft wk false,
           counters := { s.counters with poisoned := s.counters.poisoned + n } }.touchFrame (wk * 8)

/-- One aligned 8-byte word written, not poisoned and full. -/
def State.store8 (s : State) (k : Nat) (v : Word) : State := s.storeWord k 8 v.toNat false

/-- Words of a range cleared to zero, full and not poisoned (R158): keys in [lo, hi). -/
def State.clearRange (s : State) (lo hi : Nat) : State :=
  { s with
    mem := s.mem.filter fun c => !(lo ≤ c.1 && c.1 < hi)
    poison := s.poison.filter fun c => !(lo ≤ c.1 * 8 && c.1 * 8 < hi)
    empty := s.empty.filter fun c => !(lo ≤ c.1 * 8 && c.1 * 8 < hi)
    soft := s.soft.filter fun c => !(lo ≤ c.1 * 8 && c.1 * 8 < hi)
    hard := s.hard.filter fun c => !(lo ≤ c.1 * 8 && c.1 * 8 < hi) }

end Sys2Proof.Machine
end

