-- ==== Sys2Proof/Machine/Memory.lean ====
section
/-! DEFINITION. Windows (R98 to R100), translation (R101 to R116), homes and migration (R121 to R124) and the hold behind
watermarks (R136, R137), for the cores and for the engines. -/

namespace Sys2Proof.Machine

-- Trap codes (R294)
def tcIllop : Nat := 1
def tcStale : Nat := 2
def tcPoison : Nat := 3
def tcMisalign : Nat := 4
def tcAperture : Nat := 5
def tcBarovr : Nat := 6
def tcPriv : Nat := 7
def tcStack : Nat := 8
def tcEngerr : Nat := 9
def tcBkpt : Nat := 10

/-- The kinds of access (R80, R109). -/
inductive AccKind where
  | read
  | write
  | atomic
  | fetch
  deriving DecidableEq, Repr

/-- The access code of an XFAULT event (R80); a fetch reads. -/
def AccKind.code : AccKind → Nat
  | .read => 0
  | .write => 1
  | .atomic => 2
  | .fetch => 0

/-- Where an address lies (R98): a tile's scratchpad, the global window, a firmware core's control window (R78), a streamer's
on-ramp behind a launch port (R216). -/
inductive Win where
  | spad (t off : Nat) (remote : Bool)
  | glob (va : Nat)
  | ctl (off : Nat)
  | onr (ch off : Nat)
  deriving DecidableEq, Repr

/-- The scratchpad offset of the stack slice of context `x` (R231). -/
def stackSlice (part stackLg x : Nat) (isA : Bool) : Nat :=
  partSpb part * 0x8000 - ((if isA then 0 else partNslice part) + x + 1) * 2 ^ stackLg

/-- A tile core's window for an access of `n` bytes: the trap code where none matches (R98, R99). What a template that no loader has checked puts past
the pool is no part of a stack. (DESIGN CHOICE, assumption 101) -/
def State.tileWindow (s : State) (t x : Nat) (isA : Bool) (l : Launch) (a : Word) (n : Nat) : Except Nat Win :=
  let v := a.toNat
  let e := v + n - 1
  if v >>> 20 = 0xFF000000000 then
    if e >>> 20 = 0xFF000000000 && v % 2 ^ 20 + n ≤ s.spadBytes t then .ok (.spad t (v % 2 ^ 20) false) else .error tcAperture
  else if v >>> 55 = 0x1FF then
    if e ≥ 2 ^ 64 then .error tcAperture
    else if v % 2 ^ 55 + n ≤ 2 ^ tmplStackLg l.tmpl && stackSlice (tmplPart l.tmpl) (tmplStackLg l.tmpl) x isA + v % 2 ^ 55 + n ≤ 2 ^ 20 then
      .ok (.spad t (stackSlice (tmplPart l.tmpl) (tmplStackLg l.tmpl) x isA + v % 2 ^ 55) false)
    else .error tcStack
  else if v >>> 32 = 0xFE000000 then
    if e >>> 20 = v >>> 20 && l.covers ((v >>> 20) % 4096) then .ok (.spad ((v >>> 20) % 4096) (v % 2 ^ 20) true)
    else .error tcAperture
  else if v >>> 56 = 0 && e >>> 56 = 0 then .ok (.glob v)
  else .error tcAperture

/-- The executing core's window for an access of `n` bytes (R98 to R100, R78, R216). -/
def State.window (s : State) (a : Word) (n : Nat) : Except Nat Win :=
  let v := a.toNat
  let e := v + n - 1
  match s.cur with
  | .a t => s.tileWindow t s.curX true s.myLaunch a n
  | .c t => s.tileWindow t s.curX false s.myLaunch a n
  | .cc _ =>
    if v >>> 32 = 0xFE000000 then
      let t := (v >>> 20) % 4096
      let mine := match s.tileLaunch t with
        | some u => (s.launch u).pasid = s.myPasid
        | none => false
      if e >>> 20 = v >>> 20 && mine then .ok (.spad t (v % 2 ^ 20) true) else .error tcAperture
    else if v >>> 56 = 0 && e >>> 56 = 0 then
      if 0x00FFFFFE00000000 ≤ v && v < 0x00FFFFFE00020000 then
        .ok (.onr ((v - 0x00FFFFFE00000000) / 0x1000) (v % 0x1000))
      else .ok (.glob v)
    else .error tcAperture
  | .fc _ =>
    if v >>> 32 = 0xFE000000 then
      if e >>> 20 = v >>> 20 then .ok (.spad ((v >>> 20) % 4096) (v % 2 ^ 20) true) else .error tcAperture
    else if v >>> 56 = 0 && e >>> 56 = 0 then
      if 0x00FFFFFFFF000000 ≤ v then .ok (.ctl (v - 0x00FFFFFFFF000000)) else .ok (.glob v)
    else .error tcAperture

-- Translation

/-- The home die of an agent for its walks (R101): tiles and control cores on their compute die, streamers and the firmware
complex on their I/O die. -/
def agentDie (agent : Nat) : Nat :=
  if agent < 0x1000 then tileDie agent
  else if agent < 0x1010 then 8
  else if agent < 0x1020 then 9
  else if 0x1040 ≤ agent && agent < 0x1080 then (agent - 0x1040) / 8
  else 8

/-- Leaf fields (R106). -/
def leafPfmt (e : Word) : Nat := bits e 63 60
def leafBgeo (e : Word) : Nat := bits e 59 58
def leafHome (e : Word) : Nat := bits e 57 55
def leafMig (e : Word) : Bool := bit e 54
def leafLoc (e : Word) : Nat := bits e 53 52
def leafFrame (e : Word) : Nat := bits e 51 16 <<< 16

/-- Whether a frame of a size lies in its region with the right home (R108). -/
def frameOk (e : Word) (huge : Bool) : Bool :=
  let f := leafFrame e
  let n := if huge then 2 ^ 25 else 2 ^ 16
  match leafLoc e with
  | 0 => isHbm f && isHbm (f + n - 1) && f / 2 ^ 37 = (f + n - 1) / 2 ^ 37 && leafHome e = f / 2 ^ 38
  | 1 => isTier f && isTier (f + n - 1)
  | 2 => true
  | _ => false

/-- Whether the frame of a leaf may be used now: in reduced service the tier is the only memory of the module and every page has its home on CD0
(R30). (DEDUCED, assumption 90) -/
def State.frameUsable (s : State) (e : Word) (huge : Bool) : Bool :=
  frameOk e huge && (s.service ≠ .reduced || (leafLoc e ≠ 0 && leafHome e = 0))

/-- Whether a device address holds memory that can be read now (R108, R30). -/
def State.hasMemory (s : State) (dpa : Nat) : Bool := isTier dpa || (isHbm dpa && s.service ≠ .reduced)

/-- The permission bits an access needs (R106, R109). -/
def leafAllows (e : Word) (k : AccKind) : Bool :=
  match k with
  | .read => bit e 1
  | .write => bit e 2
  | .atomic => bit e 1 && bit e 2
  | .fetch => bit e 3

/-- The index fields of the levels L3, L2, L1, L0 (R104): lowest bit, number of bits, level. -/
def walkLevels : List (Nat × Nat × Nat) := [(47, 9, 3), (38, 9, 2), (25, 13, 1), (16, 9, 0)]

/-- The bytes of a node of a level, with its companion (R104). -/
def nodeBytes (level : Nat) : Nat :=
  match level with
  | 1 => 131072
  | 0 => 8192
  | _ => 4096

/-- The span of a cached non-leaf entry of a level (R104). -/
def nodeSpan (level : Nat) : Nat :=
  match level with
  | 3 => 2 ^ 47
  | 2 => 2 ^ 38
  | 1 => 2 ^ 25
  | _ => 2 ^ 16

/-- A use of a cached entry noted: a shoot-down of any of them discards it (R118). -/
def NodeEntry.usedBy (e : NodeEntry) (pasid va : Nat) : NodeEntry :=
  let u := (pasid, va / nodeSpan e.level * nodeSpan e.level)
  if e.uses.contains u then e else { e with uses := u :: e.uses }

/-- A node entry read by DPA (R109, R111): from the die's walker cache, or from memory; poison, an unmapped region or a clear
`V` is a fault. -/
def State.readNode (s : State) (die pasid va lvl dpa : Nat) : Option Word × State :=
  match s.nodes.find? fun e => e.die = die && e.dpa = dpa with
  | some e => (some e.entry, { s with nodes := s.nodes.map fun o => if o.die = die && o.dpa = dpa then o.usedBy pasid va else o })
  | none =>
    if !s.hasMemory dpa then (none, s)
    else
      let ((v, p), s) := s.load dpa 8
      let e := w64 v
      if p || !bit e 0 then (none, s)
      else if bit e 11 then (some e, s)
      else (some e, { s with nodes := ({ die := die, dpa := dpa, level := lvl, entry := e } : NodeEntry).usedBy pasid va :: s.nodes })

/-- The walk from a node down (R109): the leaf, its DPA, and whether it maps a huge page. -/
def State.walkGo (s : State) (die pasid va node : Nat) : List (Nat × Nat × Nat) → Option (Word × Nat × Bool) × State
  | [] => (none, s)
  | (lo, n, lvl) :: rest =>
    let dpa := node + 8 * ((va >>> lo) % 2 ^ n)
    match s.readNode die pasid va lvl dpa with
    | (none, s) => (none, s)
    | (some e, s) =>
      if bit e 11 then
        if lvl ≥ 2 then (none, s)
        else if lvl = 1 && bits e 24 16 ≠ 0 then (none, s)
        else (some (e, dpa, lvl = 1), s)
      else if lvl = 0 then (none, s)
      else if lvl = 2 && bits e 15 12 ≠ 0 then (none, s)
      else s.walkGo die pasid va (bits e 51 12 <<< 12) rest

/-- The leaf at which the walk of a page ends, whatever it allows. A poisoned entry of the PASID table counts as one that is not valid, as a poisoned
node entry does (R109, R111). (DESIGN CHOICE, assumption 100) -/
def State.leafWalk (s : State) (die pasid va : Nat) : Option (Word × Nat × Bool) × State :=
  let base := s.ptabBase.toNat + 8 * pasid
  let ((v, p), s) := if s.hasMemory base then s.load base 8 else ((0, true), s)
  let e := w64 v
  if p || !bit e 0 then (none, s) else s.walkGo die pasid va (bits e 51 12 <<< 12) walkLevels

/-- The walk of R109 under a PASID: a leaf whose fields are in order and which allows the access. (DESIGN CHOICE, assumption 100) -/
def State.walk (s : State) (agent pasid va : Nat) (k : AccKind) : Option (Word × Nat × Bool) × State :=
  match s.leafWalk (agentDie agent) pasid va with
  | (some (leaf, dpa, huge), s) =>
    if leafLoc leaf = 3 || leafBgeo leaf = 3 || !s.frameUsable leaf huge || !leafAllows leaf k then (none, s)
    else (some (leaf, dpa, huge), s)
  | (none, s) => (none, s)

/-- Whether the entry that the tables hold for an address is that of a huge page, valid or not (R104). -/
def State.hugeGo (s : State) (va node : Nat) : List (Nat × Nat × Nat) → Bool
  | [] => false
  | (lo, n, lvl) :: rest =>
    let k := node / 8 + (va >>> lo) % 2 ^ n
    let e := s.wordAt k
    if s.isPoison k then false
    else if bit e 11 then lvl = 1
    else bit e 0 && lvl ≠ 0 && s.hugeGo va (bits e 51 12 <<< 12) rest

/-- Whether an address of a PASID lies in a huge page (R104). -/
def State.hugeAt (s : State) (pasid va : Nat) : Bool :=
  let k := s.ptabBase.toNat / 8 + pasid
  !s.isPoison k && bit (s.wordAt k) 0 && s.hugeGo va (bits (s.wordAt k) 51 12 <<< 12) walkLevels

/-- What a translation attempt gives: the leaf with the host page, a fault, or a wait for the host's answer (R116). -/
inductive Trans where
  | ok (e : Tlb)
  | fault
  | wait
  deriving DecidableEq, Repr

/-- The cached translation that serves an access; one made with `D` = 0 does not serve a write (R110). (DEDUCED, assumption 66) -/
def State.tlbFind (s : State) (agent pasid va : Nat) (k : AccKind) : Option Tlb :=
  s.tlb.find? fun e => e.agent = agent && e.pasid = pasid && va / (if e.huge then 2 ^ 25 else 2 ^ 16) = e.va / (if e.huge then 2 ^ 25 else 2 ^ 16)
    && leafAllows e.leaf k && (bit e.leaf 10 || !(k = .write || k = .atomic))

/-- The host answer an agent has for a page (R116): none asked, asked, no translation, or the host page. -/
def State.atsFind (s : State) (agent pasid page : Nat) : Option (Nat × AtsReq) :=
  s.ats.find? fun e => e.2.agent = agent && e.2.pasid = pasid && e.2.va = page

/-- The host's answer for a page of host memory (R116), asked for where it is not yet: none while it is out. -/
def State.atsAsk (s : State) (agent pasid page : Nat) : Option (Option Nat) × State :=
  match s.atsFind agent pasid page with
  | none =>
    let (n, s) := s.newId
    (none, { s with ats := Tbl.put s.ats n { pasid := pasid, va := page, agent := agent } })
  | some (_, r) => (r.answered, s)

/-- The page that a leaf maps. -/
def pageBase (va : Nat) (huge : Bool) : Nat := va / (if huge then 2 ^ 25 else 2 ^ 16) * (if huge then 2 ^ 25 else 2 ^ 16)

/-- Translates for an agent: by its cache, else by a walk that sets `A` and `D` in the leaf (R109, R110) and, for host memory,
by an ATS request (R116), whose answer that there is no translation stands until the ticket it opens. -/
def State.translate (s : State) (agent pasid va : Nat) (k : AccKind) : Trans × State :=
  match s.tlbFind agent pasid va k with
  | some e => (.ok e, s)
  | none =>
    match s.walk agent pasid va k with
    | (none, s) => (.fault, s)
    | (some (leaf, dpa, huge), s) =>
      let wr := k = .write || k = .atomic
      let leaf := putBit (if wr then putBit leaf 10 true else leaf) 9 true
      let page := pageBase va huge
      let keep (s : State) (h : Nat) : Trans × State :=
        let s := s.storeWord dpa 8 (s.wordAt (dpa / 8) ||| (if wr then 0x600 else 0x200)).toNat false
        let e : Tlb := { agent := agent, pasid := pasid, va := page, huge := huge, leaf := leaf, leafDpa := dpa, host := h }
        (.ok e, { s with tlb := e :: s.tlb.filter fun o => !(o.agent = agent && o.pasid = pasid && o.va = page) })
      if leafLoc leaf = 2 then
        match s.atsAsk agent pasid page with
        | (none, s) => (.wait, s)
        | (some none, s) => (.fault, s)
        | (some (some h), s) => keep { s with ats := s.ats.filter fun e => !(e.2.agent = agent && e.2.pasid = pasid && e.2.va = page) } h
      else keep s 0

/-- The memory key of an address under a cached translation. -/
def Tlb.key (e : Tlb) (va : Nat) : Nat :=
  let off := va % (if e.huge then 2 ^ 25 else 2 ^ 16)
  if leafLoc e.leaf = 2 then hostKey (e.host + off) else leafFrame e.leaf + off

/-- The answers of ATS to an agent that a page has no translation (R116). -/
def State.atsNone (s : State) (agent pasid va : Nat) : List Nat :=
  (s.ats.filter fun e => e.2.agent = agent && e.2.pasid = pasid && e.2.answered = some none &&
    (e.2.va = va / 2 ^ 16 * 2 ^ 16 || e.2.va = va / 2 ^ 25 * 2 ^ 25)).map Prod.fst

/-- Those answers forgotten: the next access asks again. -/
def State.dropAts (s : State) (agent pasid va : Nat) : State :=
  { s with ats := (s.atsNone agent pasid va).foldl (fun m n => Tbl.del m n) s.ats }

/-- The open ticket of the page that holds an address of a PASID (R80): one for its 64 KiB, or for another part of its huge page (R104). -/
def State.ticketAt (s : State) (pasid va : Nat) : Option (Nat × Ticket) :=
  let huge := s.hugeAt pasid va
  s.tickets.find? fun e => e.2.pasid = pasid &&
    (e.2.page = va / 65536 || e.2.also.contains (va / 65536) || (huge && e.2.page / 512 = va / 2 ^ 25))

/-- An agent joins an open ticket for an address. -/
def Ticket.join (t : Ticket) (agent page : Nat) : Ticket :=
  { t with
    joined := if t.joined.contains agent then t.joined else t.joined ++ [agent]
    also := if t.page = page || t.also.contains page then t.also else t.also ++ [page] }

/-- Joins the open ticket of a page and PASID, or opens one and raises XFAULT (R80): the ticket's number. (DEDUCED, assumption 40) -/
def State.openTicket (s : State) (agent pasid va : Nat) (k : AccKind) (core : Bool) : Nat × State :=
  let s := s.dropAts agent pasid va
  match s.ticketAt pasid va with
  | some (n, t) => (n, { s with tickets := Tbl.put s.tickets n (t.join agent (va / 65536)) })
  | none =>
    let (n, s) := s.newId
    let t : Ticket := { page := va / 65536, pasid := pasid, agent := agent, access := k.code, core := core, fetch := k = .fetch, joined := [agent] }
    let s := { s with tickets := Tbl.put s.tickets n t }
    (n, s.raiseEvent 2 none (w64 va) (w64 (pasid <<< 44 ||| n % 2 ^ 32))
      (w64 (agent ||| k.code <<< 16 ||| (if core then 1 <<< 18 else 0))))

-- Copies: geometry and the hold

/-- Template fields (R132). -/
def cpSrc (v : BitVec 512) : Nat := fld v 63 0
def cpDst (v : BitVec 512) : Nat := fld v 127 64
def cpBar (v : BitVec 512) : Nat := fld v 191 128
def cpIdx (v : BitVec 512) : Nat := fld v 255 192
def cpN2 (v : BitVec 512) : Nat := fld v 271 256
def cpN1 (v : BitVec 512) : Nat := fld v 287 272
def cpN0 (v : BitVec 512) : Nat := fld v 319 288
def cpS1 (v : BitVec 512) : Nat := fld v 367 320
def cpN3 (v : BitVec 512) : Nat := fld v 383 368
def cpEsz (v : BitVec 512) : Nat := 2 ^ fld v 385 384
def cpGather (v : BitVec 512) : Bool := fld v 386 386 = 1
def cpRing (v : BitVec 512) : Bool := fld v 387 387 = 1
def cpS2 (v : BitVec 512) : Nat := fld v 447 400
def cpS3 (v : BitVec 512) : Nat := fld v 511 464

/-- The elements of a copy (R127, R132). -/
def Copy.total (c : Copy) : Nat :=
  c.big.getD (cpN0 c.tmpl * cpN1 c.tmpl * cpN2 c.tmpl * cpN3 c.tmpl)

def Copy.esz (c : Copy) : Nat := cpEsz c.tmpl

/-- Whether a copy's guards or slot stand (R135, R136). -/
def Copy.active (c : Copy) : Bool := !c.away && (c.st = .running || c.st = .frozen || c.st = .aborting || c.st = .accepting)

/-- The tile that an engine takes as its own (R133). -/
def CopyEngine.own : CopyEngine → Option Nat
  | .tile t => some t
  | .stream _ => none

/-- The agent id of a copy engine (R101). -/
def CopyEngine.agent : CopyEngine → Nat
  | .tile t => t
  | .stream n => 0x1000 + n

/-- An address as a copy engine sees it (R133): a scratchpad, the global window, or none. -/
def CopyEngine.window (e : CopyEngine) (a n : Nat) : Option Win :=
  let z := a + n - 1
  if a >>> 20 = 0xFF000000000 && z >>> 20 = 0xFF000000000 then (e.own).map fun t => .spad t (a % 2 ^ 20) false
  else if a >>> 32 = 0xFE000000 && z >>> 20 = a >>> 20 then some (.spad ((a >>> 20) % 4096) (a % 2 ^ 20) true)
  else if a >>> 56 = 0 && z >>> 56 = 0 then some (.glob a)
  else none

/-- Where a copy lands: the ring slot it claimed, none before the claim, or its destination (R133, R150); a remote put lands elsewhere. -/
def Copy.dest (c : Copy) : Option Win :=
  match c.ringSlot, c.slot with
  | some (off, _), some (t, _) => some (.spad t off true)
  | _, _ => if cpRing c.tmpl then none else c.engine.window (cpDst c.tmpl) 1

/-- The watermark that covers an access: the slot's, or the last one reported to the guards (R136). -/
def Copy.mark (c : Copy) : Nat := if c.slot.isSome then c.w else c.reported

/-- Whether a copy holds the access to [a, a + n) of a space whose copy begins at `d` (R137). -/
def Copy.holdsAt (c : Copy) (d a n : Nat) : Bool :=
  let hi := min (a + n) (d + c.total * c.esz)
  c.active && max a d < hi && (hi - 1 - d) / c.esz ≥ c.mark

/-- held() of R137 for a scratchpad access, apart from the copy that makes it. -/
def State.heldSpad (s : State) (t off n : Nat) (self : Option Nat) : Bool :=
  s.copies.any fun e => self ≠ some e.1 && (match e.2.slot, e.2.dest with
    | some (t', _), some (.spad _ d _) => t' = t && e.2.holdsAt d off n
    | _, _ => false)

/-- held() of R137 for a global access under a PASID. -/
def State.heldGlob (s : State) (pasid va n : Nat) (self : Option Nat) : Bool :=
  s.copies.any fun e => self ≠ some e.1 && e.2.guarded && e.2.pasid = pasid && (match e.2.dest with
    | some (.glob d) => e.2.holdsAt d va n
    | _ => false)

-- Migration

/-- Bytes of a migration's page. -/
def Migration.size (m : Migration) : Nat := if m.huge then 2 ^ 25 else 2 ^ 16

/-- The migration whose old or new frame holds a key. -/
def State.migAt (s : State) (key : Nat) (old : Bool) : Option (Nat × Migration) :=
  s.migrations.find? fun e =>
    let f := if old then e.2.oldFrame else e.2.newFrame
    f ≤ key && key < f + e.2.size && (if old then e.2.stage ≠ 4 else e.2.stage = 2 || e.2.stage = 4)

/-- The name of an access by an agent that is no core and no copy: its agent id, and which of its works it belongs to. -/
def workOf (agent sub : Nat) : Nat := agent + 65536 * sub

/-- The works of a tile's engines: a tile load or store, a matrix command, the fetch of a bound read stream, the pushed elements of a stream. -/
def loadWork (t id : Nat) : Nat := workOf t (4 * id)
def matWork (t id : Nat) : Nat := workOf t (4 * id + 1)
def fetchWork (t id : Nat) : Nat := workOf t (4 * id + 2)
def pushWork (t id : Nat) : Nat := workOf t (4 * id + 3)

/-- Whether work `n` of tile `a`'s engines still stands, so that it will try its access again. -/
def Tile.workLive (tl : Tile) (n : Nat) : Bool :=
  let id := n / 4
  match n % 4 with
  | 0 => tl.loadQ.any fun e => e.id = id
  | 1 => (match tl.matRun with
    | some e => e.id = id
    | none => false)
  | 2 => tl.strm.any fun e => e.2.bound && e.2.id = id
  | _ => tl.strm.any fun e => e.2.id = id && e.2.pushed ≠ []

/-- Whether the work of such an agent still stands, so that it will try its access again: of a tile's engines; of a control core's release queue (0)
or of a launch that it issued (1 + its number); of a queue (2 × its id), whose fetch or write-back waits or whose window has entries; of a launch
(2 × its number + 1); of a management command. -/
def State.workLive (s : State) (w : Nat) : Bool :=
  let a := w % 65536
  let n := w / 65536
  if a < 0x1000 then (s.tile a).workLive n
  else if 0x1040 ≤ a && a < 0x1080 then
    if n = 0 then !(s.cc (a - 0x1040)).orphans.isEmpty else (Tbl.find s.launches (n - 1)).isSome
  else if a = 0x1100 then
    if n % 2 = 0 then
      let u : UQueue := Tbl.get {} s.queues (n / 2)
      (u.state = 1 && (u.fetching || u.writing)) || u.win ≠ []
    else (Tbl.find s.launches (n / 2)).isSome
  else (Tbl.get {} s.cmds n).st = 1 && !(Tbl.get {} s.cmds n).served

/-- Whether an access that a home holds still stands: its copy goes on, its context waits, or its agent's work stands. -/
def State.accessLive (s : State) (w : Nat × Nat) : Bool :=
  match w.1 with
  | 0 => (match Tbl.find s.copies w.2 with
    | some c => c.st ≠ .ended && c.st ≠ .aborted && !c.drained && !c.away
    | none => false)
  | 1 => (s.ctx w.2).st = .blocked && (match (s.ctx w.2).await with
    | .hold => true
    | .ticket _ => true
    | .window => true
    | _ => false)
  | _ => s.workLive w.2

/-- The agent that makes an access (R101). -/
def State.accessAgent (s : State) (w : Nat × Nat) : Nat :=
  match w.1 with
  | 0 => (s.copy w.2).engine.agent
  | 1 => (coreOfIx (w.2 / 32)).agent
  | _ => w.2 % 65536

/-- Whether `who` is the first of the accesses of a list that still stand, or none of them is left. -/
def State.firstOf (s : State) (l : List (Nat × Nat)) (who : Nat × Nat) : Bool :=
  match (l.filter fun e => e = who || s.accessLive e).head? with
  | none => true
  | some e => e = who

/-- Whether an access may be applied at the home it has reached: the queued accesses that come before it have all been applied (R123), and so have
the redirected ones of its own agent (R124). -/
def State.migTurn (s : State) (m : Migration) (who : Nat × Nat) : Bool :=
  s.firstOf m.queued who && s.firstOf (m.redirected.filter fun e => s.accessAgent e = s.accessAgent who) who

/-- An access that is applied, or queued elsewhere, no longer waits at a migration. -/
def State.migLeave (s : State) (n : Nat) (m : Migration) (who : Nat × Nat) : State :=
  if m.queued.contains who || m.redirected.contains who then
    { s with migrations := Tbl.put s.migrations n { m with queued := m.queued.erase who, redirected := m.redirected.erase who } }
  else s

/-- What the home does with an access that arrives for a key under a translation (R123, R124): it goes on, or it waits in the
home's queue, for queue space, for the forwarded queue, or for its redirect notice. A page that moves again while accesses of an earlier move are
still to come takes them in their order. `who` names the access: (1, context), (0, copy) or (2, work of another agent). (DEDUCED, assumption 69) -/
def State.homeAccepts (s : State) (key : Nat) (who : Nat × Nat) : Bool × State :=
  let late := s.migAt key false
  let turn := match late with
    | some (_, m) => s.migTurn m who
    | none => true
  let s1 := match late with
    | some (n, m) => s.migLeave n m who
    | none => s
  let put (n : Nat) (m : Migration) : State := { s1 with migrations := Tbl.put s1.migrations n m }
  let own (l : List (Nat × Nat)) : Bool := l.any fun e => s.accessAgent e = s.accessAgent who && s.accessLive e
  match s.migAt key true with
  | some (n, m) =>
    if m.stage = 3 then (if turn && s.migTurn m who then (true, s1.migLeave n m who) else (false, s))
    else if !turn || m.queued.contains who || m.refused.contains who && m.stage = 1 || m.redirected.contains who then (false, s)
    else if m.stage = 1 then
      if m.queued.length < 256 && !own m.refused then (false, put n { m with queued := m.queued ++ [who] })
      else (false, put n { m with refused := m.refused ++ [who] })
    else (false, put n { m with redirected := m.redirected ++ [who] })
  | none => (turn, if turn then s1 else s)

-- Streams: geometry

/-- The length L of a stream descriptor (R360). -/
def strmLen (d : BitVec 512) : Nat := fld d 287 256 * fld d 127 112 * fld d 191 176 * fld d 255 240

/-- A signed 48-bit stride as an address. -/
def stride (v : Nat) : Word := (BitVec.ofNat 48 v).signExtend 64

/-- The address of ordinal `p` of a geometry of four counts and strides (R133). -/
def geoAddr (base : Word) (esz n0 n1 n2 : Nat) (s1 s2 s3 : Word) (p : Nat) : Word :=
  let i0 := p % n0
  let i1 := p / n0 % n1
  let i2 := p / (n0 * n1) % n2
  let i3 := p / (n0 * n1 * n2)
  base + w64 (i0 * esz) + w64 i1 * s1 + w64 i2 * s2 + w64 i3 * s3

/-- The address of element `p` of a stream (R360). -/
def Stream.addr (v : Stream) (p : Nat) : Word :=
  geoAddr (w64 (fld v.desc 63 0)) v.esz (fld v.desc 287 256) (fld v.desc 127 112) (fld v.desc 191 176)
    (stride (fld v.desc 111 64)) (stride (fld v.desc 175 128)) (stride (fld v.desc 239 192)) p

/-- Whether two ranges of one space overlap. -/
def Win.meets (v w : Win) (n m : Nat) : Bool :=
  match v, w with
  | .spad t a _, .spad t' b _ => t = t' && a < b + m && b < a + n
  | .glob a, .glob b => a < b + m && b < a + n
  | _, _ => false

/-- The ordinals that a command waiting in the vector engine's queue will push to a bound write stream (R239): its register and position. -/
def VecCmd.pushes (e : VecCmd) : Option (Nat × VecOps) :=
  match e.stage with
  | .held o => (match o.dst with
    | .f n => if 24 ≤ n && n < 32 then some (n, o) else none
    | .k _ => none)
  | _ => none

/-- Whether a store that strand `key` of tile `t`'s C-core makes through a write stream, and that is not yet performed, lies in [a, a + n): an
element pushed, or one of a command that waits in the engine's queue (R239, R362, R224). -/
def State.pushesAt (s : State) (t key : Nat) (w : Win) (n : Nat) : Bool :=
  let hits (x u : Nat) (v : Stream) (p : Nat) : Bool :=
    match s.tileWindow t x false (s.launch u) (v.addr p) v.esz with
    | .ok y => y.meets w v.esz n
    | .error _ => false
  ((s.tile t).strm.any fun e => e.2.pushed.any fun q => q.ctx = key && hits q.x q.launch e.2 q.p) ||
    (s.tile t).vecQ.any fun e => e.ctx = key && (match e.pushes with
      | some (m, o) =>
        let v : Stream := Tbl.get {} (s.tile t).strm m
        v.bound && (List.range o.vl).any fun l => o.pos + l < strmLen v.desc && hits o.x e.launch v (o.pos + l)
      | none => false)

/-- Whether such a store of the executing strand lies in a range: the strand's next access there comes after it (R264, R362). -/
def State.pushedAt (s : State) (w : Win) (n : Nat) : Bool := s.cur.isC && s.pushesAt s.myTile s.myKey w n

/-- Whether an element that strand `key` has sent with `sendk`, and that is not yet added, goes to a bin in [off, off + n) of tile `t`: it counts as
a store of the strand there (R200, R264). -/
def State.sentAt (s : State) (key t off n : Nat) : Bool :=
  s.elems.any fun e =>
    let b := e.2.base + 8 * (e.2.key.toNat % e.2.nb)
    e.2.ctx = some key && e.2.toTile = t && b < off + n && off < b + 8

/-- Whether such an element of the executing strand goes to a range. -/
def State.elemAt (s : State) (t off n : Nat) : Bool := s.cur.isTile && s.sentAt s.myKey t off n

-- The monad of an instruction's effect

/-- How an instruction ends before it completes: a trap (with the state to keep, if its entry leaves an effect), a trap that
resumes at NPC (R314, R316), a wait, a hold of the core (R224), a bytecode detour with g1, site record address and key (R217), or an end
of its own. -/
inductive Stop where
  | trap (code : Nat) (arg : Word) (keep : Option State)
  | trapNext (arg : Word)
  | wait (a : Await) (s : State)
  | hold (s : State)
  | detour (reason : Nat) (g1 site key : Word) (s : State)
  | done (s : State)

/-- The effect of an instruction on the state. -/
abbrev M := StateT State (Except Stop)

/-- A trap that leaves nothing. -/
def trapM {α : Type} (code : Nat) (arg : Word) : M α := fun _ => .error (.trap code arg none)

/-- A trap that keeps what has been done. (DEDUCED, assumption 24) -/
def trapKeep {α : Type} (code : Nat) (arg : Word) : M α := fun s => .error (.trap code arg (some s))

/-- The instruction waits. -/
def waitM {α : Type} (a : Await) : M α := fun s => .error (.wait a s)

/-- The core is held (R224). -/
def holdM {α : Type} : M α := fun s => .error (.hold s)

/-- A bytecode detours (R217). -/
def detourM {α : Type} (reason : Nat) (g1 site key : Word) : M α := fun s => .error (.detour reason g1 site key s)

/-- The instruction ends with this state and nothing more. -/
def doneM {α : Type} : M α := fun s => .error (.done s)

/-- A trap unless a condition holds. -/
def need (c : Bool) (code : Nat) (arg : Word) : M Unit := if c then pure () else trapM code arg

/-- A state update. -/
def upd (f : State → State) : M Unit := fun s => .ok ((), f s)

/-- A state-changing read. -/
def run {α : Type} (f : State → α × State) : M α := fun s => .ok (f s)

/-- An address as the executing core reaches it, once translated (R98 to R112): the memory key and the page's format, a failed
access (a failed ticket, `PFMT` 15, a failed remote check, an access of a firmware core that does not translate), or a device
register. -/
inductive Place where
  | key (k : Nat) (pfmt : Option Nat)
  | bad
  | remoteBad (t off : Nat)
  | ctl (off : Nat)
  | onr (ch off : Nat)
  deriving DecidableEq, Repr

/-- Resolves an access of the executing core to [a, a + n): traps of R98 and R99, translation with its tickets, the hold of
R137 and the home's queue. The alignment is the caller's. -/
def place (a : Word) (n : Nat) (k : AccKind) : M Place := fun s =>
  match s.window a n with
  | .error c => .error (.trap c a none)
  | .ok (.ctl off) => .ok (.ctl off, s)
  | .ok (.onr ch off) => .ok (.onr ch off, s)
  | .ok (.spad t off remote) =>
    if remote && off + n > s.spadBytes t then .ok (.remoteBad t off, s)
    else if s.pushedAt (.spad t off remote) n then .error (.wait .stream s)
    else if s.elemAt t off n then .error (.wait .elements s)
    else if s.heldSpad t off n none then .error (.wait .hold s)
    else .ok (.key (poolKey t off) none, s)
  | .ok (.glob va) =>
    if s.me.failed.contains (va / 65536) then .ok (.bad, s)
    else if s.pushedAt (.glob va) n then .error (.wait .stream s)
    else
      match s.translate s.cur.agent s.myPasid va k with
      | (.fault, s) =>
        if s.cur.isFc then .ok (.bad, s.dropAts s.cur.agent s.myPasid va)
        else
          let (n, s) := s.openTicket s.cur.agent s.myPasid va k true
          .error (.wait (.ticket n) s)
      | (.wait, s) => .error (.wait .hold s)
      | (.ok e, s) =>
        if leafPfmt e.leaf = 15 then .ok (.bad, s)
        else if s.heldGlob s.myPasid va n none then .error (.wait .hold s)
        else
          match s.homeAccepts (e.key va) (1, s.myKey) with
          | (true, s) => .ok (.key (e.key va) (some (leafPfmt e.leaf)), s)
          | (false, s) => .error (.wait .hold s)

/-- The ERROR event of a failed remote check (R99, R81). -/
def State.remoteError (s : State) (t off agent : Nat) : State :=
  s.raiseError 2 (w64 (t ||| agent <<< 16)) (w64 off)

/-- A read by the executing core of `n` bytes as raw data: the value and its poison; a failed access reads poison. Device
registers trap with TC_APERTURE here: the entries that may reach them resolve them first. -/
def readM (a : Word) (n : Nat) : M (Nat × Bool) := do
  match ← place a n .read with
  | .key k _ => run fun s => s.load k n
  | .bad => pure (0, true)
  | .remoteBad t off =>
    upd fun s => s.remoteError t off s.cur.agent
    pure (0, true)
  | .ctl _ => trapM tcAperture a
  | .onr _ _ => trapM tcAperture a

/-- A scalar read that traps on poison with the address given as `ARG` (R112, R235). -/
def readT (a : Word) (n : Nat) : M Nat := do
  let (v, p) ← readM a n
  if p then trapKeep tcPoison a else pure v

/-- A write by the executing core of `n` bytes. A failed page writes nothing and traps (R112); a failed remote check discards
the store (R99). -/
def writeM (a : Word) (n v : Nat) : M Unit := do
  match ← place a n .write with
  | .key k _ => upd fun s => s.store k n v false
  | .bad => do
    let s ← get
    if s.cur.isFc then pure () else trapKeep tcPoison a
  | .remoteBad t off => upd fun s => s.remoteError t off s.cur.agent
  | .ctl _ => trapM tcAperture a
  | .onr _ _ => trapM tcAperture a

/-- `n` words of 8 bytes read from `a`, each trapping on poison, with `ARG` its own address where none is given. -/
def readWordsAt (arg : Option Word) (a : Word) : Nat → M (List Word)
  | 0 => pure []
  | n + 1 => do
    let (v, p) ← readM a 8
    if p then trapKeep tcPoison (arg.getD a)
    else do
      let r ← readWordsAt arg (a + 8) n
      pure (w64 v :: r)

/-- `n` words of 8 bytes read from `a`; `ARG` of TC_POISON is the address of the poisoned word (R312). -/
def readWords (a : Word) (n : Nat) : M (List Word) := readWordsAt none a n

/-- `n` words of 8 bytes read from `a`; `ARG` of TC_POISON is the first address. -/
def readBlock (a : Word) (n : Nat) : M (List Word) := readWordsAt (some a) a n

-- Accesses of an engine

/-- What an engine's access to a range meets. -/
inductive EngAcc where
  | ok (parts : List (Nat × Nat × Option Nat))
  | noWin
  | remoteBad (t off : Nat)
  | wait
  | fault (ticket : Nat)
  deriving DecidableEq, Repr

/-- A global range cut at the 64 KiB pages: address and bytes of each part. -/
def pageParts (va n : Nat) : Nat → List (Nat × Nat)
  | 0 => []
  | fuel + 1 =>
    if n = 0 then []
    else
      let m := min n (65536 - va % 65536)
      (va, m) :: pageParts (va + m) (n - m) fuel

/-- Translates the parts of a global range for an agent: their keys and page formats, or what stops it. -/
def State.engParts (s : State) (agent pasid : Nat) (k : AccKind) (who : Nat × Nat) (core : Bool) :
    List (Nat × Nat) → EngAcc × State
  | [] => (.ok [], s)
  | (va, n) :: r =>
    match s.translate agent pasid va k with
    | (.fault, s) =>
      let (t, s) := s.openTicket agent pasid va k core
      (.fault t, s)
    | (.wait, s) => (.wait, s)
    | (.ok e, s) =>
      match s.homeAccepts (e.key va) who with
      | (false, s) => (.wait, s)
      | (true, s) =>
        match s.engParts agent pasid k who core r with
        | (.ok ps, s) => (.ok ((e.key va, n, some (leafPfmt e.leaf)) :: ps), s)
        | q => q

/-- An access of tile `t`'s engines to [a, a + n) for a launch and a work, in the stack window of context `x` (R98, R99, R137); `core` says that its XFAULT
is a core's, as for an element of a stream register (R362, R112). -/
def State.engAccess (s : State) (t x : Nat) (isA : Bool) (u : Nat) (a : Word) (n : Nat) (k : AccKind) (work : Nat) (core : Bool := false) :
    EngAcc × State :=
  let l := s.launch u
  match s.tileWindow t x isA l a n with
  | .error _ => (.noWin, s)
  | .ok (.spad t' off remote) =>
    if remote && off + n > s.spadBytes t' then (.remoteBad t' off, s)
    else if s.heldSpad t' off n none then (.wait, s)
    else (.ok [(poolKey t' off, n, none)], s)
  | .ok (.glob va) =>
    if s.heldGlob l.pasid va n none then (.wait, s) else s.engParts t l.pasid k (2, work) core (pageParts va n (n + 1))
  | .ok _ => (.noWin, s)

/-- `n` bytes from a key, each with the poison of its word. -/
def State.bytesAt (s : State) (k n : Nat) : List (Nat × Bool) :=
  (List.range n).map fun i => ((s.byte (k + i)).toNat, s.isPoison ((k + i) / 8) || s.portFailed (k + i))

/-- The bytes of the parts of a range, after the check that a read makes. -/
def State.loadParts (s : State) (ps : List (Nat × Nat × Option Nat)) : List (Nat × Bool) × State :=
  let s := ps.foldl (fun s p => s.checkWords p.1 p.2.1) s
  (ps.flatMap fun p => s.bytesAt p.1 p.2.1, s)

/-- A little-endian number of bytes. -/
def leNat : List (Nat × Bool) → Nat
  | [] => 0
  | b :: r => b.1 + 256 * leNat r

/-- Bytes written from a key in ascending order, word by word; a poisoned byte poisons its word. -/
def State.storeBytes (s : State) (k : Nat) : List (Nat × Bool) → Nat → State
  | _, 0 => s
  | [], _ => s
  | b :: r, fuel + 1 =>
    let m := 8 - k % 8
    let h := (b :: r).take m
    (s.storeWord k h.length (leNat h) (h.any fun x => x.2)).storeBytes (k + h.length) ((b :: r).drop m) fuel

/-- Bytes written over the parts of a range. -/
def State.storeParts (s : State) : List (Nat × Nat × Option Nat) → List (Nat × Bool) → State
  | [], _ => s
  | p :: r, bs => (s.storeBytes p.1 (bs.take p.2.1) p.2.1).storeParts r (bs.drop p.2.1)

end Sys2Proof.Machine
end

