-- ==== Sys2Proof/Machine/Life.lean ====
section
/-! DEFINITION. The life of contexts and launches (09_execution_model.md): admission, placement, the run queue, starting a
launch on a tile, leaving a tile, discarding a launch. Shared by instructions, traps and the machine's own steps. -/

namespace Sys2Proof.Machine

/-- A context becomes Ready and enters its base level at the tail (R163); a page that has failed for the fetch it waited for stays noted (R112). -/
def State.enqueue (s : State) (c : Core) (x : Nat) : State :=
  let k := ctxKey c x
  let v := s.ctx k
  let s := s.setCtx k { v.settled with st := .ready, failed := v.failed }
  let cs := s.core c
  s.setCore c { cs with runq := cs.runq ++ [{ ctx := x, level := v.prio, since := s.now }] }

/-- A context leaves its core's run queue, its core, a debugger's halt of it (R316) and the list of waiters. -/
def State.unqueue (s : State) (c : Core) (x : Nat) : State :=
  let cs := s.core c
  let s := s.setCore c { cs with
    runq := cs.runq.filter fun e => e.ctx ≠ x
    run := if cs.run = some x then none else cs.run
    halted := if cs.halted = some x then none else cs.halted }
  { s with waiters := s.waiters.filter fun e => e.1 ≠ ctxKey c x }

/-- Notices that stand on a core's contexts (R166). -/
def State.reserved (s : State) (c : Core) : Nat := ((s.core c).ctxList.filter fun e => e.reservedUntil.isSome).length

/-- The stack slices per core of a launch: a context at or above it is never free (R231). -/
def State.slices (s : State) (u : Nat) : Nat := min 32 (partNslice (tmplPart (s.launch u).tmpl))

/-- The lowest free context of a core for a launch. (DESIGN CHOICE, assumption 108) -/
def State.freeCtx (s : State) (c : Core) (u : Nat) : Option Nat :=
  leastBelow (fun x => (s.ctx (ctxKey c x)).st = .free) (s.slices u)

/-- How many contexts are free. -/
def State.freeCount (s : State) (c : Core) (u : Nat) : Nat :=
  ((List.range (s.slices u)).filter fun x => (s.ctx (ctxKey c x)).st = .free).length

/-- Contexts of a core that a launch holds, those reserved for its messages included (R168). -/
def State.holdsCount (s : State) (c : Core) (u : Nat) : Nat :=
  ((List.range 32).filter fun x => (s.ctx (ctxKey c x)).st ≠ .free && (s.ctx (ctxKey c x)).launch = u).length +
    ((s.core c).ctxList.filter fun e => e.reservedUntil.isSome && (Tbl.get {} s.msgs e.msg).launch = u).length

/-- Whether a launch is a dependent whose producer runs on the tile (R168). -/
def State.isDependent (s : State) (u t : Nat) : Bool :=
  match (s.launch u).producer with
  | some p => p ≠ u && (s.tile t).runs.contains p
  | none => false

/-- Whether the launch may hold one more context of the core (R166). -/
def State.mayHold (s : State) (c : Core) (u : Nat) : Bool := !s.isDependent u c.tileNo || s.holdsCount c u < 30

/-- Listed senders of a core to whom a free context is due: no notice stands for them, none has lapsed, and their launch may hold one more (R166). -/
def State.contextsDue (s : State) (c : Core) : Nat :=
  ((s.core c).ctxList.filter fun e => e.reservedUntil.isNone && !e.lapsed && s.mayHold c (Tbl.get {} s.msgs e.msg).launch).length

/-- R166: a context is free and neither reserved nor due to a listed sender, and the launch may hold one more. `own` says that a notice
reserves a context for this arrival. -/
def State.admits (s : State) (c : Core) (u : Nat) (own : Bool) : Bool :=
  if own then s.freeCount c u + 1 > s.reserved c else s.freeCount c u > s.reserved c + s.contextsDue c && s.mayHold c u

/-- The top of a stack slice (R159). -/
def stackTop (lg : Nat) : Word := w64 (0xFF80000000000000 + 2 ^ lg)

/-- A context as it is admitted (R159, R164): only g14 live beside what the arrival brings; special registers at their
admission values (R238, R247, R252, R311). -/
def newCtx (u : Nat) (pc : Word) (lg : Nat) (sid : BitVec 32) (prio now : Nat) : Ctx :=
  { st := .ready, pc := pc, g := Tbl.set 0 [] 14 (stackTop lg), live := 0x4000, strandId := sid, prio := prio, launch := u,
    cycFrom := now }

/-- A context admitted on a core: Ready at the tail of its base level. -/
def State.admitCtx (s : State) (c : Core) (x : Nat) (v : Ctx) : State := (s.setCtx (ctxKey c x) v).enqueue c x

/-- Whether an unplaced strand may take a context (R159): it goes ahead of every listed arrival of its own launch; a dependent's leaves the
contexts due to its producer's listed arrivals (R166). -/
def State.admitsStrand (s : State) (c : Core) (u : Nat) : Bool :=
  let due := if s.isDependent u c.tileNo then
      ((s.core c).ctxList.filter fun e => e.reservedUntil.isNone && !e.lapsed && (Tbl.get {} s.msgs e.msg).launch ≠ u).length
    else 0
  s.freeCount c u > s.reserved c + due && s.mayHold c u

/-- Strands placed in `STRAND_ID` order while the core has contexts for them (R159): what is left unplaced. -/
def State.placeGo (s : State) (c : Core) (u : Nat) : List Nat → List Nat × State
  | [] => ([], s)
  | n :: rest =>
    match s.freeCtx c u with
    | none => (n :: rest, s)
    | some x =>
      if s.admitsStrand c u then
        let l := s.launch u
        let pc := if c.isA then tmplAEntry l.tmpl else tmplCEntry l.tmpl
        (s.admitCtx c x (newCtx u pc (tmplStackLg l.tmpl) (BitVec.ofNat 32 n) 1 s.now)).placeGo c u rest
      else (n :: rest, s)

/-- STRAND_PLACEMENT: the unplaced strands of a launch on both cores of a tile take what contexts they may; none while the
launch drains (R174). -/
def State.placeStrands (s : State) (u t : Nat) : State :=
  if (s.launch u).st ≠ .running then s
  else
    let o := s.ot u t
    let (ra, s) := s.placeGo (.a t) u o.unplacedA
    let (rc, s) := s.placeGo (.c t) u o.unplacedC
    s.setOt u t { s.ot u t with unplacedA := ra, unplacedC := rc }

/-- A key that names no context: the issuer of a command whose strand has ended. -/
def noCtx : Nat := 2 ^ 40

/-- The commands and the pushed stream elements of a tile's engines forget the context that issued them, when its strand ends. -/
def Tile.orphan (tl : Tile) (k : Nat) : Tile :=
  let who (c : Nat) : Nat := if c = k then noCtx else c
  { tl with
    vecQ := tl.vecQ.map fun e => { e with ctx := who e.ctx }
    vecRun := tl.vecRun.map fun e => { e with ctx := who e.ctx }
    matQ := tl.matQ.map fun e => { e with ctx := who e.ctx }
    matRun := tl.matRun.map fun e => { e with ctx := who e.ctx }
    loadQ := tl.loadQ.map fun e => { e with ctx := who e.ctx }
    strm := tl.strm.map fun (e : Nat × Stream) => (e.1, { e.2 with pushed := e.2.pushed.map fun q => { q with ctx := who q.ctx } }) }

/-- The context of a strand that ended becomes Free, due to the senders that its core lists (R166), and unplaced strands of the tile's launches are
placed (R169, R159). -/
def State.freeContext (s : State) (c : Core) (x : Nat) : State :=
  let s := (s.unqueue c x).setCtx (ctxKey c x) {}
  let s := s.setCore c { s.core c with ctxList := (s.core c).ctxList.map fun e => { e with lapsed := false } }
  let s := { s with elems := s.elems.map fun (e : Nat × Element) => if e.2.ctx = some (ctxKey c x) then (e.1, { e.2 with ctx := none }) else e }
  let s := s.setTile c.tileNo ((s.tile c.tileNo).orphan (ctxKey c x))
  (s.tile c.tileNo).runs.foldl (fun s u => s.placeStrands u c.tileNo) s

/-- The claims of a tile's rings are forgotten: at completion the data still held in rings is discarded (R170). -/
def State.dropRings (s : State) (t : Nat) : State :=
  { s with rings := s.rings.filter fun e => !(poolKey t 0 ≤ e.1 && e.1 < poolKey (t + 1) 0) }

/-- One tile of a starting launch (R158): the pool cleared apart from banks shared with a producer or retained for it, the
launch's registers at their starting values, its strands placed. Beside its producer too, the registers of the tile that a launch start sets
(R191, R192, R249, R381, R383) are set. (DEDUCED, assumption 91) -/
def State.startOnTile (s : State) (u t : Nat) : State :=
  let l := s.launch u
  let tl := s.tile t
  let spb := partSpb (tmplPart l.tmpl)
  let o : OnTile := { unplacedA := List.range (tmplNstrA l.tmpl), unplacedC := List.range (tmplNstrC l.tmpl) }
  if s.isDependent u t then
    let s := s.setTile t { tl with
      runs := tl.runs ++ [u], rndseed := 1, dupdrop := 0, dqcfg := 0, errlog := [], lost := 0, tag := 0, tags := [] }
    (s.setOt u t o).placeStrands u t
  else
    let keep := match tl.retained with
      | some r => if r.succ = l.id && r.pasid = l.pasid then min r.spb spb else 0
      | none => 0
    let s := s.clearRange (poolKey t (keep * 0x8000)) (poolKey (t + 1) 0)
    let s := s.dropRings t
    let s := s.setTile t { tcfg := tl.tcfg, launchCount := tl.launchCount, stealDir := tl.stealDir, runs := [u] }
    let s := s.setCore (.a t) { icache := (s.core (.a t)).icache, haltOn := (s.core (.a t)).haltOn }
    let s := s.setCore (.c t) { icache := (s.core (.c t)).icache, haltOn := (s.core (.c t)).haltOn }
    (s.setOt u t o).placeStrands u t

/-- LAUNCH_START (R158): the launch runs, and starts on every tile of its rectangle. -/
def State.startLaunch (s : State) (u : Nat) : State :=
  let s := s.setLaunch u { s.launch u with st := .running }
  (s.launch u).tilesOf.foldl (fun s t => s.startOnTile u t) s

/-- Cells of memory in a range of keys. -/
def cellsIn (m : List Host.Cell) (lo hi : Nat) : List Host.Cell := m.filter fun c => lo ≤ c.1 && c.1 < hi

/-- Flags of words in a range of keys. -/
def flagsIn (m : Tbl Bool) (lo hi : Nat) : Tbl Bool := m.filter fun c => lo ≤ c.1 * 8 && c.1 * 8 < hi

/-- What a drain saves of a tile (R174): its pool, its registers and engines, its cores. -/
def State.saveTile (s : State) (t : Nat) (shared : Bool) : SavedTile :=
  { t := t, shared := shared, tile := s.tile t, coreA := s.core (.a t), coreC := s.core (.c t),
    cells := cellsIn s.mem (poolKey t 0) (poolKey (t + 1) 0), poison := flagsIn s.poison (poolKey t 0) (poolKey (t + 1) 0),
    empty := flagsIn s.empty (poolKey t 0) (poolKey (t + 1) 0)
    rings := s.rings.filter fun e => poolKey t 0 ≤ e.1 && e.1 < poolKey (t + 1) 0 }

/-- Whether a saved launch shares a tile's pool, which stands with its producer. -/
def Saved.sharesTile (r : Saved) (t : Nat) : Bool := r.tiles.any fun v => v.t = t && v.shared

/-- The last launch leaves a tile: a saved launch that shares its pool takes into its record the pool as it then is, its contexts give up their
places, and its frozen copies go with the pool (R174, R176). (DEDUCED, assumption 92) -/
def State.parkShared (s : State) (t : Nat) : State :=
  let mine (v : Ctx) : Bool := v.st = .saved
  let s1 : State := { s with
    saved := s.saved.map fun (e : Nat × Saved) =>
      if e.2.sharesTile t then (e.1, { e.2 with tiles := e.2.tiles.map fun v => if v.t = t then s.saveTile t false else v }) else e
    copies := s.copies.map fun (e : Nat × Copy) =>
      if e.2.drained && (match e.2.slot with
          | some (k, _) => k = t
          | none => false) then (e.1, { e.2 with away := true })
      else e }
  [Core.a t, Core.c t].foldl (fun s c => (List.range 32).foldl (fun s x =>
    if mine (s.ctx (ctxKey c x)) then s.setCtx (ctxKey c x) {} else s) s) s1

/-- A tile without a launch: the pool cleared from a scratchpad offset up; only what belongs to the tile itself stays (R171). -/
def State.vacate (s : State) (t keep : Nat) (r : Option Retained) : State :=
  let tl := s.tile t
  let s := (s.clearRange (poolKey t keep) (poolKey (t + 1) 0)).dropRings t
  let s := { s with tlb := s.tlb.filter fun e => e.agent ≠ t }
  let s := s.setTile t { tcfg := tl.tcfg, rndseed := tl.rndseed, launchCount := tl.launchCount, stealDir := tl.stealDir, retained := r }
  let s := s.setCore (.a t) { icache := (s.core (.a t)).icache, haltOn := (s.core (.a t)).haltOn }
  s.setCore (.c t) { icache := (s.core (.c t)).icache, haltOn := (s.core (.c t)).haltOn }

/-- A tile without a launch, its retained banks among what goes. -/
def State.clearTile (s : State) (t : Nat) : State := s.vacate t 0 none

/-- The scratchpad banks that a launch asks to have kept as it leaves a tile (R171). -/
def State.retains (s : State) (u t : Nat) : Option Retained :=
  let o := s.ot u t
  let l := s.launch u
  if bit o.retain 32 then
    some { spb := partSpb (tmplPart l.tmpl), succ := BitVec.ofNat 32 (bits o.retain 31 0), pasid := l.pasid, since := s.us }
  else none

/-- A launch leaves a tile (R171), and the streams that it bound there with it: banks that no running launch holds power down, but for the scratchpad retained by the launch that asked last;
while another launch runs there, only the record of what is retained stands beside it. -/
def State.leaveTile (s : State) (u t : Nat) : State :=
  let tl := s.tile t
  let r := match s.retains u t with
    | some r => some r
    | none => tl.retained
  let s := { s with onTile := Tbl.del s.onTile (otKey u t) }
  let runs := tl.runs.filter (· ≠ u)
  if !tl.runs.contains u then s
  else if runs ≠ [] then s.setTile t { tl with runs := runs, retained := r, strm := tl.strm.filter fun e => e.2.launch ≠ u }
  else ((s.setTile t { tl with strm := tl.strm.filter fun e => e.2.launch ≠ u }).parkShared t).vacate t ((r.map Retained.spb).getD 0 * 0x8000) r

/-- The contexts of a launch: core and index. -/
def State.ctxsOf (s : State) (u : Nat) : List (Core × Nat) :=
  (launchCores (s.launch u)).flatMap fun c =>
    ((List.range 32).filter fun x => (s.ctx (ctxKey c x)).st ≠ .free && (s.ctx (ctxKey c x)).launch = u).map fun x => (c, x)

/-- An id that names a live launch of a PASID (R45): issued or launched, and not yet completed, retired or discarded. -/
def State.liveLaunch (s : State) (pasid id : Nat) : Option Nat :=
  (s.launches.find? fun e => e.2.pasid = pasid && e.2.id.toNat = id).map Prod.fst

/-- An abort takes a copy to Aborting (R141); one that has ended is left, and a queued one ends at once (R385). -/
def State.abortCopy (s : State) (u : Nat) (err : Nat) : State :=
  let c := s.copy u
  match c.st with
  | .ended | .aborted | .aborting => s
  | _ => s.setCopy u { c with st := .aborting, err := if c.err = 0 then err else c.err, ticket := none }

/-- Every copy that satisfies `p` aborts. -/
def State.abortCopies (s : State) (p : Copy → Bool) (err : Nat) : State :=
  (s.copies.filter fun e => p e.2).foldl (fun s e => s.abortCopy e.1 err) s

/-- Whether a copy was started by a launch. -/
def Copy.ofLaunch (c : Copy) (u : Nat) : Bool :=
  match c.origin with
  | .tile l _ => l = u
  | _ => false

/-- The engines of a tile drop a launch's commands, its bound streams and the elements it has pushed. -/
def State.dropCommands (s : State) (u t : Nat) : State :=
  let tl := s.tile t
  s.setTile t { tl with
    loadQ := tl.loadQ.filter fun e => e.launch ≠ u
    matQ := tl.matQ.filter fun e => e.launch ≠ u
    matRun := match tl.matRun with
      | some e => if e.launch = u then none else some e
      | none => none
    vecQ := tl.vecQ.filter fun e => e.launch ≠ u
    vecRun := match tl.vecRun with
      | some e => if e.launch = u then none else some e
      | none => none
    strm := (tl.strm.map fun (e : Nat × Stream) =>
      (e.1, if e.2.launch = u then {} else { e.2 with pushed := e.2.pushed.filter fun q => q.launch ≠ u })).filter fun e => e.2 ≠ {} }

/-- Laybys whose count has returned to 0 are free, and their entries have none bound (R186). -/
def State.freeLaybys (s : State) : State :=
  let free (e : Nat × Layby) : Bool := e.2.bound && e.2.recs.isEmpty
  { s with
    ert := (s.laybys.filter free).foldl (fun m e => Tbl.set 0 m e.2.entry (setFld (Tbl.get 0 m e.2.entry) 6 6 0)) s.ert
    laybys := s.laybys.filter fun e => !free e }

/-- Messages leave the network and every list of their targets. -/
def State.dropMsgs (s : State) (p : Msg → Bool) : State :=
  let s1 : State := { s with msgs := s.msgs.filter fun e => !p e.2 }
  (s.msgs.filter fun e => p e.2).foldl (fun s e =>
    let c : Core := if e.2.toA then .a e.2.toTile else .c e.2.toTile
    let v := s.core c
    s.setCore c { v with
      ctxList := v.ctxList.filter fun o => o.msg ≠ e.1
      ringList := Tbl.set [] v.ringList e.2.mbox ((Tbl.get [] v.ringList e.2.mbox).filter fun o => o.msg ≠ e.1) }) s1

/-- Entries of a tile's deque-space list whose layby still has a record for it (R187). -/
def State.dqKept (s : State) (t : Nat) : List Listed :=
  (s.tile t).dqList.filter fun e => (s.layby e.msg).recs.any fun r => r.tile = t && r.released

/-- The parked records of a launch go: the pins that released ones took go with them (R187), and with them the places of laybys in the
deque-space lists of its tiles. -/
def State.dropParked (s : State) (u : Nat) : State :=
  let pins (v : Layby) : Nat := (v.recs.filter fun r => r.launch = u && r.pinned).length
  let s : State := { s with
    ert := s.laybys.foldl (fun m e =>
      let v := Tbl.get 0 m e.2.entry
      Tbl.set 0 m e.2.entry (setFld v 79 64 (fld v 79 64 - pins e.2))) s.ert
    laybys := s.laybys.map fun (e : Nat × Layby) => (e.1, { e.2 with recs := e.2.recs.filter fun r => r.launch ≠ u }) }
  let s := (s.launch u).tilesOf.foldl (fun s t => s.setTile t { s.tile t with dqList := s.dqKept t }) s
  s.freeLaybys

/-- The steal rounds of a launch's strands end: what they reserved at the thief is free again (R193). -/
def State.dropSteals (s : State) (u : Nat) : State :=
  let mine (v : Steal) : Bool := (s.ctx v.ctx).launch = u
  let s1 : State := { s with steals := s.steals.filter fun e => !mine e.2 }
  (s.steals.filter fun e => mine e.2).foldl (fun s e =>
    s.setTile e.2.thief { s.tile e.2.thief with stealRes := (s.tile e.2.thief).stealRes - e.2.r }) s1

/-- A drain ends for the firmware core that asked for it (R172), if it is the last one of that core. -/
def State.drainStatus (s : State) (u fc st : Nat) : State :=
  if fc < 16 && (s.fw fc).drainOf = u && (s.fw fc).drain.isNone then s.setFw fc { s.fw fc with drain := some st } else s

/-- A resumption ends for the firmware core that asked for it (R172), if it is the last one of that core. -/
def State.resumeStatus (s : State) (u fc st : Nat) : State :=
  if fc < 16 && (s.fw fc).resumeOf = u && (s.fw fc).resume.isNone then s.setFw fc { s.fw fc with resume := some st } else s

/-- A launch ends while a drain or a resumption of it is under way: that has ended too, with a status the manual does not give.
(DESIGN CHOICE, assumption 93) -/
def State.endWaits (s : State) (u : Nat) : State :=
  let (v, s) := s.freeWord
  let l := s.launch u
  (s.drainStatus u l.drainFc (bits v 3 0)).resumeStatus u l.resumeFc (bits v 7 4)

/-- A launch is discarded without a save (R60, R313): its strands, messages, requests, commands, pushed elements and parked records go, its
copies abort, copies from outside that its drain had stopped go on; `status` is what its packet, tensor or completion word reports once they have ended. (DEDUCED, assumption 25) -/
def State.discardLaunch (s : State) (u : Nat) (status : Nat) : State :=
  if (Tbl.find s.launches u).isNone then s
  else
    let l := s.launch u
    let went := (Tbl.get {} s.saved u).copies
    let s := s.dropSteals u
    let s := (s.ctxsOf u).foldl (fun s p => (s.unqueue p.1 p.2).setCtx (ctxKey p.1 p.2) {}) s
    let s := l.tilesOf.foldl (fun s t =>
      (s.dropCommands u t).setOt u t { s.ot u t with q := [], qv := [], unplacedA := [], unplacedC := [] }) s
    let s := s.dropMsgs fun m => m.launch = u
    let s := { s with
      elems := s.elems.filter fun e => e.2.launch ≠ u
      gathers := s.gathers.filter fun e => e.2.launch ≠ u
      colls := s.colls.filter fun e => e.2.launch ≠ u
      expert := s.expert.filter fun e => e.2.launch ≠ u
      saved := Tbl.del s.saved u }
    let s := s.dropParked u
    let s := s.abortCopies (fun c => c.ofLaunch u) 6
    let s : State := { s with copies := s.copies.map fun (e : Nat × Copy) =>
      if e.2.drained && !e.2.ofLaunch u && (Tbl.find went e.1).isSome then
        (e.1, { e.2 with drained := false, away := false, st := if e.2.st = CopyState.frozen then .running else e.2.st })
      else e }
    (s.setLaunch u { l with st := .faulted, status := if l.status = 0 then status else l.status }).endWaits u

/-- R170 for the work of a launch beside its strands: messages, copies, gathers, engine commands and writes, router reductions (R223), and parked
records. -/
def State.quiet (s : State) (u : Nat) : Bool :=
  !(s.msgs.any fun e => e.2.launch = u) && !(s.elems.any fun e => e.2.launch = u) &&
    !(s.copies.any fun e => e.2.ofLaunch u && e.2.st ≠ .ended && e.2.st ≠ .aborted) &&
    !(s.gathers.any fun e => e.2.launch = u) && !(s.laybys.any fun e => e.2.recs.any fun r => r.launch = u) &&
    !(s.colls.any fun e => e.2.launch = u) &&
    (s.launch u).tilesOf.all fun t =>
      let tl := s.tile t
      !(tl.vecQ.any fun e => e.launch = u && (match e.stage with
          | .own _ => false
          | _ => true)) && (match tl.vecRun with
          | some e => e.launch ≠ u
          | none => true) && !(tl.loadQ.any fun e => e.launch = u) && !(tl.matQ.any fun e => e.launch = u) &&
        (match tl.matRun with
          | some e => e.launch ≠ u
          | none => true) &&
        (tl.strm.all fun e => e.2.pushed.all fun q => q.launch ≠ u)

/-- Whether every strand of a launch has halted on every tile, with none unplaced and none Hopping (R170). -/
def State.halted (s : State) (u : Nat) : Bool :=
  (s.ctxsOf u).isEmpty && (s.launch u).tilesOf.all fun t => (s.ot u t).unplacedA.isEmpty && (s.ot u t).unplacedC.isEmpty

/-- The status found for a packet's work is noted in its window entry; the first one stands. -/
def State.notePacket (s : State) (q entry status : Nat) : State :=
  let v := s.queue q
  match Tbl.find v.win entry with
  | some e => s.setQueue q { v with win := Tbl.put v.win entry { e with status := some (e.status.getD status) } }
  | none => s

/-- What an agent that is no core meets at an address: its memory key, a page that counts as failed (R115), or a wait, with the ticket it waits
on. -/
inductive AgentAcc where
  | key (k : Nat)
  | bad
  | later (ticket : Option Nat)
  deriving DecidableEq, Repr

/-- The open ticket of a page. -/
def State.ticketFor (s : State) (pasid va : Nat) : Option Nat := (s.ticketAt pasid va).map Prod.fst

/-- An access of `n` bytes by the work `who` of an agent that is no tile core: translated, held behind watermarks (R137), and taken by its home.
A core's access to a page of `PFMT` 15 counts as failed (R115). -/
def State.agentKey (s : State) (who pasid va n : Nat) (k : AccKind) : AgentAcc × State :=
  let agent := who % 65536
  match s.translate agent pasid va k with
  | (.ok e, s) =>
    if leafPfmt e.leaf = 15 && agent < 0x1100 then (.bad, s)
    else if s.heldGlob pasid va n none then (.later none, s)
    else
      match s.homeAccepts (e.key va) (2, who) with
      | (true, s) => (.key (e.key va), s)
      | (false, s) => (.later none, s)
  | (.fault, s) =>
    let (t, s) := s.openTicket agent pasid va k false
    (.later (some t), s)
  | (.wait, s) => (.later none, s)

/-- The keys of several addresses of 8-byte words (`n` bytes each), none for a page that counts as failed; or the ticket that the first missing
one waits on. -/
def State.agentKeys (s : State) (who pasid n : Nat) (k : AccKind) : List Nat → Except (Option Nat) (List (Option Nat)) × State
  | [] => (.ok [], s)
  | va :: r =>
    match s.agentKey who pasid va n k with
    | (.later t, s) => (.error t, s)
    | (.bad, s) =>
      match s.agentKeys who pasid n k r with
      | (.ok l, s) => (.ok (none :: l), s)
      | q => q
    | (.key key, s) =>
      match s.agentKeys who pasid n k r with
      | (.ok l, s) => (.ok (some key :: l), s)
      | q => q

/-- A write of `n` bytes by an agent that is no core, under a PASID: what it meets; it is done where that is a key. -/
def State.agentStore (s : State) (who pasid va n v : Nat) : AgentAcc × State :=
  match s.agentKey who pasid va n .write with
  | (.key k, s) => (.key k, s.store k n v false)
  | q => q

/-- A read of `n` bytes by an agent that is no core, with its poison; a failed page reads poison. -/
def State.agentLoad (s : State) (who pasid va n : Nat) : Except (Option Nat) (Nat × Bool) × State :=
  match s.agentKey who pasid va n .read with
  | (.key k, s) =>
    let (r, s) := s.load k n
    (.ok r, s)
  | (.bad, s) => (.ok (0, true), s)
  | (.later t, s) => (.error t, s)

/-- The words at `va` read by an agent; the flag says that one is poisoned. -/
def State.agentWords (s : State) (who pasid : Nat) : Nat → Nat → Except (Option Nat) (List Word × Bool) × State
  | _, 0 => (.ok ([], false), s)
  | va, n + 1 =>
    match s.agentLoad who pasid va 8 with
    | (.error t, s) => (.error t, s)
    | (.ok (v, p), s) =>
      match s.agentWords who pasid (va + 8) n with
      | (.error t, s) => (.error t, s)
      | (.ok (r, q), s) => (.ok (w64 v :: r, p || q), s)

/-- What a firmware core's register finds at an address that it names. -/
inductive FcRead where
  | later
  | bad
  | ok (v : Nat)
  deriving DecidableEq, Repr

/-- A record of `n` bytes that a firmware core names, aligned to its size, read under its PASID 0 (R172, R183): one that cannot be read, or a wait for
its home (R123) or a watermark. -/
def State.fcRecord (s : State) (fc : Nat) (a : Word) (n : Nat) : FcRead × State :=
  if a.toNat % n ≠ 0 || 2 ^ 56 ≤ a.toNat then (.bad, s)
  else
    match s.translate (0x1080 + fc) 0 a.toNat .read with
    | (.ok e, s) =>
      if leafPfmt e.leaf = 15 then (.bad, s)
      else if s.heldGlob 0 a.toNat n none then (.later, s)
      else
        match s.homeAccepts (e.key a.toNat) (1, ctxKey (.fc fc) 0) with
        | (false, s) => (.later, s)
        | (true, s) =>
          let q := s.loadParts [(e.key a.toNat, n, none)]
          (if q.1.any fun b => b.2 then .bad else .ok (leNat q.1), q.2)
    | (.wait, s) => (.later, s)
    | (.fault, s) => (.bad, s.dropAts (0x1080 + fc) 0 a.toNat)

/-- Words put together, the first lowest. -/
def joinWords : List Word → Nat
  | [] => 0
  | w :: r => w.toNat + 2 ^ 64 * joinWords r

-- The release queue

/-- Entries of a control core's release queue that are free (R207). -/
def State.rqFree (s : State) (c : Nat) : Nat :=
  let v := s.cc c
  2 ^ bits v.rqbase 3 0 - (bits v.rqidx 63 32 + 2 ^ 32 - bits v.rqidx 31 0) % 2 ^ 32

/-- The address of the next entry (R207). -/
def State.rqAddr (s : State) (c : Nat) : Nat :=
  let v := s.cc c
  bits v.rqbase 55 12 <<< 12 + 8 * (bits v.rqidx 63 32 % 2 ^ bits v.rqbase 3 0)

/-- `TAIL` moved on by one. -/
def CtlCore.rqNext (v : CtlCore) : CtlCore := { v with rqidx := putBits v.rqidx 32 32 (w64 (bits v.rqidx 63 32 + 1)) }

/-- Descriptors that wait for room enter the release queue, oldest first (R209); one whose entry lies on a failed page takes its place unwritten
(R112). -/
def State.flushGo (s : State) (c : Nat) : Nat → State
  | 0 => s
  | fuel + 1 =>
    match (s.cc c).orphans with
    | [] => s
    | d :: r =>
      if s.rqFree c = 0 then s
      else
        match s.agentStore (0x1040 + c) (s.cc c).pasid (s.rqAddr c) 8 (d + 8).toNat with
        | (.later _, s) => s
        | (_, s) => (s.setCc c { (s.cc c).rqNext with orphans := r }).flushGo c fuel

/-- The waiting descriptors of a control core enter its release queue as far as they can. -/
def State.flushOrphans (s : State) (c : Nat) : State := s.flushGo c (s.cc c).orphans.length

end Sys2Proof.Machine
end

