-- ==== Sys2Proof/Machine/Ops.lean ====
section
/-! DEFINITION. What every native instruction shares: the traps taken at decode (R292, R293), the predicate (R289), dead
registers (R161, R290), the waits on queue registers (R227), taking a trap and returning from it (R311 to R315), blocking
(R162), and the completion that applies the last-use bits. -/

namespace Sys2Proof.Machine

/-- Which cores may execute an opcode (R292). -/
inductive CoreSet where
  | all
  | tile
  | aCore
  | cCore
  | control
  deriving DecidableEq, Repr

/-- The core set of a major opcode and function (R292). -/
def opCores (op fn : Nat) : CoreSet :=
  match op with
  | 0x04 => if fn = 10 then .tile else .all
  | 0x09 => if 3 ≤ fn && fn ≤ 5 then .tile else .all
  | 0x10 => if 4 ≤ fn then .tile else .all
  | 0x12 => if fn = 0 then .all else .tile
  | 0x13 => .tile
  | 0x20 => .cCore
  | 0x21 => if fn ≤ 5 then .cCore else .tile
  | 0x22 => .cCore
  | 0x23 => if fn ≤ 2 then .tile else .cCore
  | 0x30 => if fn ≤ 2 then .aCore else .cCore
  | 0x31 => if fn ≤ 4 then .aCore else .tile
  | 0x32 => if fn = 3 || fn = 4 then .cCore else .tile
  | 0x40 => .control
  | _ => .all

/-- Whether a core is in a set. -/
def CoreSet.has (k : CoreSet) (c : Core) : Bool :=
  match k with
  | .all => true
  | .tile => c.isTile
  | .aCore => c.isA
  | .cCore => c.isC
  | .control => c.isCc

/-- `OP` and `FN` of a native instruction. -/
def instrOp (i : Instr) : Nat := bits (encode i) 63 56
def instrFn (i : Instr) : Nat := bits (encode i) 55 52

/-- The vector instructions of R289, whose predicate acts lane by lane: the vector opcodes other than those that act on one
lane, on whole predicates, on `VL` or on a binding; `vld`, `vst`, `accrd`, `rred` and `sendk`. A `vmov` to a queue register pushes
under bit 0 (R352). (DEDUCED, assumption 16) (DEDUCED, assumption 26) -/
def byLanes (i : Instr) : Bool :=
  match i with
  | .vmov x => x.d.toNat < 48
  | .sendk _ | .accrd _ | .rred _ | .vld _ | .vst _ | .vgath _ | .vscat _ => true
  | _ =>
    let op := instrOp i
    let fn := instrFn i
    op = 0x20 || op = 0x22 || (op = 0x21 && fn ≤ 6)

/-- Whether a field class is a destination. -/
def slotDest (k : Sys2Proof.Slot) : Bool :=
  match k with
  | .gd | .scd | .scfd | .vd | .vdq | .kd => true
  | _ => false

/-- The queue registers that a core writes, by code (R226); it reads the others. -/
def queueWriter (c : Core) (code : Nat) : Bool := if code = 52 || code = 53 then c.isC else c.isA

/-- The limits that the core and the launch set on a register field: no f- or q-register outside a tile (R282), f-registers below
`NFREG` and accumulators below `NACC` (R70), tile registers that the register file holds (R230), queue directions (R227). -/
def fieldHeld (x : Field) (s : State) : Bool :=
  let n := x.code.toNat
  let t := s.myLaunch.tmpl
  match x.slot with
  | .acc => n < tmplNacc t
  | .tn | .tl => if n < 60 then 1 ≤ partRfb (tmplPart t) else 2 ≤ partRfb (tmplPart t)
  | .unused | .ks | .kd | .wm | .qq => true
  | _ =>
    if n < 16 then true
    else if !s.cur.isTile then false
    else if n < 48 then n - 16 < tmplNfreg t
    else queueWriter s.cur n = slotDest x.slot

/-- Special-register numbers that R318 assigns. -/
def srAssigned (n : Nat) : Bool :=
  n ≤ 7 || (0x10 ≤ n && n ≤ 0x14) || n = 0x18 || (0x20 ≤ n && n ≤ 0x22) || (0x30 ≤ n && n ≤ 0x37) ||
    (0x40 ≤ n && n ≤ 0x42) || (0x50 ≤ n && n ≤ 0x57) || (0x100 ≤ n && n ≤ 0x110)

/-- Whether a kind of core holds a special register (R318). -/
def srHeld (c : Core) (n : Nat) : Bool :=
  if (0x10 ≤ n && n ≤ 0x18) || n = 0x21 then true
  else if n = 0x40 || n = 0x41 then c.isC
  else if 0x100 ≤ n then c.isCc
  else c.isTile

/-- The special register that an `mfsr` or `mtsr` names. -/
def srOf (i : Instr) : Option Nat :=
  match i with
  | .mfsr x | .mtsr x => some (x.imm.toNat % 4096)
  | _ => none

/-- A tile scope named outside a tile (R328, R331). -/
def tileScope (i : Instr) : Bool :=
  match i with
  | .fence x => x.dt.toNat / 4 = 2
  | .amswap x | .amadd x | .amand x | .amor x | .amxor x | .ammin x | .ammax x | .amminu x | .ammaxu x | .amcas x =>
    x.off.toNat >>> 17 = 2
  | _ => false

/-- A bound stream register of a C-core used against its direction (R239): as a source while it is a write stream, or as a
destination while it is a read stream. -/
def streamMisuse (x : Field) (s : State) : Bool :=
  let n := x.code.toNat
  s.cur.isC && 40 ≤ n && n < 48 &&
    (let v : Stream := Tbl.get {} (s.tile s.myTile).strm (n - 16)
     v.bound && (match x.slot with
      | .v _ | .vn | .f => fld v.desc 288 288 = 1
      | .vd | .vdq | .scfd => fld v.desc 288 288 = 0
      | _ => false))

/-- Predicate register `n` of the executing core: k0 is all ones. -/
def State.kReg (s : State) (n : Nat) : Word := if n = 0 then BitVec.allOnes 64 else Tbl.get 0 s.myCore.k n

/-- p of R289 for an instruction that is not a vector instruction. (DEDUCED, assumption 17) -/
def State.predicate (s : State) (i : Instr) : Bool :=
  match i.pred with
  | some (k, n) => bit (s.kReg k) 0 != n
  | none => true

/-- TC_ILLOP and TC_PRIV at decode (R293, R318): the trap code and `ARG`, if the instruction traps there. With a predicate of 0 it takes no TC_PRIV
(R289). (DEDUCED, assumption 17) (DEDUCED, assumption 23) -/
def decodeTrap (i : Instr) (s : State) : Option (Nat × Word) :=
  if !i.wf || !(opCores (instrOp i) (instrFn i)).has s.cur || (!s.cur.isTile && i.pred ≠ some (0, false)) ||
      !i.fields.all (fun x => fieldHeld x s) || (tileScope i && !s.cur.isTile) ||
      i.fields.any (fun x => streamMisuse x s) then some (tcIllop, encode i)
  else
    match srOf i with
    | some n =>
      if !srAssigned n then some (tcIllop, encode i)
      else if srHeld s.cur n || (s.me.await = .none && !s.predicate i) then none
      else some (tcPriv, w64 n)
    | none => none

/-- The lanes active under a predicate (R289): l < `VL` and bit l of k`PK` XOR `PN`. -/
def State.lanesNow (s : State) (pk : BitVec 3) (pn : Bool) : BitVec 64 :=
  let k := s.kReg pk.toNat
  (if pn then ~~~ k else k) &&& w64 (2 ^ s.me.vl - 1)

/-- The active lanes of the instruction that executes: those read when it issued (R289). -/
def State.activeLanes (s : State) (pk : BitVec 3) (pn : Bool) : BitVec 64 := s.me.act.getD (s.lanesNow pk pn)

/-- A vector instruction reads its predicate as it issues (R289). -/
def State.issued (s : State) (i : Instr) : State :=
  match i.pred with
  | some (k, n) => if byLanes i && s.me.act.isNone then s.setMe { s.me with act := some (s.lanesNow (BitVec.ofNat 3 k) n) } else s
  | none => s

/-- Whether a field names a dead register (R161, R290): a source only. -/
def fieldStale (x : Field) (s : State) : Bool :=
  let n := x.code.toNat
  match x.slot with
  | .g | .sc _ | .v _ | .vn | .f =>
    if n < 16 then !s.me.live.getLsbD n else if n < 48 then s.myCore.fdead.getLsbD (n - 16) else false
  | _ => false

/-- The code of the first dead source register in the order of R294. -/
def staleField (i : Instr) (s : State) : Option Nat := ((i.fields.find? fun x => fieldStale x s).map fun x => x.code.toNat)

/-- A subgroup (R157): origin and log2 of its width and height. -/
structure Subgroup where
  sx : Nat
  sy : Nat
  wl : Nat
  hl : Nat
  deriving DecidableEq, Repr

/-- The subgroup that a code names for a tile of a launch: none for a reserved code or one that leaves the rectangle (R157). -/
def subgroupOf (l : Launch) (t code : Nat) : Option Subgroup :=
  let wl := code / 8 % 8
  let hl := code % 8
  if wl = 7 || hl = 7 then none
  else
    let sx := l.x0 + (tileX t - l.x0) / 2 ^ wl * 2 ^ wl
    let sy := l.y0 + (tileY t - l.y0) / 2 ^ hl * 2 ^ hl
    if sx + 2 ^ wl ≤ l.x0 + l.w && sy + 2 ^ hl ≤ l.y0 + l.h then some { sx := sx, sy := sy, wl := wl, hl := hl } else none

/-- How many tiles a subgroup has. -/
def Subgroup.size (g : Subgroup) : Nat := 2 ^ (g.wl + g.hl)

/-- Tile j of a subgroup (R157). -/
def Subgroup.tileOf (g : Subgroup) (j : Nat) : Nat := tileAt (g.sx + j % 2 ^ g.wl) (g.sy + j / 2 ^ g.wl)

/-- The rank of a tile (R157). -/
def Subgroup.rank (g : Subgroup) (t : Nat) : Nat := (tileY t - g.sy) * 2 ^ g.wl + (tileX t - g.sx)

/-- The tiles of a subgroup by rank. -/
def Subgroup.tiles (g : Subgroup) : List Nat := (List.range g.size).map g.tileOf

/-- g-register `n` of the executing context while it is live. -/
def State.gLive (s : State) (n : BitVec 6) : Option Word :=
  if n.toNat < 16 && s.me.live.getLsbD n.toNat then some (Tbl.get 0 s.me.g n.toNat) else none

/-- The value that a scalar source holds, if it is live: of a queue register its oldest entry. -/
def State.scLive (s : State) (n : BitVec 6) : Option Word :=
  if n.toNat < 16 then s.gLive n
  else if 48 ≤ n.toNat && s.cur.isTile then (Tbl.get [] (s.ot s.me.launch s.myTile).q (n.toNat - 48)).head? else none

/-- Whether the executing strand's tile has the subgroup that a code names (R157). -/
def State.hasSub (s : State) (code : Nat) : Bool := (subgroupOf s.myLaunch s.myTile code).isSome

/-- Operand values that an instruction takes (R332, R337, R339, R371, R388, R396 to R398). -/
def binitOk (a n : Word) : Bool := a.toNat < 2 ^ 20 && n.toNat < 2 ^ 36
def barriveOk (n : Word) : Bool := 1 ≤ n.toNat && n.toNat < 2 ^ 20
def bexpectOk (n : Word) : Bool := n.toNat < 2 ^ 32
def sendmOk (c : Word) : Bool := bits c 63 20 = 0 && bits c 15 9 = 0 && bits c 7 2 = 0 && bits c 19 16 ≤ 14
def State.sendkOk (s : State) (c : Word) : Bool := bits c 63 30 = 0 && s.hasSub (bits c 29 24)
def State.kmergeOk (s : State) (c : Word) : Bool := bits c 63 11 = 0 && bits c 7 6 = 0 && s.hasSub (bits c 5 0)
def State.rredOk (s : State) (c : Word) : Bool := bits c 63 6 = 0 && s.hasSub (bits c 5 0)
def State.gathOk (s : State) (b : Word) : Bool := s.hasSub (bits b 53 48)
def State.tldxOk (s : State) (c : Word) : Bool := s.hasSub (bits c 5 0)

/-- TC_ILLOP for the values of an instruction's operands, as far as their registers are live: it comes before a dead register's TC_STALE
(R294). (DEDUCED, assumption 95) -/
def valueTrap (i : Instr) (s : State) : Bool :=
  let no (v : Option Word) (ok : Word → Bool) : Bool := match v with
    | some w => !ok w
    | none => false
  match i with
  | .binit x => no (s.gLive x.a) (fun a => binitOk a 0) || no (s.gLive x.c) (fun n => binitOk 0 n)
  | .barrive x => no (s.gLive x.a) barriveOk
  | .bexpect x => no (s.gLive x.a) bexpectOk
  | .sendm x => no (s.gLive x.c) sendmOk
  | .sendk x => no (s.scLive x.c) s.sendkOk
  | .kmerge x => no (s.gLive x.c) s.kmergeOk
  | .rred x => no (s.gLive x.c) s.rredOk
  | .gath x | .scat x => no (s.gLive x.b) s.gathOk
  | .tldx x => x.cb 4 4 = 1 && no (s.gLive x.c) s.tldxOk
  | _ => false

-- Releases

/-- Elements that the prefetch window of a stream register holds (R230). -/
def prefetchSize (part : Nat) : Nat := 64 * (4 + 16 * (partRfb part - 2))

/-- Whether the executing strand has pushed stream elements that are not yet performed, or has a command in the vector engine's queue that will push
some: they are stores of its instructions (R362). -/
def State.ownPushed (s : State) : Bool :=
  s.cur.isC && (((s.tile s.myTile).strm.any fun e => e.2.pushed.any fun q => q.ctx = s.myKey) ||
    (s.tile s.myTile).vecQ.any fun e => e.ctx = s.myKey && (match e.pushes with
      | some (n, _) => (Tbl.get {} (s.tile s.myTile).strm n).bound
      | none => false))

/-- The ordinal from which a bound read stream holds its elements: a window that waits in the vector engine's queue has still to take its own
(R239, R224). -/
def Tile.heldFrom (tl : Tile) (n : Nat) : Nat :=
  ((tl.vecQ.flatMap fun e => (match e.stage with
    | .held o => o.src.filterMap fun w => (match w with
      | .win m p => if m = n then some p else none
      | .val _ => none)
    | _ => [])).head?).getD (Tbl.get {} tl.strm n).pos

/-- The ordinal that a bound read stream fetches next. -/
def Tile.fetchAt (tl : Tile) (n : Nat) : Nat := tl.heldFrom n + (Tbl.get {} tl.strm n).fetched.length

/-- Whether a read stream that the executing strand bound has room for elements it has still to fetch: loads of its `sbind` (R362).
(DEDUCED, assumption 94) -/
def State.ownFetch (s : State) : Bool :=
  s.cur.isC && (s.tile s.myTile).strm.any fun e =>
    e.2.bound && e.2.launch = s.me.launch && e.2.ctx = s.curX && fld e.2.desc 288 288 = 0 &&
      e.2.fetched.length < prefetchSize (tmplPart s.myLaunch.tmpl) && (s.tile s.myTile).fetchAt e.1 < strmLen e.2.desc

/-- Whether elements that the executing strand sent with `sendk` are still to be added (R200), at the tiles of a test. -/
def State.ownElems (s : State) (p : Nat → Bool) : Bool := s.cur.isTile && s.elems.any fun e => e.2.ctx = some s.myKey && p e.2.toTile

/-- A release is performed after every earlier access of its strand (R266): it waits for stream elements (R239, R362). The model makes every
other access at once, and no release waits for an engine's operations. -/
def releaseM : M Unit := do
  let s ← get
  if s.ownPushed || s.ownFetch then waitM .stream else pure ()

/-- `hop` and a fence wait for the elements that the strand has sent (R200, R268). -/
def elementsM (p : Nat → Bool) : M Unit := do
  let s ← get
  if s.ownElems p then waitM .elements else pure ()

/-- What is performed after every earlier access of its strand, an engine command among it (R272): stream elements and elements sent are waited for. -/
def earlierM : M Unit := do
  releaseM
  elementsM fun _ => true

-- Queue registers

/-- Depth of each queue register (R226). -/
def queueDepth (q : Nat) : Nat := if q < 4 then 16 else if q < 6 then 8 else 4

/-- The executing strand's launch on its tile. -/
def State.myOt (s : State) : OnTile := s.ot s.me.launch s.myTile
def State.setMyOt (s : State) (o : OnTile) : State := s.setOt s.me.launch s.myTile o

/-- Entries held by a queue register. -/
def OnTile.count (o : OnTile) (q : Nat) : Nat := if q < 6 then (Tbl.get [] o.q q).length else (Tbl.get [] o.qv q).length

/-- Whether an earlier strand of the executing core and launch waits for the same thing (R227). -/
def State.behind (s : State) (a : Await) : Bool :=
  (s.waiters.takeWhile fun e => e.1 ≠ s.myKey).any fun e =>
    e.2 = a && e.1 / 32 = coreIx s.cur && (s.ctx e.1).launch = s.me.launch

/-- Whether a load writes a queue register. -/
def loadsTo (i : Option Instr) (q : Nat) : Bool :=
  match i with
  | some (.ld x) | some (.lds x) | some (.ldc x) => x.dr.toNat = 48 + q
  | _ => false

/-- Whether a context that waits has reserved an entry of a queue register: a load that has found room, and waits for its value (R323). -/
def State.reserves (s : State) (k q : Nat) : Bool :=
  loadsTo (s.ctx k).waitAt q && (s.ctx k).st = .blocked && (match (s.ctx k).await with
    | .queue _ => false
    | _ => true)

/-- Entries of a queue register that waiting loads of the executing core and launch have reserved (R323). -/
def State.queueReserved (s : State) (q : Nat) : Nat :=
  (s.waiters.filter fun e => e.1 ≠ s.myKey && e.1 / 32 = coreIx s.cur && (s.ctx e.1).launch = s.me.launch && s.reserves e.1 q).length

/-- Whether the executing context waits at a load whose entry of a queue register is reserved. -/
def State.hasRoom (s : State) (i : Instr) (q : Nat) : Bool :=
  loadsTo (some i) q && (match s.me.await with
    | .none => false
    | .queue _ => false
    | _ => true)

/-- The first queue register that the instruction must wait for (R227): a source without the entries it needs, or a destination
without room. (DEDUCED, assumption 23) -/
def queueWait (i : Instr) (s : State) : Option Nat :=
  let fs := i.fields.filter fun x => 48 ≤ x.code.toNat && x.code.toNat < 56 && x.slot ≠ .qq && x.slot ≠ .unused && x.slot ≠ .tn
    && x.slot ≠ .tl
  let bad (x : Field) : Bool :=
    let q := x.code.toNat - 48
    let n := s.myOt.count q
    !(slotDest x.slot && s.hasRoom i q) &&
      ((if slotDest x.slot then n + s.queueReserved q ≥ queueDepth q
        else n < (fs.filter fun y => y.code = x.code && !slotDest y.slot).length) || s.behind (.queue q))
  if s.me.data ≠ [] then none else (fs.find? bad).map fun x => x.code.toNat - 48

/-- What a push must wait for beside room: it is a release (R228). -/
def pushWait (i : Instr) (s : State) : Bool :=
  (s.ownPushed || s.ownFetch) && i.fields.any fun x => slotDest x.slot && x.slot ≠ .kd && 48 ≤ x.code.toNat && x.code.toNat < 56

/-- Whether an instruction is a command that the vector engine's queue takes with its operands captured (R223, R225): vector arithmetic,
comparisons, selection, conversions, reductions, permutes and special functions. -/
def isVecOp (i : Instr) : Bool :=
  let op := instrOp i
  op = 0x20 || op = 0x22 || (op = 0x21 && instrFn i ≤ 5)

/-- Whether an instruction of a C-core is a command of its vector engine (R223): vector arithmetic, `sbind`, and every use of a bound stream. -/
def State.vecCmd (s : State) (i : Instr) : Bool :=
  isVecOp i || (instrOp i = 0x23 && instrFn i = 3) ||
    i.fields.any fun x => 40 ≤ x.code.toNat && x.code.toNat < 48 && x.slot ≠ .tn && x.slot ≠ .tl && x.slot ≠ .strmS &&
      s.cur.isC && (Tbl.get {} (s.tile s.myTile).strm (x.code.toNat - 16)).bound

/-- Whether an instruction names a register that a command in the vector engine's queue has still to write: as a source or its predicate, or, but for a
command that queues behind it, as its destination. It waits for that command. (DEDUCED, assumption 26) -/
def vecWait (i : Instr) (s : State) : Bool :=
  let reads (k : Sys2Proof.Slot) : Bool := match k with
    | .v _ | .vn | .f | .ks => true
    | _ => false
  let writes (k : Sys2Proof.Slot) : Bool := !isVecOp i && (slotDest k)
  let before (e : VecCmd) : Bool := match s.me.line with
    | some n => e.stage ≠ .own n
    | none => true
  s.cur.isC && s.me.data = [] && ((s.tile s.myTile).vecQ.takeWhile before).any fun e => (match e.stage with
    | .held o => (match o.dst with
      | .f n => i.fields.any fun x => x.code.toNat = n + 16 && x.slot ≠ .ks && x.slot ≠ .kd && (reads x.slot || writes x.slot)
      | .k n => (i.pred.any fun p => p.1 = n) || i.fields.any fun x => x.code.toNat = n && ((x.slot = .ks) || (x.slot = .kd && writes x.slot)))
    | _ => false)

-- Traps

/-- A handler exists when `VEC` ≠ 0 and `INH` = 0 (R312). -/
def Ctx.hasHandler (c : Ctx) : Bool := c.vec ≠ 0 && !c.inh

/-- Taking a trap (R312): `CODE`, `RPC`, `ARG`, `INH` and the jump to `VEC`, in one step; nothing else of the context changes, and
it no longer waits. -/
def Ctx.trapEntry (c : Ctx) (code : Nat) (arg rpc : Word) : Ctx :=
  { c.settled with code := w64 code, rpc := rpc, arg := arg, inh := true, pc := c.vec }

/-- Return from a trap (R315): PC = `RPC` and `INH` = 0. -/
def Ctx.trapReturn (c : Ctx) : Ctx := { c with pc := c.rpc, inh := false }

/-- The executing context no longer waits for anything. -/
@[simps] def State.unwait (s : State) : State := { s with waiters := s.waiters.filter fun e => e.1 ≠ s.myKey }

/-- The entry point of the firmware image in force (R77, R29). -/
def State.firmwareEntry (s : State) : Word :=
  match s.fwImage with
  | some b => Config.imageEntry b
  | none => Config.firmwareEntry

/-- A firmware core restarts at the entry point of its image (R77): its private window at its reset values, its timers kept, its
ordering locks released. (DEDUCED, assumption 25) -/
def State.resetFw (s : State) (n : Nat) : State :=
  let s := s.setFw n { up := (s.fw n).up, timers := (s.fw n).timers }
  let s := s.setCore (.fc n) {}
  s.setCtx (ctxKey (.fc n) 0) { st := .running, pc := s.firmwareEntry, cycFrom := s.now }

/-- A trap without a handler (R313): a tile's launch faults with status 4, a control core stops (R202), a firmware core is reset
(R77), each with its ERROR event. (DEDUCED, assumption 25) -/
def State.noHandler (s : State) (code : Nat) : State :=
  match s.cur with
  | .a t | .c t =>
    let sid := s.me.strandId.toNat
    (s.discardLaunch s.me.launch 4).raiseError 7 (w64 t) (w64 (code ||| sid <<< 32))
  | .cc n =>
    let s := s.setCc n { s.cc n with on := false }
    (s.setMe s.me.settled).raiseError 6 (w64 n) (w64 code)
  | .fc n => (s.resetFw n).raiseError 3 (w64 n) (w64 code)

/-- A trap of the executing context with code, `ARG` and `RPC` (R312, R313). -/
def State.takeTrap (s : State) (code : Nat) (arg rpc : Word) : State :=
  let s := s.unwait
  if s.me.hasHandler then s.setMe (s.me.trapEntry code arg rpc) else s.noHandler code

-- Blocking and completion

/-- Whether what is waited for keeps an order of arrival of its own (R227, R325, R335). -/
def Await.ordered : Await → Bool
  | .queue _ => true
  | .full _ => true
  | .empty _ => true
  | .ring _ => true
  | _ => false

/-- Whether what is waited for is a word's full/empty bit (R325). -/
def Await.synced : Await → Bool
  | .full _ => true
  | .empty _ => true
  | _ => false

/-- A waiting access keeps its place among those that wait, and one that has reached a word's full/empty bit keeps it there while a watermark or its
page holds it up; one that comes to another queue register, word or ring takes the last place there (R227, R325, R335). -/
def waitersPut (l : List (Nat × Await)) (k : Nat) (a : Await) : List (Nat × Await) :=
  if (l.any fun e => e.1 = k) && (!a.ordered || l.contains (k, a)) then
    l.map fun e => if e.1 = k && !(e.2.synced && !a.ordered) then (k, a) else e
  else (l.filter fun e => e.1 ≠ k) ++ [(k, a)]

/-- The executing context becomes Blocked at an instruction, or before the fetch of one (R162). -/
def State.blockAt (s : State) (i : Option Instr) (a : Await) : State :=
  let s := s.setMe { s.me with st := .blocked, await := a, waitAt := i }
  let cs := s.myCore
  let s := if s.cur.isTile && cs.run = some s.curX then s.setMyCore { cs with run := none } else s
  { s with waiters := waitersPut s.waiters s.myKey a }

/-- The executing context becomes Blocked at its instruction. (DEDUCED, assumption 68) -/
def State.block (s : State) (i : Instr) (a : Await) : State := s.blockAt (some i) a

/-- The registers freed by the last-use bits of an instruction (R290), one that is also the destination (the data register of an atomic is both, R329)
staying live; a k-register destination is none of them, though its code is that of a g-register (R282). g-registers as a mask, and
f-registers as a mask. (DEDUCED, assumption 18) -/
def lastUse (i : Instr) : BitVec 16 × BitVec 32 :=
  let fs := i.fields
  let dest (c : BitVec 6) : Bool := (fs.any fun x => slotDest x.slot && x.slot ≠ .kd && x.code = c) || (instrOp i = 0x11 && fs.getLast?.map Field.code = some c)
  fs.foldl (fun m x =>
    let n := x.code.toNat
    if !x.last || dest x.code then m
    else if n < 16 then (m.1 ||| BitVec.twoPow 16 n, m.2)
    else if n < 48 then (m.1, m.2 ||| BitVec.twoPow 32 (n - 16))
    else m) (0, 0)

/-- An instruction completes: last-use bits apply, and the context waits for nothing. -/
def State.finish (s : State) (i : Instr) : State :=
  let m := lastUse i
  let c := s.me
  let s := s.setMe { c.settled with live := c.live &&& ~~~ m.1 }
  let s := if m.2 = 0 then s else s.setMyCore { s.myCore with fdead := s.myCore.fdead ||| m.2 }
  s.unwait

/-- What an instruction has popped between two states: the entries that its queue registers had, and the streams whose positions it has moved. -/
def State.popped (s k : State) : Undo :=
  let gone {α : Type} (l r : List α) : List α := l.take (l.length - r.length)
  { q := s.myOt.q.map fun (e : Nat × List Word) => (e.1, gone e.2 (Tbl.get [] k.myOt.q e.1))
    qv := s.myOt.qv.map fun (e : Nat × List VReg) => (e.1, gone e.2 (Tbl.get [] k.myOt.qv e.1))
    strm := ((s.tile s.myTile).strm.filter fun e => (Tbl.get {} (k.tile s.myTile).strm e.1).pos ≠ e.2.pos).map fun e =>
      ({ n := e.1, pos := e.2.pos, ovr := e.2.ovr, fetched := e.2.fetched, reg := Tbl.get {} s.myCore.f e.1 } : UndoStrm) }

/-- The elements that a stream holds again from a position: those it held there, and what it has fetched since where nothing is missing between. -/
def refetched (pos : Nat) (was now : List (Nat × BitVec 32 × Bool)) : List (Nat × BitVec 32 × Bool) :=
  let n := pos + was.length
  was ++ (match now with
    | e :: _ => if e.1 ≤ n then now.filter fun x => n ≤ x.1 else []
    | [] => [])

/-- A trap puts back what an instruction that acts by lanes had popped before it waited (R294, R312). (DEDUCED, assumption 23) -/
def State.unpop (s : State) (i : Instr) : State :=
  match (if byLanes i then s.me.undo else none) with
  | none => s
  | some u =>
    let o := s.myOt
    let s := s.setMyOt { o with
      q := u.q.foldl (fun m e => Tbl.set [] m e.1 (e.2 ++ Tbl.get [] m e.1)) o.q
      qv := u.qv.foldl (fun m e => Tbl.set [] m e.1 (e.2 ++ Tbl.get [] m e.1)) o.qv }
    u.strm.foldl (fun s e =>
      let tl := s.tile s.myTile
      let v : Stream := Tbl.get {} tl.strm e.n
      let s := s.setTile s.myTile { tl with
        strm := Tbl.set {} tl.strm e.n { v with pos := e.pos, ovr := e.ovr, fetched := refetched e.pos e.fetched v.fetched } }
      s.setMyCore { s.myCore with f := Tbl.set {} s.myCore.f e.n e.reg }) s

/-- A state in which an access has failed or waits, with the context, its queue registers and the positions of the bound streams
as they stood before the instruction: it has popped, pushed and taken nothing. `sbind` and `sunbind` keep what they do to a binding. A vector store
that has performed some of its lanes keeps its operands, those lanes and their flags (R263), and what it has popped for a trap to put back.
(DEDUCED, assumption 24) -/
def State.backTo (k s : State) (i : Instr) : State :=
  let part := byLanes i && k.me.data ≠ []
  let undo := if part then some (s.me.undo.getD (s.popped k)) else s.me.undo
  let k := k.setMe { s.me with
    act := k.me.act, data := k.me.data, lanes := k.me.lanes, line := k.me.line, regs := k.me.regs, undo := undo,
    aflags := if part then k.me.aflags else s.me.aflags }
  if !s.cur.isTile || part then k
  else
    let k := k.setMyOt { k.myOt with q := s.myOt.q, qv := s.myOt.qv }
    match i with
    | .sbind _ | .sunbind _ => k
    | _ => k.setTile s.myTile { k.tile s.myTile with
        strm := (s.tile s.myTile).strm.map fun (e : Nat × Stream) =>
          let v : Stream := Tbl.get {} (k.tile s.myTile).strm e.1
          (e.1, { e.2 with fetched := refetched e.2.pos e.2.fetched v.fetched, readFailed := v.readFailed }) }

/-- A trap keeps the flags of what its instruction has done (R252, R357). (DEDUCED, assumption 19) -/
def State.keepFlags (s k : State) : State := s.setMe { s.me with aflags := k.me.aflags }

/-- A vector command that waits at its strand takes its place in the engine's queue (R224). -/
def State.lineUp (s : State) (i : Instr) : State :=
  if s.cur.isC && s.vecCmd i && s.me.line.isNone then
    let (n, s) := s.newId
    let s := s.setTile s.myTile { s.tile s.myTile with
      vecQ := (s.tile s.myTile).vecQ ++ [{ ctx := s.myKey, flags := 0, launch := s.me.launch, stage := .own n }] }
    s.setMe { s.me with line := some n }
  else s

/-- How a native instruction that ended early leaves the machine. (DEDUCED, assumption 19) (DEDUCED, assumption 24) -/
def State.stopNative (s : State) (i : Instr) : Stop → State
  | .trap c a none => (s.unpop i).takeTrap c a s.me.pc
  | .trap c a (some k) => (((k.backTo s i).keepFlags k).unpop i).takeTrap c a s.me.pc
  | .trapNext a => s.takeTrap tcBkpt a (s.me.pc + 8)
  | .wait a k => ((k.backTo s i).lineUp i).block i a
  | .hold _ => s
  | .detour _ _ _ _ k => k
  | .done k => k.unwait

/-- A native instruction from decode to completion: the traps of R293 and R318, registers still to be written by the vector engine, the predicate, dead
sources, the queue registers, its effect with PC already at NPC, the last-use bits. An instruction that has waited passed its predicate when it
issued, and one that has performed some of its lanes has read its sources. -/
def State.runNative (s : State) (i : Instr) (body : M Unit) : State :=
  match decodeTrap i s with
  | some (c, a) => s.takeTrap c a s.me.pc
  | none =>
    if vecWait i s then s.block i .vector
    else if s.me.await = .none && !byLanes i && !s.predicate i then (s.setMe { s.me.settled with pc := s.me.pc + 8 }).unwait
    else if valueTrap i s then s.takeTrap tcIllop (encode i) s.me.pc
    else
      match if s.me.data = [] then staleField i s else none with
      | some r => s.takeTrap tcStale (w64 r) s.me.pc
      | none =>
        match queueWait i s with
        | some q => (s.issued i).block i (.queue q)
        | none =>
          if pushWait i s then (s.issued i).block i .stream
          else
            match body.run ((s.issued i).setMe { (s.issued i).me with pc := s.me.pc + 8 }) with
            | .ok (_, s') => s'.finish i
            | .error e => s.stopNative i e

/-- A native instruction as a step. (DEDUCED, assumption 17) (DEDUCED, assumption 23) -/
def native (i : Instr) (body : M Unit) (s : State) : Host.Outcome State Fault Refusal := .next (s.runNative i body)

/-- Whether the module serves (R29 to R31): its dies, its firmware and its engines run. (DEDUCED, assumption 42) -/
def State.serving (s : State) : Bool := s.service = .reduced || s.service = .full

/-- A checkpoint or restore in progress: kicks fetch no packets, nothing starts (R28); also while a failed restore keeps the module stopped. -/
def State.ckptBusy (s : State) : Bool := s.ckpt.status = 1 || s.ckpt.status = 2 || s.ckpt.status = 7 || s.ckpt.stopped

/-- One of the machine's own steps, its conditions and its effect: where a condition fails, or while the module does not serve, the turn passes
without effect. (DESIGN CHOICE, assumption 9) -/
def event (f : State → Option State) (s : State) : Host.Outcome State Fault Refusal := .next (if s.serving then (f s).getD s else s)

/-- A step that the module also takes while it does not serve. (DESIGN CHOICE, assumption 9) -/
def anyEvent (f : State → Option State) (s : State) : Host.Outcome State Fault Refusal := .next ((f s).getD s)

end Sys2Proof.Machine
end

