-- ==== Sys2Proof/Machine/Operands.lean ====
section
/-! DEFINITION. Register operands: scalar sources and destinations with their modifiers (R282, R290), queue registers (R226,
R227), and the addresses of formats M and J (R285, R286, R328). -/

namespace Sys2Proof.Machine

/-- g-register `n` of a context. -/
def Ctx.gReg (c : Ctx) (n : Nat) : Word := Tbl.get 0 c.g n

/-- A g-register written: it is live afterwards (R161). -/
def Ctx.setG (c : Ctx) (n : Nat) (v : Word) : Ctx := { c with g := Tbl.set 0 c.g n v, live := c.live ||| BitVec.twoPow 16 n }

/-- g-register `n` of the executing context. -/
def State.gReg (s : State) (n : Nat) : Word := s.me.gReg n

/-- A g-register of the executing context written. -/
def State.setG (s : State) (n : Nat) (v : Word) : State := s.setMe (s.me.setG n v)

/-- The oldest entry of scalar queue `q` popped. -/
def State.popQ (s : State) (q : Nat) : Word × State :=
  let o := s.myOt
  match Tbl.get [] o.q q with
  | [] => (0, s)
  | v :: r => (v, s.setMyOt { o with q := Tbl.set [] o.q q r })

/-- An entry pushed onto scalar queue `q`. -/
def State.pushQ (s : State) (q : Nat) (v : Word) : State :=
  let o := s.myOt
  s.setMyOt { o with q := Tbl.set [] o.q q (Tbl.get [] o.q q ++ [v]) }

/-- The oldest entry of vector queue `q` popped. -/
def State.popQV (s : State) (q : Nat) : VReg × State :=
  let o := s.myOt
  match Tbl.get [] o.qv q with
  | [] => ({}, s)
  | v :: r => (v, s.setMyOt { o with qv := Tbl.set [] o.qv q r })

/-- An entry pushed onto vector queue `q`. -/
def State.pushQV (s : State) (q : Nat) (v : VReg) : State :=
  let o := s.myOt
  s.setMyOt { o with qv := Tbl.set [] o.qv q (Tbl.get [] o.qv q ++ [v]) }

/-- A scalar source: a g-register, or the oldest entry of a queue register. -/
def readS (c : BitVec 6) : M Word :=
  if c.toNat < 16 then run fun s => (s.gReg c.toNat, s) else run fun s => s.popQ (c.toNat - 48)

/-- A scalar result: a g-register, or an entry of a queue register. -/
def writeS (c : BitVec 6) (v : Word) : M Unit :=
  upd fun s => if c.toNat < 16 then s.setG c.toNat v else s.pushQ (c.toNat - 48) v

/-- Z, then N, of a modifier field on a `w`-bit integer (R290): `signed` says whether Z reads it as two's complement. (DEDUCED, assumption 12) -/
def modInt (w : Nat) (m : BitVec 3) (signed : Bool) (v : BitVec w) : BitVec w :=
  let v := if m.getLsbD 0 && signed && v.msb then -v else v
  if m.getLsbD 1 then -v else v

/-- A scalar source with its modifiers. (DEDUCED, assumption 12) -/
def readSM (c : BitVec 6) (m : BitVec 3) (signed : Bool) : M Word := do
  let v ← readS c
  pure (modInt 64 m signed v)

/-- `sext(OFF, 20)` added to the base and the shifted index (R285). -/
def memAddr (x : FmtM) (s : State) : Word :=
  s.gReg x.base.toNat + (if x.idx = 0x3F then 0 else s.gReg x.idx.toNat <<< x.sc.toNat) + x.off.signExtend 64

/-- The address of an atomic (R328): a 17-bit offset; `amcas` has no index. -/
def atomAddr (x : FmtM) (cas : Bool) (s : State) : Word :=
  s.gReg x.base.toNat + (if x.idx = 0x3F || cas then 0 else s.gReg x.idx.toNat <<< x.sc.toNat) +
    (x.off.setWidth 17).signExtend 64

/-- The target of a format J branch at `pc` (R286). -/
def branchTarget (x : FmtJ) (pc : Word) : Word := pc + (x.off.signExtend 64 <<< 3)

/-- PC of the instruction, while its effect runs with PC at NPC. -/
def State.instrPc (s : State) : Word := s.me.pc - 8

/-- PC set. -/
def setPc (v : Word) : M Unit := upd fun s => s.setMe { s.me with pc := v }

-- Vector registers

/-- Lane `l` of a vector register. -/
def VReg.at (v : VReg) (l : Nat) : BitVec 32 := Tbl.get 0 v.lane l

/-- Whether lane `l` is poisoned. -/
def VReg.bad (v : VReg) (l : Nat) : Bool := v.poison.getLsbD l

/-- A vector register from its 64 lanes, each with its poison; a poisoned lane holds zero bits where it is computed (R341). -/
def VReg.ofFn (f : Nat → BitVec 32 × Bool) : VReg :=
  (List.range 64).foldr (fun l v =>
    let r := f l
    { lane := if r.1 = 0 then v.lane else (l, r.1) :: v.lane, poison := if r.2 then v.poison ||| BitVec.twoPow 64 l else v.poison })
    {}

/-- The lanes of `new` where a mask is 1, the others of `old` (R340). -/
def VReg.merge (old new : VReg) (act : BitVec 64) : VReg :=
  VReg.ofFn fun l => if act.getLsbD l then (new.at l, new.bad l) else (old.at l, old.bad l)

/-- Every lane of a vector register the same, none poisoned (R303). -/
def splat (v : BitVec 32) : VReg := VReg.ofFn fun _ => (v, false)

/-- f-register `n` of a core. -/
def CoreSt.fReg (c : CoreSt) (n : Nat) : VReg := Tbl.get {} c.f n

/-- f-register `n` of a core written: it is live afterwards (R290). -/
def State.setF (s : State) (c : Core) (n : Nat) (v : VReg) : State :=
  let k := s.core c
  s.setCore c { k with f := Tbl.set {} k.f n v, fdead := k.fdead &&& ~~~ (BitVec.twoPow 32 n) }

/-- Predicate register `n` of the executing core written. -/
def State.setK (s : State) (n : Nat) (v : Word) : State :=
  let c := s.myCore
  s.setMyCore { c with k := Tbl.set 0 c.k n v }

-- Elements of global pages (R246)

/-- The element size of a page format for vector access (R246, R356): 4 but for the narrower decoded formats. -/
def laneSize (pfmt : Option Nat) : Nat :=
  match pfmt with
  | some 2 | some 3 => 2
  | some 4 | some 5 | some 7 => 1
  | _ => 4

/-- The size of the element that a page format gives a scalar access, if it decodes one (R323). -/
def elemSize (pfmt : Option Nat) : Option Nat :=
  match pfmt with
  | some 1 => some 4
  | some 2 | some 3 => some 2
  | some 4 | some 5 | some 7 => some 1
  | _ => none

/-- A code of a float format widened exactly to FP32 bits; a NaN becomes the canonical one (R241, R246). -/
def widen (f : Fmt) (c : Nat) : BitVec 32 := BitVec.ofNat 32 (roundFmt fp32 .rne false (f.decode c) {}).1

/-- A value rounded to a page's float format (R248), on FP32 bits. -/
def narrowTo (f : Fmt) (m : Rnd) (v : BitVec 32) (p : Fp) : Nat × Fp := roundFmt f m false (fp32.decode v.toNat) p

/-- A 32-bit lane read from memory (R246): the raw bytes of an element of `n` bytes, decoded where the page's format has that size. -/
def laneOf (pfmt : Option Nat) (n v : Nat) : BitVec 32 :=
  if elemSize pfmt ≠ some n then BitVec.ofNat 32 v
  else if pfmt = some 7 then (BitVec.ofNat 8 v).signExtend 32
  else
    match fmtOfPage (pfmt.getD 0) with
    | some f => if n = 4 then BitVec.ofNat 32 v else widen f v
    | none => BitVec.ofNat 32 v

/-- INT8 saturation of a stored value (R246): the byte, and `SAT` when it changed. -/
def satByte (x : Int) : Nat × BitVec 6 :=
  let r := max (-128) (min 127 x)
  ((BitVec.ofInt 8 r).toNat, if r ≠ x then flSat else 0)

/-- The bytes that a 32-bit lane stores as an element of `n` bytes (R246). -/
def laneBytes (pfmt : Option Nat) (n : Nat) (m : Rnd) (v : BitVec 32) (p : Fp) : Nat × Fp :=
  if elemSize pfmt ≠ some n then (v.toNat % 256 ^ n, p)
  else if pfmt = some 7 then
    let r := satByte v.toInt
    (r.1, p.raise r.2)
  else
    match fmtOfPage (pfmt.getD 0) with
    | some f => if n = 4 then (v.toNat, p) else narrowTo f m v p
    | none => (v.toNat % 256 ^ n, p)

/-- The page of an address translated whatever it permits, for its format: as a read, else as the access (R356). (DEDUCED, assumption 20) -/
def State.pageLeaf (s : State) (va : Nat) (k : AccKind) : Trans × State :=
  match s.translate s.cur.agent s.myPasid va .read with
  | (.fault, s) => s.translate s.cur.agent s.myPasid va k
  | r => r

/-- The format of the page that holds an address, from which a vector access takes its element size (R356): none outside the
global window or where the page is failed. (DEDUCED, assumption 20) -/
def pageFmt (a : Word) (k : AccKind) : M (Option Nat) := fun s =>
  match s.window a 1 with
  | .ok (.glob va) =>
    if s.me.failed.contains (va / 65536) then .ok (none, s)
    else
      match s.pageLeaf va k with
      | (.fault, s) =>
        let (n, s) := s.openTicket s.cur.agent s.myPasid va k true
        .error (.wait (.ticket n) s)
      | (.wait, s) => .error (.wait .hold s)
      | (.ok e, s) => .ok (some (leafPfmt e.leaf), s)
  | _ => .ok (none, s)

/-- The checks on an address of `n` bytes before any access (R98, R99, R285, R294): its window, then its alignment. (DEDUCED, assumption 13) -/
def checkAddr (a : Word) (n : Nat) : M Unit := fun s =>
  match s.window a n with
  | .error c => .error (.trap c a none)
  | .ok _ => if a.toNat % n = 0 then .ok ((), s) else .error (.trap tcMisalign a none)

/-- One lane of a vector load at its place: value and poison. -/
def loadLane (p : Place) (n : Nat) : M (BitVec 32 × Bool) :=
  match p with
  | .key k f => do
    let (v, b) ← run fun s => s.load k n
    pure (if b then (0, true) else (laneOf f n v, false))
  | .remoteBad t off => do
    upd fun s => s.remoteError t off s.cur.agent
    pure (0, true)
  | _ => pure (0, true)

/-- A rounding of a store, on the tile's stochastic source, its flags raised at once (R248, R249). (DEDUCED, assumption 71) -/
def withLaneFp {α : Type} (f : Fp → α × Fp) : M α := run fun s =>
  let t := s.myTile
  let r := f { seed := (s.tile t).rndseed, flags := 0 }
  let s := if s.cur.isTile && r.2.seed ≠ (s.tile t).rndseed then s.setTile t { s.tile t with rndseed := r.2.seed } else s
  (r.1, s.setMe { s.me with aflags := s.me.aflags ||| r.2.flags })

/-- An element of `n` bytes written for a C-core by its engine (R246, R362): a poisoned one writes a poisoned word and is not rounded. With it the
flags of its rounding. -/
def State.putElem (s : State) (t k : Nat) (f : Option Nat) (n : Nat) (rm : BitVec 3) (v : BitVec 32) (bad : Bool) : BitVec 6 × State :=
  if bad then (0, s.store k n 0 true)
  else
    let r := laneBytes f n (rndMode 0 rm.toNat) v { seed := (s.tile t).rndseed, flags := 0 }
    let s := if r.2.seed ≠ (s.tile t).rndseed then s.setTile t { s.tile t with rndseed := r.2.seed } else s
    (r.2.flags, s.store k n r.1 false)

/-- One lane of a vector store at its place, with the flags of its rounding: a poisoned lane writes a poisoned word and is not rounded; a failed
page is not written. (DEDUCED, assumption 16) -/
def storeLane (p : Place) (n : Nat) (v : BitVec 32) (bad : Bool) : M Unit :=
  match p with
  | .key k f => upd fun s =>
    let r := s.putElem s.myTile k f n s.me.rm v bad
    r.2.setMe { r.2.me with aflags := r.2.me.aflags ||| r.1 }
  | .remoteBad t off => upd fun s => s.remoteError t off s.cur.agent
  | _ => pure ()

-- Streams

/-- Stream register `n` of the executing tile. -/
def State.strm (s : State) (t n : Nat) : Stream := Tbl.get {} (s.tile t).strm n
def State.setStrm (s : State) (t n : Nat) (v : Stream) : State :=
  s.setTile t { s.tile t with strm := Tbl.set {} (s.tile t).strm n v }

/-- Whether f-register `n` is a bound stream of the executing core. -/
def State.streaming (s : State) (n : Nat) : Bool := s.cur.isC && 24 ≤ n && n < 32 && (s.strm s.myTile n).bound

/-- The element that a bound read stream fetches next, fetched by the tile itself for the strand that bound it: it is a load of that strand's `sbind`,
in its stack window, after the stores of the strand that are still to be performed there (R362, R264). None while it waits. An element on a failed
page, in no window, or behind a failed remote check reads as poison (R112, R99). (DEDUCED, assumption 94) -/
def State.fetchElem (s : State) (t n : Nat) : Option (BitVec 32 × Bool) × State :=
  let v := s.strm t n
  let a := v.addr ((s.tile t).fetchAt n)
  let key := ctxKey (.c t) v.ctx
  if v.readFailed.contains (a.toNat / 65536) then (some (0, true), s.setStrm t n { v with readFailed := [] })
  else
    let own := match s.tileWindow t v.ctx false (s.launch v.launch) a v.esz with
      | .ok w => s.pushesAt t key w v.esz || (match w with
        | .spad t' off _ => s.sentAt key t' off v.esz
        | _ => false)
      | .error _ => false
    if own then (none, s)
    else
      match s.engAccess t v.ctx false v.launch a v.esz .read (fetchWork t v.id) true with
      | (.ok ((k, _, f) :: _), s) =>
        if f = some 15 then (some (0, true), s)
        else
          let ((x, b), s) := s.load k v.esz
          (some (if b then (0, true) else (laneOf f v.esz x, false)), s)
      | (.remoteBad t' off, s) => (some (0, true), s.remoteError t' off t)
      | (.noWin, s) => (some (0, true), s)
      | (_, s) => (none, s)

/-- The next element of a bound read stream enters its prefetch window (R362): whether it has. -/
def State.fetchNext (s : State) (t n : Nat) : Bool × State :=
  let p := (s.tile t).fetchAt n
  match s.fetchElem t n with
  | (some e, s) => (true, s.setStrm t n { s.strm t n with fetched := (s.strm t n).fetched ++ [(p, e.1, e.2)] })
  | (none, s) => (false, s)

/-- The elements of a bound read stream below ordinal `q` fetched in order as far as they go. -/
def State.fillGo (s : State) (t n q : Nat) : Nat → State
  | 0 => s
  | fuel + 1 =>
    if min q (strmLen (s.strm t n).desc) ≤ (s.tile t).fetchAt n then s
    else
      match s.fetchNext t n with
      | (true, s) => s.fillGo t n q fuel
      | (false, s) => s

/-- The elements of a window of `vl` elements from `p` fetched as far as they go. -/
def State.fill (s : State) (t n p vl : Nat) : State := s.fillGo t n (p + vl) (p + vl - (s.tile t).fetchAt n)

/-- Whether a window of `vl` elements from `p` has all its elements, or runs past the stream (R239). -/
def State.windowReady (s : State) (t n p vl : Nat) : Bool := min (p + vl) (strmLen (s.strm t n).desc) ≤ (s.tile t).fetchAt n

/-- A window taken (R239): its elements in lanes 0 to `vl` - 1, zero past L, the other lanes as they were; the register holds it, and the elements
are gone from the prefetch window. -/
def State.takeWindow (s : State) (t n p vl : Nat) : VReg × State :=
  let v := s.strm t n
  let c := s.core (.c t)
  let old : VReg := Tbl.get {} c.f n
  let r := VReg.ofFn fun l =>
    if vl ≤ l then (old.at l, old.bad l)
    else
      match v.fetched.find? fun e => e.1 = p + l with
      | some e => if p + l < strmLen v.desc then e.2 else (0, false)
      | none => (0, false)
  (r, (s.setStrm t n { v with fetched := v.fetched.filter fun e => min (p + vl) (strmLen v.desc) ≤ e.1 }).setCore (.c t)
    { c with f := Tbl.set {} c.f n r })

/-- The addresses of the next `vl` elements of a stream, checked as those of loads of the strand that bound it (R98, R99, R294). -/
def windowCheck (n vl : Nat) : M Unit := do
  let s ← get
  let v := s.strm s.myTile n
  (List.range vl).forM fun l =>
    let a := v.addr (v.pos + l)
    if strmLen v.desc ≤ v.pos + l then pure ()
    else
      match s.tileWindow s.myTile v.ctx false (s.launch v.launch) a v.esz with
      | .error c => trapM c a
      | .ok _ => need (a.toNat % v.esz = 0) tcMisalign a

/-- The position of a stream moved on by `vl`, stopped at L with `OVR` (R239). -/
def Stream.advance (v : Stream) (vl : Nat) : Stream :=
  { v with pos := min (strmLen v.desc) (v.pos + vl), ovr := v.ovr || strmLen v.desc < v.pos + vl }

/-- The next window of a read stream named, for a command that takes it later: register and first ordinal. -/
def nameWindow (n vl : Nat) : M VecSrc := do
  windowCheck n vl
  let s ← get
  let p := (s.strm s.myTile n).pos
  upd fun s => s.setStrm s.myTile n ((s.strm s.myTile n).advance vl)
  pure (.win n p)

/-- The next window of a read stream (R239): `VL` elements, the position moved on and stopped at L; it waits for its elements. -/
def streamWindow (n : Nat) : M VReg := do
  let s ← get
  let vl := s.me.vl
  let p := (s.strm s.myTile n).pos
  windowCheck n vl
  upd fun s => s.fill s.myTile n p vl
  let s ← get
  if s.windowReady s.myTile n p vl then do
    upd fun s => s.setStrm s.myTile n ((s.strm s.myTile n).advance vl)
    run fun s => s.takeWindow s.myTile n p vl
  else waitM .stream

/-- The oldest pushed element of a stream leaves it, discarded: `FAULT`, and the lowest address kept (R362, R363). -/
def State.dropPushed (s : State) (t n : Nat) : State :=
  let v := s.strm t n
  match v.pushed with
  | [] => s
  | q :: r =>
    let a := v.addr q.p
    let low := match v.lowest with
      | some w => if w.toNat ≤ a.toNat then w else a
      | none => a
    s.setStrm t n { v with pushed := r, fault := true, lowest := some low }

/-- The oldest pushed element of a stream performed with the rounding mode, in the launch and the stack window of the strand that pushed it
(R362); one whose translation fails is discarded. False where it has to wait. -/
def State.performOne (s : State) (t n : Nat) : Bool × State :=
  let v := s.strm t n
  match v.pushed with
  | [] => (false, s)
  | q :: r =>
    if v.failed.contains ((v.addr q.p).toNat / 65536) then (true, (s.setStrm t n { v with failed := [] }).dropPushed t n)
    else
      match s.engAccess t q.x false q.launch (v.addr q.p) v.esz .write (pushWork t v.id) true with
      | (.ok ((k, _, f) :: _), s) =>
        if f = some 15 then (true, s.dropPushed t n)
        else
          let e := s.putElem t k f v.esz q.rm q.v q.bad
          let s := e.2.setStrm t n { e.2.strm t n with pushed := r }
          let c := s.ctx q.ctx
          (true, if e.1 = 0 || c.st = .free then s else s.setCtx q.ctx { c with aflags := c.aflags ||| e.1 })
      | (.remoteBad t' off, s) => (true, (s.remoteError t' off t).setStrm t n { s.strm t n with pushed := r })
      | (.noWin, s) => (true, s.dropPushed t n)
      | (_, s) => (false, s)

/-- The pushed elements of a stream performed in ordinal order as far as they go (R362). -/
def State.performGo (s : State) (t n : Nat) : Nat → State
  | 0 => s
  | fuel + 1 =>
    match s.performOne t n with
    | (true, s) => s.performGo t n fuel
    | (false, s) => s

/-- What a stream has pushed, performed; what waits stays pushed. -/
def State.performPushed (s : State) (t n : Nat) : State := s.performGo t n (s.strm t n).pushed.length

/-- A vector source (R342): an f-register, the next window of a bound read stream, or a popped vector. -/
def readV (c : BitVec 6) : M VReg := do
  let s ← get
  if 48 ≤ c.toNat then run fun s => s.popQV (c.toNat - 48)
  else if s.streaming (c.toNat - 16) then streamWindow (c.toNat - 16)
  else pure (s.myCore.fReg (c.toNat - 16))

/-- The addresses that the next `VL` elements of a write stream go to, checked as those of stores (R98, R99, R294). -/
def pushCheck (n : Nat) : M Unit := do
  let s ← get
  let w := s.strm s.myTile n
  (List.range s.me.vl).forM fun l => if w.pos + l < strmLen w.desc then checkAddr (w.addr (w.pos + l)) w.esz else pure ()

/-- Lanes 0 to `vl` - 1 of a bound write stream's register pushed to its elements from `p` (R239), those past L discarded, and performed as far as they
go; the position stands beyond them already. -/
def State.pushFrom (s : State) (t n p vl : Nat) (ctx : Nat) (rm : BitVec 3) (u x : Nat) : State :=
  let w := s.strm t n
  let v : VReg := Tbl.get {} (s.core (.c t)).f n
  let new := (List.range vl).filterMap fun l =>
    if p + l < strmLen w.desc then some ({ p := p + l, v := v.at l, bad := v.bad l, ctx := ctx, rm := rm, launch := u, x := x } : Pushed) else none
  (s.setStrm t n { w with pushed := w.pushed ++ new }).performPushed t n

/-- Lanes 0 to `VL` - 1 of a bound write stream's register pushed to its next elements (R239): those past L are discarded. -/
def pushLanes (n : Nat) : M Unit := do
  pushCheck n
  upd fun s =>
    let w := s.strm s.myTile n
    (s.setStrm s.myTile n (w.advance s.me.vl)).pushFrom s.myTile n w.pos s.me.vl s.myKey s.me.rm s.me.launch s.curX

/-- A vector result in the lanes of a mask (R340): an f-register, with the next elements where it is a bound write stream (R239), or one entry of
a vector queue with all 64 lanes. -/
def writeV (c : BitVec 6) (act : BitVec 64) (v : VReg) : M Unit := do
  let s ← get
  let n := c.toNat - 16
  if 48 ≤ c.toNat then upd fun s => s.pushQV (c.toNat - 48) v
  else do
    upd fun s => s.setF s.cur n ((s.myCore.fReg n).merge v act)
    if s.streaming n then pushLanes n else pure ()

end Sys2Proof.Machine
end

