-- ==== Sys2Proof/Machine/Flags.lean ====
section
/-! DEFINITION. `AFLAGS` (R252) and the rounding context of an instruction (R247, R249): the flags a scalar instruction raises, and
those of a vector command, which enter `AFLAGS` when it completes (R253). -/

namespace Sys2Proof.Machine

/-- Flags raised in the executing context (R252). -/
def raiseFlags (f : BitVec 6) : M Unit := upd fun s => s.setMe { s.me with aflags := s.me.aflags ||| f }

/-- `SAT` of R297: set when a clamped result was cut. -/
def satFlag (b : Bool) : BitVec 6 := if b then flSat else 0

/-- `DIVZERO` of R242 and R297. -/
def divFlag (b : Bool) : BitVec 6 := if b then flDivzero else 0

/-- The tile's stochastic source stored back (R249). -/
def State.setSeed (s : State) (t : Nat) (v : BitVec 32) : State := s.setTile t { s.tile t with rndseed := v }

/-- A computation that rounds and raises flags, on the tile's stochastic source: its result and flags. (DEDUCED, assumption 71) -/
def withFp {α : Type} (f : Fp → α × Fp) : M (α × BitVec 6) := run fun s =>
  let t := s.myTile
  let r := f { seed := (s.tile t).rndseed, flags := 0 }
  ((r.1, r.2.flags), if s.cur.isTile && r.2.seed ≠ (s.tile t).rndseed then s.setSeed t r.2.seed else s)

/-- A computation that rounds, its flags raised in the executing context at once. -/
def withFlags {α : Type} (f : Fp → α × Fp) : M α := do
  let (r, fl) ← withFp f
  raiseFlags fl
  pure r

/-- The rounding mode of an instruction whose `RM` field is `rm` (R247, R287). -/
def roundOf (rm : BitVec 3) (s : State) : Rnd := rndMode rm.toNat s.me.rm.toNat

-- The vector engine's queue (R224)

/-- The entries of the vector engine's queue that stand on a tile: one that waits at its strand stands while that strand waits there. -/
def State.vecEntries (s : State) (t : Nat) : List VecCmd := (s.tile t).vecQ.filter fun e => (match e.stage with
  | .own n => (s.ctx e.ctx).line = some n
  | _ => true)

/-- Whether an entry is the executing context's own place in the queue. -/
def State.ownPlace (s : State) (e : VecCmd) : Bool := (match s.me.line with
  | some n => e.stage = .own n
  | none => false)

/-- A vector command that its strand performs leaves its flags in the queue (R253), at the place that it has there. -/
def State.queuedFlags (s : State) (f : BitVec 6) : State :=
  let e : VecCmd := { ctx := s.myKey, flags := f, launch := s.me.launch }
  let q := (s.tile s.myTile).vecQ
  s.setTile s.myTile { s.tile s.myTile with vecQ := if q.any s.ownPlace then q.map fun o => if s.ownPlace o then e else o else q ++ [e] }

/-- A vector command of the executing context enters its engine with the flags it will raise (R253). -/
def queueFlags (f : BitVec 6) : M Unit := upd fun s => s.queuedFlags f

/-- The turn of a vector command that its strand performs: the queue holds two entries, and a full one holds the core; a command that waits holds those
behind it (R224). One that has performed some of its lanes has begun. (DEDUCED, assumption 97) -/
def vecTurn : M Unit := do
  let s ← get
  let q := s.vecEntries s.myTile
  if s.me.data ≠ [] then pure ()
  else if !q.any s.ownPlace && 2 ≤ q.length then holdM
  else if (q.takeWhile fun e => !s.ownPlace e).any fun e => e.stage ≠ .done then waitM .vector
  else pure ()

/-- An instruction that is a vector command only where it names a bound stream register (R223). -/
def strmCmd (i : Instr) (m : M Unit) : M Unit := do
  let s ← get
  if s.cur.isC && s.vecCmd i then do
    vecTurn
    m
    queueFlags 0
  else m

end Sys2Proof.Machine
end

