-- ==== Sys2Proof/Machine/Overlay.lean ====
section
/-! DEFINITION. The queue directory and the queue control blocks as a firmware core sees them in its address space (R84 to R87, R90): the state
of the queues stands behind these addresses. -/

namespace Sys2Proof.Machine

/-- `QSTAT` (R39). -/
def UQueue.stat (q : UQueue) : Word := w64 (q.ridx.toNat <<< 32 ||| q.err.toNat <<< 24 ||| q.gen.toNat <<< 8 ||| q.state.toNat)

/-- The queue directory entry of a queue (R84). -/
def State.qdirOf (s : State) (q : Nat) : Word := Tbl.get 0 s.qdir q
@[simps] def State.setQdir (s : State) (q : Nat) (v : Word) : State := { s with qdir := Tbl.set 0 s.qdir q v }

/-- `PEND` set, with one KICK when it rises (R90). -/
def State.setPend (s : State) (q : Nat) : State :=
  let d := s.qdirOf q
  if bit d 0 then s else (s.setQdir q (d ||| 1)).raiseEvent 1 (some q) 0 0 0

/-- What stands at an address of the firmware address space: a directory entry, or a word of a control block. -/
inductive Ovl where
  | dir (q : Nat)
  | qcb (q off : Nat)
  deriving DecidableEq, Repr

/-- The base address of the queue directory (R78). -/
def State.dirBase (s : State) : Nat := s.qdirBase.toNat / 2 ^ 15 * 2 ^ 15

/-- The directory entry or control block at a global address, for a firmware core. (DEDUCED, assumption 41) -/
def State.ovlAt (s : State) (a : Word) : Option Ovl :=
  let va := a.toNat
  let b := s.dirBase
  if !s.cur.isFc || 2 ^ 56 ≤ va || 0x00FFFFFFFF000000 ≤ va then none
  else if b ≤ va && va < b + 2 ^ 15 then some (.dir ((va - b) / 8))
  else (s.qdir.find? fun e => bit e.2 8 && bits e.2 55 12 = va / 4096).map fun e => .qcb e.1 (va % 4096 / 8 * 8)

/-- Bits of a window, one for each entry that satisfies `p`. -/
def winBits (w : Tbl WinEntry) (p : WinEntry → Bool) : Nat := w.foldl (fun m e => if p e.2 then m ||| 2 ^ e.1 else m) 0

/-- A word of a control block (R85). -/
def UQueue.qcbWord (u : UQueue) (off : Nat) : Word :=
  if off < 0x20 then w64 (u.record.toNat >>> (8 * off))
  else if off = 0x20 then u.stat
  else if off = 0x28 then w64 u.widx.toNat
  else if off = 0x30 then u.wm
  else if off = 0x38 then w64 (winBits u.win (fun _ => true) ||| winBits u.win (fun e => e.launched) <<< 32)
  else if off = 0x40 then u.sched
  else if 0x80 ≤ off && off < 0x100 then
    let j := (off - 0x80) / 4
    let idx (j : Nat) : Nat := match Tbl.find u.win j with
      | some e => e.idx.toNat
      | none => 0
    w64 (idx j ||| idx (j + 1) <<< 32)
  else if 0x100 ≤ off && off < 0x900 then
    match Tbl.find u.win ((off - 0x100) / 64) with
    | some e => w64 (e.pkt.toNat >>> (8 * (off % 64)))
    | none => 0
  else 0

def State.ovlRead (s : State) : Ovl → Word
  | .dir q => s.qdirOf q
  | .qcb q off => (s.queue q).qcbWord off

/-- The window of a control block whose words stand from a word key (R85): entries, their indexes and whether they have launched. -/
def State.winAt (s : State) (k : Nat) : Tbl WinEntry :=
  let w := s.wordAt (k + 7)
  (List.range 32).filterMap fun j =>
    if bit w j then
      let pkt : BitVec 512 := BitVec.ofNat 512 (Memory.read s.mem (8 * k + 0x100 + 64 * j) 64)
      some (j, { idx := BitVec.ofNat 32 (Memory.read s.mem (8 * k + 0x80 + 4 * j) 4), pkt := pkt, launched := bit w (32 + j) })
    else none

/-- A control block read from memory when its directory entry becomes valid (R87): all that it holds (R85). -/
def State.adoptQcb (s : State) (q : Nat) (va : Nat) : State :=
  match s.translate s.cur.agent 0 va .read with
  | (.ok e, s) =>
    let k := e.key va / 8
    let st := s.wordAt (k + 4)
    s.setQueue q { record := BitVec.ofNat 256 (Memory.read s.mem (8 * k) 32), ridx := BitVec.ofNat 32 (bits st 63 32),
                   err := BitVec.ofNat 8 (bits st 31 24), gen := BitVec.ofNat 16 (bits st 23 8), state := BitVec.ofNat 4 (bits st 3 0),
                   widx := (s.wordAt (k + 5)).setWidth 32, wm := s.wordAt (k + 6), win := s.winAt k,
                   sched := s.wordAt (k + 8) &&& 0xFFFFFFFF0000000F }
  | (_, s) => s

/-- The memory key of the directory, where its address translates for a firmware core. -/
def State.dirKey (s : State) (fc : Nat) : Option Nat × State :=
  match s.translate (0x1080 + fc) 0 s.dirBase .write with
  | (.ok e, s) => (some (e.key s.dirBase), s)
  | (_, s) => (none, s)

/-- A write of `QDIR_BASE` (R78): the directory that the hardware holds goes to memory at the old address, and the one that stands at the new address
takes its place, with the control blocks that it makes valid. (DEDUCED, assumption 41) -/
def State.moveDir (s : State) (fc : Nat) (v : Word) : State :=
  let base := v.toNat / 2 ^ 15 * 2 ^ 15
  if base = s.dirBase then { s with qdirBase := v }
  else
    let r := s.dirKey fc
    let s := match r.1 with
      | some k => r.2.qdir.foldl (fun (s : State) (e : Nat × Word) => s.store8 (k + 8 * e.1) e.2) (r.2.clearRange k (k + 2 ^ 15))
      | none => r.2
    let old := s.qdir
    let r := { s with qdirBase := v, qdir := [] }.dirKey fc
    match r.1 with
    | none => r.2
    | some k =>
      let new := (List.range 4096).filterMap fun q => if r.2.wordAt (k / 8 + q) = 0 then none else some (q, r.2.wordAt (k / 8 + q))
      new.foldl (fun (s : State) (e : Nat × Word) => if bit e.2 8 && !bit (Tbl.get 0 old e.1) 8 then s.adoptQcb e.1 (bits e.2 55 12 * 4096) else s)
        { r.2 with qdir := new }

/-- A whole word written: the fields that the firmware may write change (R84, R86, R87); `PEND` that rises raises one KICK (R90). (DEDUCED, assumption 41) -/
def State.ovlWrite (s : State) (o : Ovl) (v : Word) : State :=
  match o with
  | .dir q =>
    let d := s.qdirOf q
    let n := (d &&& 0xFE) ||| (v &&& 0x00FFFFFFFFFFF100)
    let s := s.setQdir q (n ||| (d &&& v &&& 1))
    let s := if bit v 8 && !bit d 8 then s.adoptQcb q (bits v 55 12 * 4096) else s
    if bit v 0 then s.setPend q else s
  | .qcb q off =>
    let u := s.queue q
    match off with
    | 0x20 =>
      s.setQueue q { u with ridx := BitVec.ofNat 32 (bits v 63 32), err := BitVec.ofNat 8 (bits v 31 24), gen := BitVec.ofNat 16 (bits v 23 8),
                            state := BitVec.ofNat 4 (bits v 3 0) }
    | 0x30 => s.setQueue q { u with wm := v }
    | 0x40 => s.setQueue q { u with sched := v &&& 0xFFFFFFFF0000000F }
    | _ => s

/-- `n` bytes within a word read or written. -/
def State.ovlBytes (s : State) (o : Ovl) (a : Word) (n : Nat) : Nat := ((s.ovlRead o).toNat >>> (8 * (a.toNat % 8))) % 256 ^ n
def State.ovlStore (s : State) (o : Ovl) (a : Word) (n v : Nat) : State :=
  s.ovlWrite o (putBits (s.ovlRead o) (8 * (a.toNat % 8)) (8 * n) (w64 v))

/-- The memory key behind an address of the directory or of a control block: its full/empty bit and its poison are those of the word there (R326); none
where the address does not translate, a failed access (R112). -/
def ovlPlace (ea : Word) (n : Nat) (k : AccKind) : M (Option Nat) := do
  match ← place ea n k with
  | .key k _ => pure (some k)
  | _ => pure none

/-- Such a word read by a load or an atomic of `n` bytes: its poison traps (R235), the value is what the queues hold. -/
def ovlLoad (o : Ovl) (ea : Word) (n k : Nat) : M Nat := do
  let (_, p) ← run fun s => s.load k n
  if p then trapKeep tcPoison ea
  else do
    let s ← get
    pure (s.ovlBytes o ea n)

/-- A write of `n` bytes of such a word, with what a store does to its word: full, and without poison where all of it is written (R233, R234). The
control block that a directory entry brings into use is read through its home. -/
def ovlPut (o : Ovl) (ea : Word) (n v : Nat) (key : Nat) : M Unit := do
  let s ← get
  match o with
  | .dir q => do
    let d := putBits (s.ovlRead o) (8 * (ea.toNat % 8)) (8 * n) (w64 v)
    if bit d 8 && !bit (s.qdirOf q) 8 then do
      let _ ← ovlPlace (w64 (bits d 55 12 * 4096)) 8 .read
      pure ()
    else pure ()
  | .qcb _ _ => pure ()
  upd fun s =>
    let s := s.ovlStore o ea n v
    s.storeWord key n (Memory.read s.mem key n) false

end Sys2Proof.Machine
end

