-- ==== Sys2Proof/Machine/Atomic.lean ====
section
/-! DEFINITION. Atomic read-modify-write (R328 to R330). -/

namespace Sys2Proof.Machine

/-- The `w`-bit value read as two's complement. -/
def signedOf (w m : Nat) : Int := (BitVec.ofNat w m).toInt

/-- The new value that an atomic writes, from the width, the value held, the operand and the expected value (R329). -/
abbrev AtomFn := Nat → Nat → Nat → Nat → Nat

def atSwap : AtomFn := fun _ _ s _ => s
def atAdd : AtomFn := fun w m s _ => (m + s) % 2 ^ w
def atAnd : AtomFn := fun _ m s _ => m &&& s
def atOr : AtomFn := fun _ m s _ => m ||| s
def atXor : AtomFn := fun _ m s _ => m ^^^ s
def atMin : AtomFn := fun w m s _ => if signedOf w m ≤ signedOf w s then m else s
def atMax : AtomFn := fun w m s _ => if signedOf w s ≤ signedOf w m then m else s
def atMinu : AtomFn := fun _ m s _ => min m s
def atMaxu : AtomFn := fun _ m s _ => max m s
def atCas : AtomFn := fun _ m s e => if m = e then s else m

/-- An atomic as one step (R329): with `ORD` 2 or 3 it is a release (R266, R328); poison traps and changes nothing (R330); the word is left full; g[DR]
takes the old value. -/
def atomBody (x : FmtM) (cas : Bool) (f : AtomFn) : M Unit := do
  let s ← get
  let ea := atomAddr x cas s
  let n := 2 ^ x.size.toNat
  let w := 8 * n
  checkAddr ea n
  if 2 ≤ x.ord.toNat then releaseM else pure ()
  let v := (s.gReg x.dr.toNat).toNat % 2 ^ w
  let e := (s.gReg x.idx.toNat).toNat % 2 ^ w
  match s.ovlAt ea with
  | some o => do
    match ← ovlPlace ea n .atomic with
    | none => trapKeep tcPoison ea
    | some k => do
      let m ← ovlLoad o ea n k
      ovlPut o ea n (f w m v e) k
      upd fun s => s.setG x.dr.toNat (w64 m)
  | none =>
  match ← place ea n .atomic with
  | .key k _ => do
    let (m, p) ← run fun s => s.load k n
    if p then trapKeep tcPoison ea
    else do
      upd fun s => s.store k n (f w m v e) false
      upd fun s => s.setG x.dr.toNat (w64 m)
  | .bad => trapKeep tcPoison ea
  | .remoteBad t off => do
    upd fun s => s.remoteError t off s.cur.agent
    trapKeep tcPoison ea
  | .ctl _ => trapM tcAperture ea
  | .onr _ _ => trapM tcAperture ea

/-- `amswap` (R329). -/
def execAmswap (x : FmtM) (s : State) : Host.Outcome State Fault Refusal :=
  native (.amswap x) (atomBody x false atSwap) s

/-- `amadd` (R329). -/
def execAmadd (x : FmtM) (s : State) : Host.Outcome State Fault Refusal :=
  native (.amadd x) (atomBody x false atAdd) s

/-- `amand` (R329). -/
def execAmand (x : FmtM) (s : State) : Host.Outcome State Fault Refusal :=
  native (.amand x) (atomBody x false atAnd) s

/-- `amor` (R329). -/
def execAmor (x : FmtM) (s : State) : Host.Outcome State Fault Refusal :=
  native (.amor x) (atomBody x false atOr) s

/-- `amxor` (R329). -/
def execAmxor (x : FmtM) (s : State) : Host.Outcome State Fault Refusal :=
  native (.amxor x) (atomBody x false atXor) s

/-- `ammin` (R329). -/
def execAmmin (x : FmtM) (s : State) : Host.Outcome State Fault Refusal :=
  native (.ammin x) (atomBody x false atMin) s

/-- `ammax` (R329). -/
def execAmmax (x : FmtM) (s : State) : Host.Outcome State Fault Refusal :=
  native (.ammax x) (atomBody x false atMax) s

/-- `amminu` (R329). -/
def execAmminu (x : FmtM) (s : State) : Host.Outcome State Fault Refusal :=
  native (.amminu x) (atomBody x false atMinu) s

/-- `ammaxu` (R329). -/
def execAmmaxu (x : FmtM) (s : State) : Host.Outcome State Fault Refusal :=
  native (.ammaxu x) (atomBody x false atMaxu) s

/-- `amcas` (R329). -/
def execAmcas (x : FmtM) (s : State) : Host.Outcome State Fault Refusal :=
  native (.amcas x) (atomBody x true atCas) s

end Sys2Proof.Machine
end

