-- ==== Sys2Proof/Machine/Crypto.lean ====
section
/-! DEFINITION. SHAKE256 and pure Ed448 as RFC 8032 names them (R32, R34): sponge, curve, signing and checking, over bytes. (PRESUMED, assumption 76) -/

namespace Sys2Proof.Machine

-- SHAKE256

/-- The round constants of Keccak-f[1600]. -/
def keccakRc : List Word :=
  [0x0000000000000001, 0x0000000000008082, 0x800000000000808A, 0x8000000080008000, 0x000000000000808B, 0x0000000080000001, 0x8000000080008081,
   0x8000000000008009, 0x000000000000008A, 0x0000000000000088, 0x0000000080008009, 0x000000008000000A] ++
  [0x000000008000808B, 0x800000000000008B, 0x8000000000008089, 0x8000000000008003, 0x8000000000008002, 0x8000000000000080, 0x000000000000800A,
   0x800000008000000A, 0x8000000080008081, 0x8000000000008080, 0x0000000080000001, 0x8000000080008008]

/-- The rotation of lane x + 5y. -/
def keccakRot : List Nat := [0, 1, 62, 28, 27, 36, 44, 6, 55, 20, 3, 10, 43, 25, 39, 41, 45, 15, 21, 8, 18, 2, 61, 56, 14]

/-- One round on the 25 lanes, lane x + 5y. -/
def keccakRound (a : List Word) (rc : Word) : List Word :=
  let at_ (l : List Word) (x y : Nat) : Word := l.getD (x % 5 + 5 * (y % 5)) 0
  let c : List Word := (List.range 5).map fun x => at_ a x 0 ^^^ at_ a x 1 ^^^ at_ a x 2 ^^^ at_ a x 3 ^^^ at_ a x 4
  let d : List Word := (List.range 5).map fun x => c.getD ((x + 4) % 5) 0 ^^^ (c.getD ((x + 1) % 5) 0).rotateLeft 1
  let t : List Word := (List.range 25).map fun i => a.getD i 0 ^^^ d.getD (i % 5) 0
  let b : List Word := (List.range 25).map fun i =>
    let x := (i % 5 + 3 * (i / 5)) % 5
    let y := i % 5
    (at_ t x y).rotateLeft (keccakRot.getD (x + 5 * y) 0)
  (List.range 25).map fun i =>
    let v := at_ b i (i / 5) ^^^ (~~~ at_ b (i + 1) (i / 5) &&& at_ b (i + 2) (i / 5))
    if i = 0 then v ^^^ rc else v

/-- Keccak-f[1600]. -/
def keccak (a : List Word) : List Word := keccakRc.foldl keccakRound a

/-- Eight bytes as a lane, the first lowest. -/
def laneOfBytes (b : List Byte) : Word := b.foldr (fun x v => (v <<< 8) ||| x.setWidth 64) 0

/-- A block of 136 bytes taken into the lanes. -/
def absorb (a : List Word) (b : List Byte) : List Word :=
  keccak ((List.range 25).map fun i => a.getD i 0 ^^^ (if i < 17 then laneOfBytes ((b.drop (8 * i)).take 8) else 0))

/-- Whole blocks taken in, in order. -/
def absorbAll : Nat → List Word → List Byte → List Word
  | 0, a, _ => a
  | n + 1, a, b => absorbAll n (absorb a (b.take 136)) (b.drop 136)

/-- The bytes that the lanes give. -/
def lanesBytes (a : List Word) : List Byte :=
  (a.take 17).flatMap fun (v : Word) => (List.range 8).map fun i => BitVec.setWidth 8 (v >>> (8 * i))

/-- Blocks given out, one permutation between two of them. -/
def squeeze : Nat → List Word → List Byte
  | 0, _ => []
  | n + 1, a => lanesBytes a ++ squeeze n (keccak a)

/-- SHAKE256 of a message: `n` bytes. -/
def shake256 (m : List Byte) (n : Nat) : List Byte :=
  let pad := 136 - m.length % 136
  let tail : List Byte := if pad = 1 then [0x9F] else [0x1F] ++ List.replicate (pad - 2) 0 ++ [0x80]
  let b := m ++ tail
  (squeeze (n / 136 + 1) (absorbAll (b.length / 136) (List.replicate 25 0) b)).take n

-- Bytes and numbers

/-- `n` bytes of a number, little-endian. -/
def bytesOf (v : Nat) : Nat → List Byte
  | 0 => []
  | n + 1 => BitVec.ofNat 8 v :: bytesOf (v / 256) n

/-- Bytes as a number, little-endian. -/
def numOf (b : List Byte) : Nat := b.foldr (fun x v => 256 * v + x.toNat) 0

-- The curve edwards448

/-- The field's prime, the curve's constant negated, the order of the base point. -/
def edP : Nat := 2 ^ 448 - 2 ^ 224 - 1
def edNegD : Nat := 39081
def edL : Nat := 2 ^ 446 - 13818066809895115352007386748515426880336692474882178609894547503885

/-- b^e modulo the prime, over the low `n` bits of e. -/
def edPow (b : Nat) : Nat → Nat → Nat
  | _, 0 => 1
  | e, n + 1 =>
    let h := edPow b (e / 2) n
    let q := h * h % edP
    if e % 2 = 1 then q * b % edP else q

/-- The inverse in the field. -/
def edInv (a : Nat) : Nat := edPow a (edP - 2) 448

/-- A difference in the field. -/
def edSub (a b : Nat) : Nat := (a + edP - b % edP) % edP

/-- A point by its two coordinates. -/
abbrev EdPoint := Nat × Nat

/-- The base point. -/
def edBase : EdPoint :=
  (224580040295924300187604334099896036246789641632564134246125461686950415467406032909029192869357953282578032075146446173674602635247710,
   298819210078481492676017930443930673437544040154080242095928241372331506189835876003536878655418784733982303233503462500531545062832660)

/-- The sum of two points. -/
def edAdd (p q : EdPoint) : EdPoint :=
  let t := edNegD * (p.1 * q.1 % edP) % edP * (p.2 * q.2 % edP) % edP
  ((p.1 * q.2 + q.1 * p.2) % edP * edInv (edSub 1 t) % edP, edSub (p.2 * q.2) (p.1 * q.1) * edInv ((1 + t) % edP) % edP)

/-- `k` times a point, over the low `n` bits of `k`. -/
def edMul (p : EdPoint) : Nat → Nat → EdPoint
  | _, 0 => (0, 1)
  | k, n + 1 =>
    let h := edMul p (k / 2) n
    let q := edAdd h h
    if k % 2 = 1 then edAdd q p else q

/-- A point in 57 bytes: y, and the low bit of x on top. -/
def edEncode (p : EdPoint) : List Byte := bytesOf (p.2 + p.1 % 2 * 2 ^ 455) 57

/-- The point of 57 bytes, if they name one. -/
def edDecode (b : List Byte) : Option EdPoint :=
  let n := numOf b
  let sign := n / 2 ^ 455
  let y := n % 2 ^ 455
  let u := edSub (y * y) 1
  let v := edSub (edP - edNegD * (y * y % edP) % edP) 1
  let x := u * u % edP * u % edP * v % edP * edPow (u * u % edP * u % edP * (u * u % edP) % edP * (v * v % edP * v % edP) % edP) ((edP - 3) / 4) 448 % edP
  if b.length ≠ 57 || edP ≤ y then none
  else if v * (x * x % edP) % edP ≠ u then none
  else if x = 0 && sign = 1 then none
  else some (if x % 2 = sign then (x, y) else (edSub 0 x, y))

-- Pure Ed448 with an empty context

/-- The bytes that go before what is hashed. -/
def edDom : List Byte := [0x53, 0x69, 0x67, 0x45, 0x64, 0x34, 0x34, 0x38, 0, 0]

/-- The secret scalar of a private key of 57 bytes. -/
def edScalar (key : List Byte) : Nat := numOf ((shake256 key 114).take 57) % 2 ^ 447 / 4 * 4 ||| 2 ^ 447

/-- The public key of a private key. -/
def edPublic (key : List Byte) : List Byte := edEncode (edMul edBase (edScalar key) 448)

/-- The signature of a message: 114 bytes. -/
def edSign (key m : List Byte) : List Byte :=
  let s := edScalar key
  let r := numOf (shake256 (edDom ++ (shake256 key 114).drop 57 ++ m) 114) % edL
  let rb := edEncode (edMul edBase r 446)
  let k := numOf (shake256 (edDom ++ rb ++ edPublic key ++ m) 114) % edL
  rb ++ bytesOf ((r + k * s) % edL) 57

/-- Whether a signature of 114 bytes is that of a message under a public key. -/
def edCheck (pub m sig : List Byte) : Bool :=
  let s := numOf (sig.drop 57)
  match edDecode (sig.take 57), edDecode pub with
  | some r, some a =>
    let k := numOf (shake256 (edDom ++ sig.take 57 ++ pub ++ m) 114) % edL
    sig.length = 114 && s < edL && edMul (edMul edBase s 446) 4 3 = edMul (edAdd r (edMul a k 446)) 4 3
  | _, _ => false

end Sys2Proof.Machine
end

