-- ==== Sys2Proof/Machine/Control.lean ====
section
/-! DEFINITION. Branches, jumps, strands, traps, instruction-cache invalidation and special registers (R305 to R320). -/

namespace Sys2Proof.Machine

/-- A conditional branch on a g-register (R306). -/
def branchOn (x : FmtJ) (c : Word → Bool) : M Unit := upd fun s =>
  if c (s.gReg x.reg.toNat) then s.setMe { s.me with pc := branchTarget x s.instrPc } else s

/-- `br` (R306). -/
def brBody (x : FmtJ) : M Unit := upd fun s => s.setMe { s.me with pc := branchTarget x s.instrPc }

/-- `call`: the link register takes NPC (R306). -/
def callBody (x : FmtJ) : M Unit := upd fun s =>
  let t := branchTarget x s.instrPc
  let s := s.setG x.reg.toNat s.me.pc
  s.setMe { s.me with pc := t }

/-- `loop`: the counter goes down by one and is tested (R306). -/
def loopBody (x : FmtJ) : M Unit := upd fun s =>
  let t := branchTarget x s.instrPc
  let n := s.gReg x.reg.toNat - 1
  let s := s.setG x.reg.toNat n
  if n ≠ 0 then s.setMe { s.me with pc := t } else s

/-- A register branch: a target that is not 8-byte aligned traps at the jump (R286, R307). -/
def jumpTo (t : Word) : M Unit := do
  need (bits t 2 0 = 0) tcMisalign t
  setPc t

/-- `jr` (R307). -/
def jrBody (x : FmtR) : M Unit := do
  let s ← get
  jumpTo (s.gReg x.a.toNat)

/-- `callr`: the target is read before the link is written (R307). -/
def callrBody (x : FmtR) : M Unit := do
  let s ← get
  let t := s.gReg x.a.toNat
  let link := s.me.pc
  jumpTo t
  upd fun s => s.setG x.d.toNat link

/-- `ret`: PC = g15 (R307); a dead g15 is read as any register is (R161). -/
def retBody : M Unit := do
  let s ← get
  need (s.me.live.getLsbD 15) tcStale 15
  jumpTo (s.gReg 15)

/-- `halt`: the strand ends and its context is Free (R169, R308). -/
def haltBody : M Unit := do
  upd fun s => s.freeContext s.cur s.curX
  doneM

/-- `yield`: to the tail of the base level, unless no other entry is Ready (R309). -/
def yieldBody : M Unit := upd fun s =>
  let c := s.myCore
  if !c.runq.any fun e => (s.ctx (ctxKey s.cur e.ctx)).st = .ready then s
  else (s.setMyCore { c with run := if c.run = some s.curX then none else c.run }).enqueue s.cur s.curX

/-- Refusal entries in use at a tile's network interface (R165): its refused messages, listed or not, until they are admitted. -/
def State.refusals (s : State) (t : Nat) : Nat :=
  (s.msgs.filter fun e => e.2.fromTile = t && e.2.st ≠ .network).length

/-- `hop` (R167, R310): TC_APERTURE unless the address names a tile of the rectangle in the remote window; the strand's own tile
goes on at NPC once what it did before the hop is performed (R268); otherwise the message takes the context with it, and the strand is Hopping with
its PC at the `hop`. -/
def hopBody (i : Instr) (x : FmtR) : M Unit := do
  let s ← get
  let a := s.gReg x.a.toNat
  let t := bits a 31 20
  need (bits a 63 32 = 0xFE000000 && s.myLaunch.covers t) tcAperture a
  if t ≠ s.myTile && 16 ≤ s.refusals s.myTile then waitM .refusals else pure ()
  earlierM
  if t = s.myTile then pure ()
  else do
    upd fun s =>
      let c := (s.finish i).me
      let (n, s) := s.newId
      let m : Msg := { kind := .hop, launch := c.launch, fromTile := s.myTile, fromA := s.cur.isA, toTile := t,
                       toA := s.cur.isA, srcCtx := s.myKey, carried := some c }
      let s := { s with msgs := Tbl.put s.msgs n m }
      let s := s.setMe { s.me.settled with st := .hopping, pc := s.instrPc }
      let cs := s.myCore
      s.setMyCore { cs with run := if cs.run = some s.curX then none else cs.run }
    doneM

/-- `trap` (R314). -/
def trapBody (x : FmtR) : M Unit := fun s => .error (.trapNext (s.gReg x.a.toNat))

/-- `tret` (R315). -/
def tretBody (x : FmtR) : M Unit := do
  let s ← get
  need s.me.inh tcIllop (encode (.tret x))
  upd fun s => s.setMe s.me.trapReturn

/-- `bkpt` (R316): under halt-on-breakpoint the core stops with PC here; otherwise TC_BKPT with `ARG` 0. -/
def bkptBody : M Unit := fun s =>
  if s.myCore.haltOn then
    let s := s.setMe { s.me with pc := s.instrPc }
    .error (.done (s.setMyCore { s.myCore with halted := some s.curX }))
  else .error (.trapNext 0)

/-- The lines of an instruction cache that overlap [a, a + n), widened to whole lines, are discarded; all of them for 2^40 bytes or
more (R317). -/
def dropLines (a n : Nat) (l : List ILine) : List ILine :=
  if n = 0 then l
  else if 2 ^ 40 ≤ n then []
  else l.filter fun e => !(a / 64 ≤ e.line && e.line ≤ (a + n - 1) / 64)

/-- The cached site records, 128 bytes each, that overlap [a, a + n) widened to whole lines. -/
def dropSites (a n : Nat) (l : List Site) : List Site :=
  if n = 0 then l
  else if 2 ^ 40 ≤ n then []
  else l.filter fun e => !(a / 64 * 64 < e.addr + 128 && e.addr < ((a + n - 1) / 64 + 1) * 64)

/-- What `icinv` discards (R317). -/
def State.icinv (s : State) (a n : Nat) : State :=
  let s := s.setMyCore { s.myCore with icache := dropLines a n s.myCore.icache }
  match s.cur with
  | .cc k => s.setCc k { s.cc k with sites := dropSites a n (s.cc k).sites }
  | _ => s

/-- `icinv` (R317): it waits until every earlier store of the strand is performed. -/
def icinvBody (x : FmtR) : M Unit := do
  earlierM
  upd fun s => s.icinv (s.gReg x.a.toNat).toNat (s.gReg x.b.toNat).toNat

-- Special registers

/-- Port launches of a control core that are outstanding (R214). -/
def State.portCount (s : State) (n : Nat) : Nat :=
  (s.launches.filter fun e => match e.2.origin with
    | .port c _ _ _ _ _ => c = n && !(s.cc n).uncounted.contains e.1
    | _ => false).length

/-- The clock that `CYCLES` of a core counts (R320). -/
def State.clockOf (s : State) (c : Core) : Nat := if c.isCc then s.ccNow else s.now

/-- `CYCLES` of the executing context (R320). (DEDUCED, assumption 64) -/
def State.cycles (s : State) : Word := w64 (s.me.cyc + (s.clockOf s.cur - s.me.cycFrom))

/-- The control-core registers 0x100 to 0x110 (R203). -/
def State.ccReg (s : State) (c n : Nat) : Word :=
  let v := s.cc c
  match n with
  | 0x100 => v.vpc
  | 0x101 => v.vsp
  | 0x102 => v.vfr
  | 0x103 => v.sitebase
  | 0x104 => v.siten
  | 0x105 => v.dtvec
  | 0x106 => v.nsp
  | 0x107 => v.objp
  | 0x108 => v.obje
  | 0x109 => v.bufp
  | 0x10A => v.bufe
  | 0x10B => v.argbase
  | 0x10C => v.lrect
  | 0x10D => v.rqbase
  | 0x10E => v.rqidx
  | 0x10F => w64 v.pasid
  | _ => w64 (s.portCount c ||| v.seq.toNat <<< 48)

/-- A control-core register written by field (R203, R319). -/
def State.setCcReg (s : State) (c n : Nat) (w : Word) : State :=
  let v := s.cc c
  match n with
  | 0x100 => s.setCc c { v with vpc := w }
  | 0x101 => s.setCc c { v with vsp := w }
  | 0x102 => s.setCc c { v with vfr := w }
  | 0x103 => s.setCc c { v with sitebase := w }
  | 0x104 => s.setCc c { v with siten := w &&& 0xFFFF }
  | 0x105 => s.setCc c { v with dtvec := w }
  | 0x106 => s.setCc c { v with nsp := w }
  | 0x107 => s.setCc c { v with objp := w }
  | 0x108 => s.setCc c { v with obje := w }
  | 0x109 => s.setCc c { v with bufp := w }
  | 0x10A => s.setCc c { v with bufe := w }
  | 0x10B => s.setCc c { v with argbase := w }
  | 0x10C => s.setCc c { v with lrect := w &&& 0x3FFFFFFFF }
  | 0x10D => s.setCc c { v with rqbase := w &&& 0x00FFFFFFFFFFF00F }
  | 0x10E => (s.setCc c { v with rqidx := putBits v.rqidx 0 32 w }).flushOrphans c
  | _ => s

/-- `LSHAPE` (R154). -/
def lshape (l : Launch) : Word := w64 (l.w ||| l.h <<< 8 ||| tmplNstrA l.tmpl <<< 16 ||| tmplNstrC l.tmpl <<< 24)

/-- A special register read (R318), its reserved bits zero. -/
def State.readSr (s : State) (n : Nat) : Word :=
  let t := s.myTile
  let tl := s.tile t
  let c := s.me
  if 0x100 ≤ n then s.ccReg (coreIx s.cur - 8192) n
  else if 0x50 ≤ n && n < 0x58 then Tbl.get 0 tl.tcfg (n - 0x50)
  else if 0x30 ≤ n && n < 0x34 then Tbl.get 0 s.myCore.mbpc (n - 0x30)
  else if 0x34 ≤ n && n < 0x38 then Tbl.get 0 s.myCore.mbcfg (n - 0x34)
  else
    match n with
    | 0x00 => lshape s.myLaunch
    | 0x01 => w64 (tileX t ||| tileY t <<< 8)
    | 0x02 => c.strandId.setWidth 64
    | 0x03 => s.myLaunch.args
    | 0x04 => s.myLaunch.id.setWidth 64
    | 0x05 => s.myOt.retain
    | 0x06 => w64 (tmplPart s.myLaunch.tmpl) &&& 0x003F3FFF
    | 0x07 => 0x00402040
    | 0x10 => c.vec
    | 0x11 => c.code
    | 0x12 => c.rpc
    | 0x13 => c.arg
    | 0x14 => ofBool c.inh
    | 0x18 => s.cycles
    | 0x20 => c.rm.setWidth 64
    | 0x21 => c.aflags.setWidth 64
    | 0x22 => tl.rndseed.setWidth 64
    | 0x40 => w64 tl.deque.length
    | 0x41 => tl.dqcfg.setWidth 64
    | 0x42 => tl.dupdrop.setWidth 64
    | _ => 0

/-- A special register written by field (R6, R319). -/
def State.writeSr (s : State) (n : Nat) (v : Word) : State :=
  let t := s.myTile
  let tl := s.tile t
  let c := s.me
  let cs := s.myCore
  if 0x100 ≤ n then s.setCcReg (coreIx s.cur - 8192) n v
  else if 0x50 ≤ n && n < 0x58 then s.setTile t { tl with tcfg := Tbl.set 0 tl.tcfg (n - 0x50) (v &&& 0x000000FF9F033F3F) }
  else if 0x30 ≤ n && n < 0x34 then s.setMyCore { cs with mbpc := Tbl.set 0 cs.mbpc (n - 0x30) (v &&& 0x00FFFFFFFFFFFFF8) }
  else if 0x34 ≤ n && n < 0x38 then s.setMyCore { cs with mbcfg := Tbl.set 0 cs.mbcfg (n - 0x34) (v &&& 0xFFFFF007) }
  else
    match n with
    | 0x05 => s.setMyOt { s.myOt with retain := v &&& 0x1FFFFFFFF }
    | 0x10 => s.setMe { c with vec := v &&& 0xFFFFFFFFFFFFFFF8 }
    | 0x12 => s.setMe { c with rpc := v &&& 0xFFFFFFFFFFFFFFF8 }
    | 0x13 => s.setMe { c with arg := v }
    | 0x14 => s.setMe { c with inh := bit v 0 }
    | 0x20 => if bits v 2 0 ≤ 4 then s.setMe { c with rm := v.setWidth 3 } else s
    | 0x21 => s.setMe { c with aflags := c.aflags &&& ~~~ (v.setWidth 6) }
    | 0x22 => s.setTile t { tl with rndseed := if bits v 31 0 = 0 then 1 else v.setWidth 32 }
    | 0x41 => s.setTile t { tl with dqcfg := v.setWidth 1 }
    | 0x42 => s.setTile t { tl with dupdrop := v.setWidth 32 }
    | _ => s

/-- Whether vector or matrix commands of the executing context are under way (R253). -/
def State.flagsPending (s : State) : Bool :=
  let tl := s.tile s.myTile
  ((s.vecEntries s.myTile).any fun e => e.ctx = s.myKey) || (match tl.vecRun with
      | some e => e.ctx = s.myKey
      | none => false) || (tl.matQ.any fun e => e.ctx = s.myKey) ||
    (match tl.matRun with
      | some e => e.ctx = s.myKey
      | none => false)

/-- `mfsr` (R318, R319): a read of `AFLAGS` waits for the context's vector and matrix commands; the core is held. -/
def mfsrBody (x : FmtI) : M Unit := do
  let n := x.imm.toNat % 4096
  let s ← get
  if n = 0x21 && s.cur.isTile && s.flagsPending then holdM
  else writeS x.d (s.readSr n)

/-- `mtsr` (R319). -/
def mtsrBody (x : FmtI) : M Unit := do
  let v ← readS x.a
  upd fun s => s.writeSr (x.imm.toNat % 4096) v

/-- `br` (R306). -/
def execBr (x : FmtJ) (s : State) : Host.Outcome State Fault Refusal :=
  native (.br x) (brBody x) s

/-- `bz` (R306). -/
def execBz (x : FmtJ) (s : State) : Host.Outcome State Fault Refusal :=
  native (.bz x) (branchOn x fun v => v = 0) s

/-- `bnz` (R306). -/
def execBnz (x : FmtJ) (s : State) : Host.Outcome State Fault Refusal :=
  native (.bnz x) (branchOn x fun v => v ≠ 0) s

/-- `call` (R306). -/
def execCall (x : FmtJ) (s : State) : Host.Outcome State Fault Refusal :=
  native (.call x) (callBody x) s

/-- `bltz` (R306). -/
def execBltz (x : FmtJ) (s : State) : Host.Outcome State Fault Refusal :=
  native (.bltz x) (branchOn x fun v => v.msb) s

/-- `bgez` (R306). -/
def execBgez (x : FmtJ) (s : State) : Host.Outcome State Fault Refusal :=
  native (.bgez x) (branchOn x fun v => !v.msb) s

/-- `loop` (R306). -/
def execLoop (x : FmtJ) (s : State) : Host.Outcome State Fault Refusal :=
  native (.loop x) (loopBody x) s

/-- `jr` (R307). -/
def execJr (x : FmtR) (s : State) : Host.Outcome State Fault Refusal :=
  native (.jr x) (jrBody x) s

/-- `callr` (R307). -/
def execCallr (x : FmtR) (s : State) : Host.Outcome State Fault Refusal :=
  native (.callr x) (callrBody x) s

/-- `ret` (R307). -/
def execRet (x : FmtR) (s : State) : Host.Outcome State Fault Refusal :=
  native (.ret x) (retBody) s

/-- `nop` (R307). -/
def execNop (x : FmtR) (s : State) : Host.Outcome State Fault Refusal :=
  native (.nop x) (pure ()) s

/-- `halt` (R308). -/
def execHalt (x : FmtR) (s : State) : Host.Outcome State Fault Refusal :=
  native (.halt x) (haltBody) s

/-- `yield` (R309). -/
def execYield (x : FmtR) (s : State) : Host.Outcome State Fault Refusal :=
  native (.yield x) (yieldBody) s

/-- `hop` (R310). -/
def execHop (x : FmtR) (s : State) : Host.Outcome State Fault Refusal :=
  native (.hop x) (hopBody (.hop x) x) s

/-- `trap` (R314). -/
def execTrap (x : FmtR) (s : State) : Host.Outcome State Fault Refusal :=
  native (.trap x) (trapBody x) s

/-- `tret` (R315). -/
def execTret (x : FmtR) (s : State) : Host.Outcome State Fault Refusal :=
  native (.tret x) (tretBody x) s

/-- `bkpt` (R316). -/
def execBkpt (x : FmtR) (s : State) : Host.Outcome State Fault Refusal :=
  native (.bkpt x) (bkptBody) s

/-- `icinv` (R317). -/
def execIcinv (x : FmtR) (s : State) : Host.Outcome State Fault Refusal :=
  native (.icinv x) (icinvBody x) s

/-- `mfsr` (R318). -/
def execMfsr (x : FmtI) (s : State) : Host.Outcome State Fault Refusal :=
  native (.mfsr x) (mfsrBody x) s

/-- `mtsr` (R319). -/
def execMtsr (x : FmtI) (s : State) : Host.Outcome State Fault Refusal :=
  native (.mtsr x) (mtsrBody x) s

end Sys2Proof.Machine
end

