-- ==== Sys2Proof/Machine/Messages.lean ====
section
/-! DEFINITION. Subgroups (R157) and the instructions that send: `sendm`, `mbarm`, `sendk` (R337 to R339). -/

namespace Sys2Proof.Machine

/-- The least dead register among g0 to g(n − 1). -/
def firstDead (c : Ctx) (n : Nat) : Option Nat := leastBelow (fun i => !c.live.getLsbD i) n

/-- `sendm` (R337): its checks in their order; all 16 refusal entries in use block the strand (R165). -/
def sendmBody (x : FmtR) : M Unit := do
  let s ← get
  let a := s.gReg x.a.toNat
  let c := s.gReg x.c.toNat
  let n := bits c 19 16
  need (sendmOk c) tcIllop (encode (.sendm x))
  match firstDead s.me n with
  | some r => trapM tcStale (w64 r)
  | none => pure ()
  let t := bits a 31 20
  need (bits a 63 32 = 0xFE000000 && s.myLaunch.covers t) tcAperture a
  releaseM
  if 16 ≤ s.refusals s.myTile then waitM .refusals
  else
    upd fun s =>
      let (k, s) := s.newId
      let m : Msg := { kind := .task, launch := s.me.launch, fromTile := s.myTile, fromA := s.cur.isA, toTile := t,
                       toA := !bit c 8, mbox := bits c 1 0, payload := (List.range n).map s.gReg }
      { s with msgs := Tbl.put s.msgs k m }

/-- `sendm` (R337). -/
def execSendm (x : FmtR) (s : State) : Host.Outcome State Fault Refusal := native (.sendm x) (sendmBody x) s

/-- `mbarm` (R338): both registers of the mailbox in one step. -/
def mbarmBody (x : FmtR) : M Unit := do
  let s ← get
  let a := s.gReg x.a.toNat
  let b := s.gReg x.b.toNat
  need (bits a 2 0 = 0) tcMisalign a
  need (bits a 63 56 = 0) tcAperture a
  need (bits b 15 12 = 0) tcMisalign b
  let n := x.d.toNat % 4
  upd fun s =>
    let c := s.myCore
    s.setMyCore { c with mbpc := Tbl.set 0 c.mbpc n (a &&& 0x00FFFFFFFFFFFFF8), mbcfg := Tbl.set 0 c.mbcfg n (b &&& 0xFFFFF007) }

/-- `mbarm` (R338). -/
def execMbarm (x : FmtR) (s : State) : Host.Outcome State Fault Refusal := native (.mbarm x) (mbarmBody x) s

/-- The tile of a subgroup of 2^b tiles that a key goes to (R194). -/
def keyHash (key : BitVec 32) (b : Nat) : Nat :=
  if b = 0 then 0 else (key.toNat * 0x9E3779B97F4A7C15 % 2 ^ 64) >>> (64 - b)

/-- The lowest lane of a mask. -/
def lowestLane (m : BitVec 64) : Option Nat := leastBelow (fun l => m.getLsbD l) 64

/-- `sendk` (R339): each active lane's pair goes into the network, but for lanes with a poisoned key; those trap once the others have
gone. -/
def sendkBody (x : FmtR) : M Unit := strmCmd (.sendk x) do
  let s ← get
  let ks ← readV x.a
  let vs ← readV x.b
  let c ← readS x.c
  need (bits c 63 30 = 0) tcIllop (encode (.sendk x))
  match subgroupOf s.myLaunch s.myTile (bits c 29 24) with
  | none => trapM tcIllop (encode (.sendk x))
  | some g => do
    need (bits c 19 0 % 8 = 0) tcMisalign (w64 (bits c 19 0))
    let act := s.activeLanes x.pk x.pn
    upd fun s => (List.range 64).foldl (fun s l =>
      if act.getLsbD l && !ks.bad l then
        let key := ks.at l
        let (k, s) := s.newId
        let v : Word := if x.dt = 1 then (vs.at l).signExtend 64 else (vs.at l).setWidth 64
        let e : Element := { launch := s.me.launch, ctx := some s.myKey, fromTile := s.myTile, toTile := g.tileOf (keyHash key (g.wl + g.hl)),
                             base := bits c 19 0, nb := 2 ^ bits c 23 20, key := key, val := v, float := x.dt = 9,
                             poison := vs.bad l }
        { s with elems := Tbl.put s.elems k e }
      else s) s
    match lowestLane (act &&& ks.poison) with
    | some l => trapKeep tcPoison (w64 l)
    | none => pure ()

/-- `sendk` (R339). -/
def execSendk (x : FmtR) (s : State) : Host.Outcome State Fault Refusal := native (.sendk x) (sendkBody x) s

end Sys2Proof.Machine
end

