-- ==== Sys2Proof/Machine/Vector.lean ====
section
/-! DEFINITION. The vector engine (R340 to R359): lane arithmetic, comparisons, selection, conversions, moves, reductions,
permutes, special functions, indexed and contiguous access, the vector length. -/

namespace Sys2Proof.Machine

/-- Z, then N, on a lane in its type (R290, R340). (DEDUCED, assumption 12) -/
def laneMod (dt : Nat) (m : BitVec 3) (v : BitVec 32) : BitVec 32 :=
  match dt with
  | 3 => modInt 32 m true v
  | 4 => modInt 32 m false v
  | 9 =>
    let v := if m.getLsbD 0 then v &&& 0x7FFFFFFF else v
    if m.getLsbD 1 then v ^^^ 0x80000000 else v
  | 15 =>
    let v := if m.getLsbD 0 then v &&& 0x7FFF7FFF else v
    if m.getLsbD 1 then v ^^^ 0x80008000 else v
  | _ => v

/-- The lanes of a mask computed in ascending order on the rounding context, the others zero: a poisoned lane takes no step (R341). -/
def mapLanes (act bad : BitVec 64) (f : Nat → Fp → BitVec 32 × Fp) (p : Fp) : VReg × Fp :=
  let r := (List.range 64).foldl (fun (q : List (Nat × BitVec 32) × Fp) l =>
    if act.getLsbD l && !bad.getLsbD l then
      let x := f l q.2
      (if x.1 = 0 then q.1 else (l, x.1) :: q.1, x.2)
    else q) ([], p)
  ({ lane := r.1.reverse, poison := act &&& bad }, r.2)

/-- What a command of the vector engine works on: its captured sources, with their windows in hand, its active lanes, rounding mode and `VL`, and the
predicate of `vsel` or the control word of `vcvt` (R225). -/
structure VecIn where
  a : VReg
  b : VReg
  c : VReg
  act : BitVec 64
  rm : BitVec 3
  vl : Nat
  w : Word

/-- What it gives: lanes of a vector register, or a predicate with the active lanes that were poisoned (R346). -/
inductive VecOut where
  | lanes (mask : BitVec 64) (v : VReg)
  | pred (k : Word) (bad : BitVec 64)

/-- The computation of a command, on the rounding context in which it starts (R249). -/
abbrev VecFn := VecIn → Fp → VecOut × Fp

/-- The rounding mode of a vector command whose `RM` field is `rm` (R247, R287). -/
def VecIn.round (o : VecIn) (rm : BitVec 3) : Rnd := rndMode rm.toNat o.rm.toNat

/-- A result in the active lanes. -/
def laneOut (o : VecIn) (bad : BitVec 64) (f : Nat → Fp → BitVec 32 × Fp) (p : Fp) : VecOut × Fp :=
  let r := mapLanes o.act bad f p
  (.lanes o.act r.1, r.2)

/-- A form on two vector sources. -/
def lanes2 (x : FmtR) (f : Rnd → BitVec 32 → BitVec 32 → Fp → BitVec 32 × Fp) : VecFn := fun o =>
  laneOut o (o.a.poison ||| o.b.poison) fun l p =>
    f (o.round x.rm) (laneMod x.dt.toNat x.ma (o.a.at l)) (laneMod x.dt.toNat x.mb (o.b.at l)) p

/-- A form on three vector sources. -/
def lanes3 (x : FmtR) (f : Rnd → BitVec 32 → BitVec 32 → BitVec 32 → Fp → BitVec 32 × Fp) : VecFn := fun o =>
  laneOut o (o.a.poison ||| o.b.poison ||| o.c.poison) fun l p =>
    f (o.round x.rm) (laneMod x.dt.toNat x.ma (o.a.at l)) (laneMod x.dt.toNat x.mb (o.b.at l)) (laneMod x.dt.toNat x.mc (o.c.at l)) p

/-- A form on one vector source. -/
def lanes1 (x : FmtR) (f : Rnd → BitVec 32 → Fp → BitVec 32 × Fp) : VecFn := fun o =>
  laneOut o o.a.poison fun l p => f (o.round x.rm) (laneMod x.dt.toNat x.ma (o.a.at l)) p

/-- A float form: exact on the values, then write() (R344, R254), on FP32 lanes or on each BF16 half. -/
def floatLane (x : FmtR) (m : Rnd) (f : List Ex → Ex × BitVec 6) (vs : List (BitVec 32)) (p : Fp) : BitVec 32 × Fp :=
  if x.dt = 9 then
    let r := f (vs.map fun v => fp32.decode v.toNat)
    let q := writeFloat fp32 m (scaleOf x.scale) x.clamp.toNat r.1 (p.raise r.2)
    (BitVec.ofNat 32 q.1, q.2)
  else
    let lo := f (vs.map fun v => bf16.decode (v.toNat % 65536))
    let q := writeFloat bf16 m (scaleOf x.scale) x.clamp.toNat lo.1 (p.raise lo.2)
    let hi := f (vs.map fun v => bf16.decode (v.toNat / 65536))
    let r := writeFloat bf16 m (scaleOf x.scale) x.clamp.toNat hi.1 (q.2.raise hi.2)
    (BitVec.ofNat 32 (q.1 + 65536 * r.1), r.2)

/-- The integer value of a lane under `DT` 3 or 4. -/
def laneInt (dt : BitVec 5) (v : BitVec 32) : Int := if dt = 3 then v.toInt else v.toNat

/-- An integer form: exact, then scaled, saturated or wrapped, and clamped (R344). -/
def intLane (x : FmtR) (r : Int) (p : Fp) : BitVec 32 × Fp :=
  let q := writeInt 32 (x.dt = 3) (scaleOf x.scale) x.clamp.toNat r p
  (BitVec.ofNat 32 q.1, q.2)

/-- Whether `DT` names an integer lane type. -/
def isIntDt (dt : BitVec 5) : Bool := dt = 3 || dt = 4

/-- A two-source arithmetic form (R344): the integer operation, or the float one. -/
def arith2 (x : FmtR) (fi : Int → Int → Int) (ff : Rnd → Ex → Ex → Ex × BitVec 6) : VecFn :=
  lanes2 x fun m a b p =>
    if isIntDt x.dt then intLane x (fi (laneInt x.dt a) (laneInt x.dt b)) p
    else floatLane x m (fun vs => ff m (vs.getD 0 .nan) (vs.getD 1 .nan)) [a, b] p

/-- A minimum or maximum (R345): a float one sets no flag, and without a scale nothing is rounded, so that the mode has no effect. (DEDUCED, assumption 15) -/
def pick2 (x : FmtR) (fi : Int → Int → Int) (ff : Ex → Ex → Ex) : VecFn :=
  lanes2 x fun m a b p =>
    if isIntDt x.dt then intLane x (fi (laneInt x.dt a) (laneInt x.dt b)) p
    else
      let q := floatLane x (if x.scale = 0 then .rne else m) (fun vs => (ff (vs.getD 0 .nan) (vs.getD 1 .nan), 0)) [a, b] p
      (q.1, { q.2 with flags := p.flags })

/-- `vfma` (R344): exact, then one rounding. -/
def vfmaFn (x : FmtR) : VecFn :=
  lanes3 x fun m a b c p =>
    if isIntDt x.dt then intLane x (laneInt x.dt a * laneInt x.dt b + laneInt x.dt c) p
    else
      floatLane x m (fun vs =>
        let q := (vs.getD 0 .nan).mul (vs.getD 1 .nan)
        let r := q.1.add m (vs.getD 2 .nan)
        (r.1, q.2 ||| r.2)) [a, b, c] p

/-- `vdiv` (R344, R345): an integer division by 0 writes all ones and sets `DIVZERO`. -/
def vdivFn (x : FmtR) : VecFn :=
  lanes2 x fun m a b p =>
    if isIntDt x.dt then
      if b = 0 then (0xFFFFFFFF, p.raise flDivzero)
      else
        let q := (laneInt x.dt a).tdiv (laneInt x.dt b)
        intLane x (if x.dt = 3 && q = 2 ^ 31 then -2 ^ 31 else q) p
    else floatLane x m (fun vs => (vs.getD 0 .nan).div (vs.getD 1 .nan)) [a, b] p

/-- A bit form on the raw bits (R344). -/
def bitLanes (x : FmtR) (f : BitVec 32 → BitVec 32 → BitVec 32) : VecFn := lanes2 x fun _ a b p => (f a b, p)

/-- A special function (R355). -/
def funcLanes (x : FmtR) (f : Ex → Ex × BitVec 6) : VecFn :=
  lanes1 x fun m a p => floatLane x m (fun vs => f (vs.getD 0 .nan)) [a] p

/-- The order of two lanes (R346): none when a float one is a NaN. -/
def laneCmp (dt : BitVec 5) (a b : BitVec 32) : Option Ordering :=
  if dt = 9 then (fp32.decode a.toNat).cmp (fp32.decode b.toNat) else some (compare (laneInt dt a) (laneInt dt b))

/-- A comparison into a predicate (R346): inactive lanes give 0, and so does a poisoned active lane, which traps once kD is written. -/
def compareLanes (x : FmtR) (f : Option Ordering → Bool) : VecFn := fun o p =>
  let bad := (o.a.poison ||| o.b.poison) &&& o.act
  let dt := x.dt.toNat
  (.pred ((List.range 64).foldl (fun (k : BitVec 64) l =>
    if o.act.getLsbD l && !bad.getLsbD l && f (laneCmp x.dt (laneMod dt x.ma (o.a.at l)) (laneMod dt x.mb (o.b.at l)))
    then k ||| BitVec.twoPow 64 l else k) 0) bad, p)

/-- `vsel` (R347): the chosen lane with its poison. -/
def vselFn : VecFn := fun o p => (.lanes o.act (o.a.merge o.b (~~~ o.w)), p)

/-- `vperm` (R354). -/
def vpermFn : VecFn := fun o p =>
  (.lanes o.act (VReg.ofFn fun l =>
    if o.b.bad l then (0, true)
    else
      let j := (o.b.at l).toNat % 64
      (o.a.at j, o.a.bad j)), p)

-- Conversions

/-- The value of a lane in a source type of `vcvt` (R350, R351), Z and N applied in that type. -/
def cvtDecode (t base : Nat) (m : BitVec 3) (v : BitVec 32) : Ex :=
  let delta := v.toNat / 256 % 16
  let signed (w : Nat) : Ex := Ex.ofInt (modInt w m true (v.setWidth w)).toInt
  let plain (w : Nat) : Ex := Ex.ofInt (modInt w m false (v.setWidth w)).toNat
  let signs (f : Fmt) (c : Nat) : Nat :=
    let top := 2 ^ (f.es + f.ms)
    let c := c % (2 * top)
    let c := if m.getLsbD 0 then c % top else c
    if m.getLsbD 1 then (if c < top then c + top else c - top) else c
  match t with
  | 3 => signed 32
  | 4 => plain 32
  | 5 => signed 16
  | 6 => plain 16
  | 7 => signed 8
  | 8 => plain 8
  | 14 => fp4Value (signs fp4 v.toNat) base delta
  | _ =>
    match fmtOfDt t with
    | some f => f.decode (signs f v.toNat)
    | none =>
      let w := t - 14
      bfpValue w (modInt w m true (v.setWidth w)).toInt base delta

/-- The range of an integer type of `vcvt`. -/
def cvtRange (t : Nat) : Int × Int :=
  match t with
  | 3 => (-2 ^ 31, 2 ^ 31 - 1)
  | 4 => (0, 2 ^ 32 - 1)
  | 5 => (-2 ^ 15, 2 ^ 15 - 1)
  | 6 => (0, 2 ^ 16 - 1)
  | 7 => (-2 ^ 7, 2 ^ 7 - 1)
  | _ => (0, 2 ^ 8 - 1)

/-- A value converted to a float or integer type (R351): the lane's 32 bits. -/
def cvtEncode (t : Nat) (m : Rnd) (sc : Int) (cl : Nat) (v : Ex) (p : Fp) : BitVec 32 × Fp :=
  match fmtOfDt t with
  | some f =>
    let q := writeFloat f m sc cl v p
    (BitVec.ofNat 32 q.1, q.2)
  | none =>
    let (lo, hi) := cvtRange t
    let q := toIntRange m lo hi (v.scale sc) p
    let i := if cl = 1 then max 0 (min 1 q.1) else if cl = 2 then max (-1) (min 1 q.1) else q.1
    (BitVec.ofInt 32 (max lo i), q.2)

/-- The codes and deltas of the blocks of `n` lanes (R351, R250): M over the block's active lanes that are not poisoned; every active
lane receives the block's delta. A poisoned one poisons every active lane of its block, which then sets no flag and takes no stochastic step (R260, R341). (DEDUCED, assumption 16) -/
def cvtBlocks (w n base : Nat) (m : Rnd) (act bad : BitVec 64) (val : Nat → Ex) (p : Fp) : VReg × Fp :=
  let r := (List.range (64 / n)).foldl (fun (q : List (Nat × BitVec 32) × BitVec 64 × Fp) j =>
    let ls := (List.range n).map (fun i => j * n + i) |>.filter fun l => act.getLsbD l
    if ls.isEmpty then q
    else if ls.any fun l => bad.getLsbD l then (q.1, ls.foldl (fun k l => k ||| BitVec.twoPow 64 l) q.2.1, q.2.2)
    else
      let e := encodeBlock w m base (ls.map val) q.2.2
      (q.1 ++ (ls.zip e.1.1).map fun c => (c.1, BitVec.ofNat 32 (c.2 + e.1.2 * 256)), q.2.1, e.2)) ([], 0, p)
  ({ lane := r.1.filter fun e => e.2 ≠ 0, poison := r.2.1 }, r.2.2)

/-- `vcvt` (R349 to R351): a pair of BF16 halves has C for its second source. -/
def vcvtFn (x : FmtR) : VecFn := fun o p =>
  let src := x.b.toNat
  let dst := x.dt.toNat
  let m := o.round x.rm
  let base := bits o.w 7 0
  let n := if bit o.w 8 then 32 else 16
  let sc := scaleOf x.scale
  let cl := x.clamp.toNat
  if blockType dst then
    let val (l : Nat) : Ex := ((cvtDecode src base x.ma (o.a.at l)).scale sc).clamp cl
    let r := cvtBlocks (if dst = 14 then 0 else dst - 14) n base m o.act (o.a.poison) val p
    (.lanes o.act r.1, r.2)
  else if dst = 15 then
    laneOut o (o.a.poison ||| o.b.poison) (fun l p =>
      let lo := cvtEncode 10 m sc cl (cvtDecode src base x.ma (o.a.at l)) p
      let hi := cvtEncode 10 m sc cl (cvtDecode src base 0 (o.b.at l)) lo.2
      (lo.1 ||| hi.1 <<< 16, hi.2)) p
  else laneOut o o.a.poison (fun l p => cvtEncode dst m sc cl (cvtDecode src base x.ma (o.a.at l)) p) p

-- Reductions

/-- One level of the tree of R261: adjacent pairs combined, an odd last element passed on. -/
def treeLevel {α : Type} (f : α → α → Fp → α × Fp) : List α → Fp → List α × Fp
  | a :: b :: r, p =>
    let x := f a b p
    let y := treeLevel f r x.2
    (x.1 :: y.1, y.2)
  | l, p => (l, p)

/-- The whole tree, level by level. -/
def tree {α : Type} (f : α → α → Fp → α × Fp) : Nat → List α → Fp → List α × Fp
  | 0, l, p => (l, p)
  | n + 1, l, p => let q := treeLevel f l p; tree f n q.1 q.2

/-- FP32 addition of two lanes under a mode (R344). -/
def addF32 (m : Rnd) (a b : BitVec 32) (p : Fp) : BitVec 32 × Fp :=
  let r := (fp32.decode a.toNat).add m (fp32.decode b.toNat)
  let q := roundFmt fp32 m false r.1 (p.raise r.2)
  (BitVec.ofNat 32 q.1, q.2)

/-- A reduction (R353): lanes [0, `VL` − 1], inactive ones as the identity, into lane 0 alone; a poisoned active lane makes it poisoned. -/
def reduce (x : FmtR) (id : BitVec 32) (f : Rnd → BitVec 32 → BitVec 32 → Fp → BitVec 32 × Fp) : VecFn := fun o p =>
  let xs := (List.range o.vl).map fun l => if o.act.getLsbD l then laneMod x.dt.toNat x.ma (o.a.at l) else id
  let bad := o.act &&& o.a.poison ≠ 0
  let r := tree (f (o.round x.rm)) 6 xs p
  (.lanes 1 (VReg.ofFn fun l => if l = 0 then (if bad then (0, true) else (r.1.getD 0 id, false)) else (0, false)),
    if bad then { r.2 with flags := p.flags } else r.2)

/-- The identity of a sum (R353). -/
def sumId (dt : BitVec 5) : BitVec 32 := if dt = 9 then 0x80000000 else 0
def maxId (dt : BitVec 5) : BitVec 32 := if dt = 9 then 0xFF800000 else if dt = 3 then 0x80000000 else 0
def minId (dt : BitVec 5) : BitVec 32 := if dt = 9 then 0x7F800000 else if dt = 3 then 0x7FFFFFFF else 0xFFFFFFFF

/-- A sum of two lanes in their type. -/
def laneSum (dt : BitVec 5) (m : Rnd) (a b : BitVec 32) (p : Fp) : BitVec 32 × Fp := if dt = 9 then addF32 m a b p else (a + b, p)

/-- The maximum or minimum of two lanes in their type (R345, R353). -/
def lanePick (dt : BitVec 5) (isMax : Bool) (_m : Rnd) (a b : BitVec 32) (p : Fp) : BitVec 32 × Fp :=
  if dt = 9 then
    (BitVec.ofNat 32 (roundFmt fp32 .rne false ((fp32.decode a.toNat).minmax isMax (fp32.decode b.toNat)) {}).1, p)
  else if decide (laneInt dt a ≤ laneInt dt b) = isMax then (b, p)
  else (a, p)

/-- `vscan` (R353): each active lane adds the nearest lower active lane's result; poison carries forward. -/
def scanGo (f : BitVec 32 → BitVec 32 → Fp → BitVec 32 × Fp) (act : BitVec 64) (a : Nat → BitVec 32 × Bool) :
    List Nat → Option (BitVec 32 × Bool) → Fp → List (Nat × BitVec 32 × Bool) × Fp
  | [], _, p => ([], p)
  | l :: r, acc, p =>
    if !act.getLsbD l then scanGo f act a r acc p
    else
      let x := a l
      let (y, p) : (BitVec 32 × Bool) × Fp :=
        match acc with
        | none => ((if x.2 then 0 else x.1, x.2), p)
        | some z => if z.2 || x.2 then ((0, true), p) else let q := f z.1 x.1 p; ((q.1, false), q.2)
      let q := scanGo f act a r (some y) p
      ((l, y.1, y.2) :: q.1, q.2)

/-- `vscan` (R353). -/
def vscanFn (x : FmtR) : VecFn := fun o p =>
  let r := scanGo (laneSum x.dt (o.round x.rm)) o.act (fun l => (laneMod x.dt.toNat x.ma (o.a.at l), o.a.bad l)) (List.range 64) none p
  (.lanes o.act (VReg.ofFn fun l => match r.1.find? fun e => e.1 = l with
    | some (_, v, b) => (v, b)
    | none => (0, false)), r.2)

-- Commands

/-- What each command of the vector engine computes. -/
def vecFn (i : Instr) : VecFn :=
  match i with
  | .vadd x => arith2 x (· + ·) fun m a b => a.add m b
  | .vsub x => arith2 x (· - ·) fun m a b => a.add m b.neg
  | .vmul x => arith2 x (· * ·) fun _ a b => a.mul b
  | .vfma x => vfmaFn x
  | .vmin x => pick2 x min (Ex.minmax false)
  | .vmax x => pick2 x max (Ex.minmax true)
  | .vdiv x => vdivFn x
  | .vand x => bitLanes x fun a b => a &&& b
  | .vor x => bitLanes x fun a b => a ||| b
  | .vxor x => bitLanes x fun a b => a ^^^ b
  | .vshl x => bitLanes x fun a b => if b.toNat < 32 then a <<< b.toNat else 0
  | .vshr x => bitLanes x fun a b => if b.toNat < 32 then a >>> b.toNat else 0
  | .vsra x => bitLanes x fun a b => a.sshiftRight (min b.toNat 31)
  | .vceq x => compareLanes x fun o => o = some .eq
  | .vcne x => compareLanes x fun o => o ≠ some .eq
  | .vclt x => compareLanes x fun o => o = some .lt
  | .vcle x => compareLanes x fun o => o = some .lt || o = some .eq
  | .vsel _ => vselFn
  | .vcvt x => vcvtFn x
  | .vredsum x => reduce x (sumId x.dt) (laneSum x.dt)
  | .vredmax x => reduce x (maxId x.dt) (lanePick x.dt true)
  | .vredmin x => reduce x (minId x.dt) (lanePick x.dt false)
  | .vscan x => vscanFn x
  | .vperm _ => vpermFn
  | .vexp2 x => funcLanes x Ex.exp2
  | .vlog2 x => funcLanes x Ex.log2
  | .vrcp x => funcLanes x Ex.rcp
  | .vrsqrt x => funcLanes x Ex.rsqrt
  | .vsqrt x => funcLanes x Ex.sqrt
  | _ => fun o p => (.lanes o.act {}, p)

/-- Whether the sources of a captured command stand: every element of its windows has been fetched (R362). -/
def State.opsReady (s : State) (t : Nat) (o : VecOps) : Bool := o.src.all fun w => (match w with
  | .val _ => true
  | .win n p => s.windowReady t n p o.vl)

/-- The elements of its windows fetched as far as they go. -/
def State.opsFill (s : State) (t : Nat) (o : VecOps) : State := o.src.foldl (fun s w => (match w with
  | .val _ => s
  | .win n p => s.fill t n p o.vl)) s

/-- The sources of a command, its windows taken. -/
def State.opsTake (s : State) (t vl : Nat) : List VecSrc → List VReg × State
  | [] => ([], s)
  | .val v :: r => let q := s.opsTake t vl r; (v :: q.1, q.2)
  | .win n p :: r =>
    let w := s.takeWindow t n p vl
    let q := w.2.opsTake t vl r
    (w.1 :: q.1, q.2)

/-- Predicate register `n` of a core written. -/
def State.setKOn (s : State) (c : Core) (n : Nat) (v : Word) : State := s.setCore c { s.core c with k := Tbl.set 0 (s.core c).k n v }

/-- A captured command performed by the vector engine of tile `t`, for a context and a launch: it takes its windows and the steps of the stochastic
source as it starts (R249), writes its result, and pushes it where that is a bound write stream (R239). With it the flags that it raises, and the
active lanes that a comparison found poisoned. -/
def State.vecPerform (s : State) (t ctx u : Nat) (o : VecOps) : (BitVec 6 × BitVec 64) × State :=
  let q := s.opsTake t o.vl o.src
  let s := q.2
  let x : VecIn := { a := q.1.getD 0 {}, b := q.1.getD 1 {}, c := q.1.getD 2 {}, act := o.act, rm := o.rm, vl := o.vl, w := o.w }
  let r := vecFn o.i x { seed := (s.tile t).rndseed, flags := 0 }
  let s := if r.2.seed ≠ (s.tile t).rndseed then s.setSeed t r.2.seed else s
  match r.1, o.dst with
  | .lanes mask v, .f n =>
    let s := s.setF (.c t) n (((s.core (.c t)).fReg n).merge v mask)
    ((r.2.flags, 0), if 24 ≤ n && n < 32 && (s.strm t n).bound then s.pushFrom t n o.pos o.vl ctx o.rm u o.x else s)
  | .pred k bad, .k n => ((r.2.flags, bad), s.setKOn (.c t) n k)
  | _, _ => ((r.2.flags, 0), s)

/-- Vector source `j` captured (R225): an f-register, the next window of a bound read stream, or a popped vector. -/
def captureV (j : Nat) (c : BitVec 6) : M VecSrc := do
  let s ← get
  if 48 ≤ c.toNat then run fun s => ((.val (s.popQV (c.toNat - 48)).1), (s.popQV (c.toNat - 48)).2)
  else if s.streaming (c.toNat - 16) then nameWindow (c.toNat - 16) s.me.vl
  else pure (.val (s.me.regs.getD j (s.myCore.fReg (c.toNat - 16))))

/-- The place of a command's result among the elements of a bound write stream: its addresses are those of stores (R98, R99, R294), and the position
moves on (R239). -/
def capturePos (n : Nat) : M Nat := do
  let s ← get
  if !s.streaming n then pure 0
  else do
    pushCheck n
    upd fun s => s.setStrm s.myTile n ((s.strm s.myTile n).advance s.me.vl)
    pure (s.strm s.myTile n).pos

/-- The register that a command writes. -/
def vecDst (i : Instr) (x : FmtR) : VecDst :=
  match i with
  | .vceq _ | .vcne _ | .vclt _ | .vcle _ => .k x.d.toNat
  | _ => .f (x.d.toNat - 16)

/-- The scalar that a command captures: `vsel`'s predicate, `vcvt`'s control word. -/
def State.vecScalar (s : State) (i : Instr) (x : FmtR) : Word :=
  match i with
  | .vsel _ => s.kReg x.c.toNat
  | .vcvt _ => if blockType x.b.toNat || blockType x.dt.toNat then s.gReg x.c.toNat else 0
  | _ => 0

/-- The source fields of a command, in order. -/
def vecFields (i : Instr) : List Field := i.fields.filter fun f => (match f.slot with
  | .v _ | .vn | .f => true
  | _ => false)

/-- The bound read streams that a command's sources name, each with how many of its windows they take. -/
def State.vecStreams (s : State) (i : Instr) : List (Nat × Nat) :=
  let l := ((vecFields i).map fun f => f.code.toNat - 16).filter s.streaming
  l.eraseDups.map fun n => (n, l.count n)

/-- A command captured at its issue (R225), its sources in the order of their fields. -/
def capture (i : Instr) (x : FmtR) : M VecOps := do
  let src ← (vecFields i).zipIdx.mapM fun f => captureV f.2 f.1.code
  let pos ← (match vecDst i x with
    | .f n => capturePos n
    | .k _ => pure 0)
  let s ← get
  pure { i := i, dst := vecDst i x, src := src, act := s.activeLanes x.pk x.pn, rm := s.me.rm, vl := s.me.vl, w := s.vecScalar i x, x := s.curX, pos := pos }

/-- Whether a comparison may trap: it has a poisoned source lane that is active, or elements still to come. It is performed by its strand. -/
def VecOps.mayTrap (o : VecOps) : Bool := (match o.dst with
  | .f _ => false
  | .k _ => o.src.any fun w => (match w with
    | .val v => v.poison &&& o.act ≠ 0
    | .win _ _ => true))

/-- The destination of a command that waits in the queue is live for what follows it (R290). -/
def State.reviveDst (s : State) (o : VecOps) : State :=
  match o.dst with
  | .f n => s.setMyCore { s.myCore with fdead := s.myCore.fdead &&& ~~~ (BitVec.twoPow 32 n) }
  | .k _ => s

/-- A command of the vector engine issues (R223 to R225): it captures its operands; it starts at once where the engine is free and its elements have
been fetched, and else waits in the engine's queue while the strand goes on; a full queue holds the core. A comparison that may trap is performed in
its turn by its strand. (DEDUCED, assumption 26) (DEDUCED, assumption 97) -/
def vecIssue (i : Instr) (x : FmtR) : M Unit := do
  let s ← get
  let q := s.vecEntries s.myTile
  if !q.any s.ownPlace && 2 ≤ q.length then holdM
  else do
    let wins := s.vecStreams i
    upd fun s => wins.foldl (fun s e => s.fill s.myTile e.1 (s.strm s.myTile e.1).pos (e.2 * s.me.vl)) s
    let s ← get
    let ready := wins.all fun e => s.windowReady s.myTile e.1 (s.strm s.myTile e.1).pos (e.2 * s.me.vl)
    let o ← capture i x
    if o.mayTrap then do
      upd fun s => s.setMe { s.me with regs := o.src.map fun w => match w with
        | .val v => v
        | .win _ _ => {} }
      vecTurn
      if !ready then waitM .stream
      else do
        let r ← run fun s => s.vecPerform s.myTile s.myKey s.me.launch o
        queueFlags r.1
        match leastBelow (fun l => r.2.getLsbD l) 64 with
        | some l => trapKeep tcPoison (w64 l)
        | none => pure ()
    else do
      let s ← get
      if q = [] && (s.tile s.myTile).vecRun = none && ready then do
        let r ← run fun s => s.vecPerform s.myTile s.myKey s.me.launch o
        upd fun s => s.setTile s.myTile { s.tile s.myTile with vecRun := some { ctx := s.myKey, flags := r.1, launch := s.me.launch } }
      else upd fun s =>
        (s.setTile s.myTile { s.tile s.myTile with
          vecQ := (s.tile s.myTile).vecQ ++ [{ ctx := s.myKey, flags := 0, launch := s.me.launch, stage := .held o }] }).reviveDst o

/-- `vbcast` (R352). -/
def vbcastBody (x : FmtR) : M Unit := strmCmd (.vbcast x) do
  let a ← readS x.a
  let s ← get
  writeV x.d (s.activeLanes x.pk x.pn) (splat (a.setWidth 32))

/-- `vins` (R352): one lane, whatever `VL` holds. -/
def vinsBody (x : FmtR) : M Unit := strmCmd (.vins x) do
  let a ← readS x.a
  let b ← readS x.b
  writeV x.d (BitVec.twoPow 64 (bits b 5 0)) (splat (a.setWidth 32))

/-- `vext` (R352): a poisoned lane traps. -/
def vextBody (x : FmtR) : M Unit := strmCmd (.vext x) do
  let a ← readV x.a
  let b ← readS x.b
  let l := bits b 5 0
  need (!a.bad l) tcPoison (w64 l)
  writeS x.d ((a.at l).setWidth 64)

/-- `vmov` (R352): the active lanes with their poison, or a whole register pushed onto q6 or q7. -/
def vmovBody (x : FmtR) : M Unit := strmCmd (.vmov x) do
  let a ← readV x.a
  let s ← get
  writeV x.d (s.activeLanes x.pk x.pn) a

/-- A predicate form on all 64 bits (R348). -/
def kOp (x : FmtR) (f : Word → Word → Word) : M Unit := upd fun s => s.setK x.d.toNat (f (s.kReg x.a.toNat) (s.kReg x.b.toNat))

-- Memory

/-- A lane's address and element size checked: its window and its alignment (R294, R357, R358). (DEDUCED, assumption 13) -/
def laneCheck (a : Word) (e : Nat) : M Unit := checkAddr a e

/-- The place of a lane, or what it waits for: the other lanes go on (R263, R357). -/
def lanePlace (a : Word) (e : Nat) (k : AccKind) : M (Except Await Place) := fun s =>
  match place a e k s with
  | .ok (p, s) => .ok (.ok p, s)
  | .error (.wait w s) => .ok (.error w, s)
  | .error r => .error r

/-- Whether two lanes of `e` bytes share a byte. -/
def lanesMeet (e : Nat) (a b : Word) : Bool := (a - b).toNat < e || (b - a).toNat < e

/-- What an instruction waits for whose lanes wait: a ticket only where every one of them does. -/
def laneAwait (l : List Await) : Await :=
  match l.find? fun w => match w with
    | .ticket _ => false
    | _ => true with
  | some w => w
  | none => l.headD .hold

/-- The instruction waits with its vector operands and the lanes performed so far. -/
def waitLanes (ops : List VReg) (done : BitVec 64) (l : List Await) : M Unit := do
  upd fun s => s.setMe { s.me with data := ops, lanes := done }
  waitM (laneAwait l)

/-- Its vector operands, as they stood when it issued. -/
def heldOr (i : Nat) (m : M VReg) : M VReg := do
  let s ← get
  match s.me.data[i]? with
  | some v => pure v
  | none => m

/-- A scalar kept among the vector operands, in lanes 0 and 1. -/
def scalarReg (w : Word) : VReg := VReg.ofFn fun l => (if l = 0 then w.setWidth 32 else if l = 1 then (w >>> 32).setWidth 32 else 0, false)

/-- Its scalar operand, as it stood when it issued. -/
def heldScalar (m : M Word) : M Word := do
  let s ← get
  match s.me.data[0]? with
  | some v => pure ((v.at 1).setWidth 64 <<< 32 ||| (v.at 0).setWidth 64)
  | none => m

/-- What a pass over the lanes has done: the lanes performed, the addresses of those that wait, what they wait for, and those on failed pages. -/
structure LanePass where
  done : BitVec 64
  held : List Word := []
  waits : List Await := []
  bad : List Word := []
  reg : VReg := {}

/-- The lanes of a mask in ascending order. -/
def lanesIn (m : BitVec 64) : List Nat := (List.range 64).filter fun l => m.getLsbD l

/-- A vector load of the active lanes (R357): each is performed once nothing holds it; failed pages and poisoned words poison their lanes. `ops` are
the operands to keep while it waits. (DEDUCED, assumption 67) -/
def loadLanes (act : BitVec 64) (e : Nat) (addr : Nat → Word) (ops : List VReg) : M VReg := do
  let s ← get
  let got := s.me.data.getD ops.length {}
  let r ← (lanesIn (act &&& ~~~ s.me.lanes)).foldlM (fun (r : LanePass) l => do
    match ← lanePlace (addr l) e .read with
    | .error w => pure { r with waits := r.waits ++ [w] }
    | .ok p => do
      let v ← loadLane p e
      pure { r with done := r.done ||| BitVec.twoPow 64 l, reg := r.reg.merge (VReg.ofFn fun _ => v) (BitVec.twoPow 64 l) }) { done := s.me.lanes, reg := got }
  if r.waits = [] then pure r.reg
  else do
    waitLanes (ops ++ [r.reg]) r.done r.waits
    pure {}

/-- A vector store of the active lanes in ascending order (R357, R358): a lane that is held waits, with those that share a byte with it and, under
stochastic rounding, with those above it, which draw after it (R249), and the others are performed. It gives the lowest address of a lane on a failed page, if any. (DEDUCED, assumption 67) -/
def storeLanes (act : BitVec 64) (e : Nat) (addr : Nat → Word) (ops : List VReg) (v : VReg) : M (Option Word) := do
  let s ← get
  let r ← (lanesIn (act &&& ~~~ s.me.lanes)).foldlM (fun (r : LanePass) l => do
    if r.held.any (lanesMeet e (addr l)) || (r.held ≠ [] && rndMode 0 s.me.rm.toNat = .stoch) then pure { r with held := r.held ++ [addr l] }
    else
      match ← lanePlace (addr l) e .write with
      | .error w => pure { r with held := r.held ++ [addr l], waits := r.waits ++ [w] }
      | .ok .bad => pure { r with bad := r.bad ++ [addr l] }
      | .ok p => do
        storeLane p e (v.at l) (v.bad l)
        pure { r with done := r.done ||| BitVec.twoPow 64 l }) { done := s.me.lanes }
  if r.waits = [] then pure (minBy BitVec.toNat r.bad)
  else do
    waitLanes ops r.done r.waits
    pure none

/-- The element size of a vector access at `a` (R356), whose alignment is checked, after its window (R294). With no active lane a page that does not translate gives none, and
nothing is checked. (DEDUCED, assumption 20) -/
def vecElem (act : BitVec 64) (a : Word) (k : AccKind) : M Nat := fun s =>
  match pageFmt a k s with
  | .ok (f, t) =>
    if a.toNat % laneSize f = 0 then .ok (laneSize f, t)
    else
      match s.window a (laneSize f) with
      | .error c => .error (.trap c a none)
      | .ok _ => .error (.trap tcMisalign a none)
  | .error e => if act = 0 then .ok (1, s) else .error e

/-- `vld` (R356, R357). -/
def vldBody (x : FmtM) : M Unit := strmCmd (.vld x) do
  let s ← get
  let act := s.activeLanes x.pk x.pn
  let ea := memAddr x s
  let e ← vecElem act ea .read
  let addr (l : Nat) : Word := ea + w64 (e * l)
  (lanesIn act).forM fun l => laneCheck (addr l) e
  let v ← loadLanes act e addr []
  writeV x.dr act v

/-- `vst` (R356, R357). (DEDUCED, assumption 19) -/
def vstBody (x : FmtM) : M Unit := strmCmd (.vst x) do
  let s ← get
  let act := s.activeLanes x.pk x.pn
  let ea := memAddr x s
  let v ← heldOr 0 (readV x.dr)
  let e ← vecElem act ea .write
  let addr (l : Nat) : Word := ea + w64 (e * l)
  (lanesIn act).forM fun l => laneCheck (addr l) e
  if x.ord = 2 then releaseM else pure ()
  match ← storeLanes act e addr [v] v with
  | some a => trapKeep tcPoison a
  | none => pure ()

/-- `vgath` (R358). -/
def vgathBody (x : FmtR) : M Unit := strmCmd (.vgath x) do
  let a ← heldScalar (readS x.a)
  let ix ← heldOr 1 (readV x.b)
  let s ← get
  let act := s.activeLanes x.pk x.pn
  let good := act &&& ~~~ ix.poison
  if act = 0 then writeV x.d 0 {}
  else do
    let f ← pageFmt a .read
    let e := laneSize f
    let addr (l : Nat) : Word := a + w64 ((ix.at l).toNat * e)
    (lanesIn good).forM fun l => laneCheck (addr l) e
    let v ← loadLanes good e addr [scalarReg a, ix]
    writeV x.d act { v with poison := v.poison ||| (act &&& ix.poison) }

/-- `vscat` (R358). -/
def vscatBody (x : FmtR) : M Unit := strmCmd (.vscat x) do
  let a ← heldScalar (readS x.a)
  let ix ← heldOr 1 (readV x.b)
  let v ← heldOr 2 (readV x.c)
  let s ← get
  let act := s.activeLanes x.pk x.pn
  let good := act &&& ~~~ ix.poison
  if act = 0 then pure ()
  else do
    let f ← pageFmt a .write
    let e := laneSize f
    let addr (l : Nat) : Word := a + w64 ((ix.at l).toNat * e)
    (lanesIn good).forM fun l => laneCheck (addr l) e
    match ← storeLanes good e addr [scalarReg a, ix, v] v with
    | some w => trapKeep tcPoison w
    | none =>
      match leastBelow (fun l => act.getLsbD l && ix.bad l) 64 with
      | some l => trapKeep tcPoison (w64 l)
      | none => pure ()

/-- `vgrant` (R238, R359). -/
def vgrantBody (x : FmtR) : M Unit := do
  let n ← readS x.a
  let g := min n.toNat 64
  upd fun s => s.setMe { s.me with vl := max 1 g }
  writeS x.d (w64 g)

/-- `vadd` (R344). -/
def execVadd (x : FmtR) (s : State) : Host.Outcome State Fault Refusal :=
  native (.vadd x) (vecIssue (.vadd x) x) s

/-- `vsub` (R344). -/
def execVsub (x : FmtR) (s : State) : Host.Outcome State Fault Refusal :=
  native (.vsub x) (vecIssue (.vsub x) x) s

/-- `vmul` (R344). -/
def execVmul (x : FmtR) (s : State) : Host.Outcome State Fault Refusal :=
  native (.vmul x) (vecIssue (.vmul x) x) s

/-- `vfma` (R344). -/
def execVfma (x : FmtR) (s : State) : Host.Outcome State Fault Refusal :=
  native (.vfma x) (vecIssue (.vfma x) x) s

/-- `vmin` (R345). -/
def execVmin (x : FmtR) (s : State) : Host.Outcome State Fault Refusal :=
  native (.vmin x) (vecIssue (.vmin x) x) s

/-- `vmax` (R345). -/
def execVmax (x : FmtR) (s : State) : Host.Outcome State Fault Refusal :=
  native (.vmax x) (vecIssue (.vmax x) x) s

/-- `vdiv` (R344). -/
def execVdiv (x : FmtR) (s : State) : Host.Outcome State Fault Refusal :=
  native (.vdiv x) (vecIssue (.vdiv x) x) s

/-- `vand` (R344). -/
def execVand (x : FmtR) (s : State) : Host.Outcome State Fault Refusal :=
  native (.vand x) (vecIssue (.vand x) x) s

/-- `vor` (R344). -/
def execVor (x : FmtR) (s : State) : Host.Outcome State Fault Refusal :=
  native (.vor x) (vecIssue (.vor x) x) s

/-- `vxor` (R344). -/
def execVxor (x : FmtR) (s : State) : Host.Outcome State Fault Refusal :=
  native (.vxor x) (vecIssue (.vxor x) x) s

/-- `vshl` (R344). -/
def execVshl (x : FmtR) (s : State) : Host.Outcome State Fault Refusal :=
  native (.vshl x) (vecIssue (.vshl x) x) s

/-- `vshr` (R344). -/
def execVshr (x : FmtR) (s : State) : Host.Outcome State Fault Refusal :=
  native (.vshr x) (vecIssue (.vshr x) x) s

/-- `vsra` (R344). -/
def execVsra (x : FmtR) (s : State) : Host.Outcome State Fault Refusal :=
  native (.vsra x) (vecIssue (.vsra x) x) s

/-- `vceq` (R346). -/
def execVceq (x : FmtR) (s : State) : Host.Outcome State Fault Refusal :=
  native (.vceq x) (vecIssue (.vceq x) x) s

/-- `vcne` (R346). -/
def execVcne (x : FmtR) (s : State) : Host.Outcome State Fault Refusal :=
  native (.vcne x) (vecIssue (.vcne x) x) s

/-- `vclt` (R346). -/
def execVclt (x : FmtR) (s : State) : Host.Outcome State Fault Refusal :=
  native (.vclt x) (vecIssue (.vclt x) x) s

/-- `vcle` (R346). -/
def execVcle (x : FmtR) (s : State) : Host.Outcome State Fault Refusal :=
  native (.vcle x) (vecIssue (.vcle x) x) s

/-- `vsel` (R347). -/
def execVsel (x : FmtR) (s : State) : Host.Outcome State Fault Refusal :=
  native (.vsel x) (vecIssue (.vsel x) x) s

/-- `vcvt` (R351). -/
def execVcvt (x : FmtR) (s : State) : Host.Outcome State Fault Refusal :=
  native (.vcvt x) (vecIssue (.vcvt x) x) s

/-- `vbcast` (R352). -/
def execVbcast (x : FmtR) (s : State) : Host.Outcome State Fault Refusal :=
  native (.vbcast x) (vbcastBody x) s

/-- `vins` (R352). -/
def execVins (x : FmtR) (s : State) : Host.Outcome State Fault Refusal :=
  native (.vins x) (vinsBody x) s

/-- `vext` (R352). -/
def execVext (x : FmtR) (s : State) : Host.Outcome State Fault Refusal :=
  native (.vext x) (vextBody x) s

/-- `vmov` (R352). -/
def execVmov (x : FmtR) (s : State) : Host.Outcome State Fault Refusal :=
  native (.vmov x) (vmovBody x) s

/-- `kand` (R348). -/
def execKand (x : FmtR) (s : State) : Host.Outcome State Fault Refusal :=
  native (.kand x) (kOp x fun a b => a &&& b) s

/-- `kor` (R348). -/
def execKor (x : FmtR) (s : State) : Host.Outcome State Fault Refusal :=
  native (.kor x) (kOp x fun a b => a ||| b) s

/-- `kxor` (R348). -/
def execKxor (x : FmtR) (s : State) : Host.Outcome State Fault Refusal :=
  native (.kxor x) (kOp x fun a b => a ^^^ b) s

/-- `knot` (R348). -/
def execKnot (x : FmtR) (s : State) : Host.Outcome State Fault Refusal :=
  native (.knot x) (kOp x fun a _ => ~~~ a) s

/-- `vredsum` (R353). -/
def execVredsum (x : FmtR) (s : State) : Host.Outcome State Fault Refusal :=
  native (.vredsum x) (vecIssue (.vredsum x) x) s

/-- `vredmax` (R353). -/
def execVredmax (x : FmtR) (s : State) : Host.Outcome State Fault Refusal :=
  native (.vredmax x) (vecIssue (.vredmax x) x) s

/-- `vredmin` (R353). -/
def execVredmin (x : FmtR) (s : State) : Host.Outcome State Fault Refusal :=
  native (.vredmin x) (vecIssue (.vredmin x) x) s

/-- `vscan` (R353). -/
def execVscan (x : FmtR) (s : State) : Host.Outcome State Fault Refusal :=
  native (.vscan x) (vecIssue (.vscan x) x) s

/-- `vperm` (R354). -/
def execVperm (x : FmtR) (s : State) : Host.Outcome State Fault Refusal :=
  native (.vperm x) (vecIssue (.vperm x) x) s

/-- `vexp2` (R355). -/
def execVexp2 (x : FmtR) (s : State) : Host.Outcome State Fault Refusal :=
  native (.vexp2 x) (vecIssue (.vexp2 x) x) s

/-- `vlog2` (R355). -/
def execVlog2 (x : FmtR) (s : State) : Host.Outcome State Fault Refusal :=
  native (.vlog2 x) (vecIssue (.vlog2 x) x) s

/-- `vrcp` (R355). -/
def execVrcp (x : FmtR) (s : State) : Host.Outcome State Fault Refusal :=
  native (.vrcp x) (vecIssue (.vrcp x) x) s

/-- `vrsqrt` (R355). -/
def execVrsqrt (x : FmtR) (s : State) : Host.Outcome State Fault Refusal :=
  native (.vrsqrt x) (vecIssue (.vrsqrt x) x) s

/-- `vsqrt` (R355). -/
def execVsqrt (x : FmtR) (s : State) : Host.Outcome State Fault Refusal :=
  native (.vsqrt x) (vecIssue (.vsqrt x) x) s

/-- `vld` (R357). -/
def execVld (x : FmtM) (s : State) : Host.Outcome State Fault Refusal :=
  native (.vld x) (vldBody x) s

/-- `vst` (R357). -/
def execVst (x : FmtM) (s : State) : Host.Outcome State Fault Refusal :=
  native (.vst x) (vstBody x) s

/-- `vgath` (R358). -/
def execVgath (x : FmtR) (s : State) : Host.Outcome State Fault Refusal :=
  native (.vgath x) (vgathBody x) s

/-- `vscat` (R358). -/
def execVscat (x : FmtR) (s : State) : Host.Outcome State Fault Refusal :=
  native (.vscat x) (vscatBody x) s

/-- `vgrant` (R359). -/
def execVgrant (x : FmtR) (s : State) : Host.Outcome State Fault Refusal :=
  native (.vgrant x) (vgrantBody x) s

end Sys2Proof.Machine
end

