-- ==== Sys2Proof/Machine/Stream.lean ====
section
/-! DEFINITION. Stream registers (R239, R360 to R363): binding, unbinding, inspection, and the prefetch of a read stream. -/

namespace Sys2Proof.Machine

/-- A trap of an action keeps what was done before it. -/
def keeping {α : Type} (m : M α) : M α := fun s =>
  match m s with
  | .error (.trap c a none) => .error (.trap c a (some s))
  | r => r

/-- Unbinding (R363): once every pushed element is performed or discarded, the register is unbound, and `FAULT` traps with the lowest
discarded address. -/
def unbind (n : Nat) : M Unit := do
  let s ← get
  if !s.streaming n then pure ()
  else do
    upd fun s => s.performPushed s.myTile n
    let s ← get
    let v := s.strm s.myTile n
    if v.pushed ≠ [] then waitM .stream else pure ()
    upd fun s => s.setStrm s.myTile n { v with bound := false, fetched := [] }
    if v.fault then trapKeep tcPoison (v.lowest.getD 0) else pure ()

/-- The counts and reserved bits of a descriptor (R360, R361). -/
def strmOk (d : BitVec 512) : Bool :=
  fld d 511 289 = 0 && 1 ≤ fld d 287 256 && 1 ≤ fld d 127 112 && 1 ≤ fld d 191 176 && 1 ≤ fld d 255 240 && strmLen d ≤ 2 ^ 40

/-- `sbind` (R361). -/
def sbindBody (x : FmtR) : M Unit := do
  vecTurn
  let n := x.d.toNat - 16
  let a ← readS x.a
  unbind n
  let s ← get
  match s.window a 64 with
  | .error c => trapKeep c a
  | .ok _ => pure ()
  if a.toNat % 64 ≠ 0 then trapKeep tcMisalign a else pure ()
  let ws ← (List.range 8).mapM fun i => keeping (readM (a + w64 (8 * i)) 8)
  if ws.any fun w => w.2 then trapKeep tcPoison a else pure ()
  let d : BitVec 512 := BitVec.ofNat 512 (joinWords (ws.map fun w => w64 w.1))
  if !strmOk d then trapKeep tcEngerr 1 else pure ()
  let base := w64 (fld d 63 0)
  let s ← get
  match s.window base 1 with
  | .error _ => trapKeep tcEngerr 2
  | .ok _ => do
    let f ← pageFmt base (if fld d 288 288 = 1 then .write else .read)
    let e := laneSize f
    if base.toNat % e ≠ 0 then trapKeep tcEngerr 2
    else do
      upd fun s =>
        let c := s.myCore
        let s := s.setMyCore { c with fdead := c.fdead &&& ~~~ (BitVec.twoPow 32 n) }
        let (k, s) := s.newId
        s.setStrm s.myTile n { bound := true, desc := d, esz := e, launch := s.me.launch, ctx := s.curX, id := k }
      queueFlags 0

/-- `sbind` (R361). -/
def execSbind (x : FmtR) (s : State) : Host.Outcome State Fault Refusal := native (.sbind x) (sbindBody x) s

/-- `sunbind` (R363). -/
def sunbindBody (x : FmtR) : M Unit := strmCmd (.sunbind x) (unbind (x.d.toNat - 16))

/-- `sunbind` (R363). -/
def execSunbind (x : FmtR) (s : State) : Host.Outcome State Fault Refusal := native (.sunbind x) (sunbindBody x) s

/-- The word that `sstat` writes (R363). -/
def strmStatus (v : Stream) : Word :=
  w64 v.pos ||| ofBool v.bound <<< 41 ||| w64 (fld v.desc 288 288) <<< 42 ||| ofBool v.ovr <<< 43 ||| ofBool v.fault <<< 44

/-- `sstat` (R363). -/
def sstatBody (x : FmtR) : M Unit := do
  let s ← get
  writeS x.d (strmStatus (s.strm s.myTile (x.a.toNat - 16)))

/-- `sstat` (R363). -/
def execSstat (x : FmtR) (s : State) : Host.Outcome State Fault Refusal := native (.sstat x) (sstatBody x) s

/-- STREAM_ELEMENT_FETCH (R362) on tile `n`, register f`m`: the next element of a bound read stream enters its prefetch window, whether the strand
that bound it goes on or has halted; a write stream performs what it has pushed. -/
def State.streamFetch (s : State) : Option State :=
  let t := s.inp.n
  let n := s.inp.m
  let v := s.strm t n
  if !v.bound then none
  else if fld v.desc 288 288 = 1 then some (s.performPushed t n)
  else if strmLen v.desc ≤ (s.tile t).fetchAt n || prefetchSize (tmplPart (s.launch v.launch).tmpl) ≤ v.fetched.length then none
  else some (s.fetchNext t n).2

/-- STREAM_ELEMENT_FETCH (R362). -/
def execStreamElementFetch (s : State) : Host.Outcome State Fault Refusal := event State.streamFetch s

/-- ENGINE_COMMAND_START (R224) of the vector engine of tile `t`: the oldest command of its queue runs, a captured one once its elements have been
fetched; one that waits at its strand is started there. -/
def State.vecStart (s : State) (t : Nat) : Option State :=
  let q := s.vecEntries t
  match q, (s.tile t).vecRun with
  | e :: r, none =>
    (match e.stage with
    | .done => some (s.setTile t { s.tile t with vecQ := r, vecRun := some e })
    | .own _ => none
    | .held o =>
      let s := s.opsFill t o
      if s.opsReady t o then
        let p := s.vecPerform t e.ctx e.launch o
        some (p.2.setTile t { p.2.tile t with vecQ := r, vecRun := some { e with flags := p.1.1, stage := .done } })
      else some s)
  | _, _ => none

/-- VECTOR_COMMAND_COMPLETE (R253) on tile `n`: the flags of the oldest vector command enter the `AFLAGS` of its context. -/
def State.vectorComplete (s : State) : Option State :=
  let t := s.inp.n
  let tl := s.tile t
  match tl.vecRun with
  | some v =>
    let c := s.ctx v.ctx
    let s := s.setTile t { tl with vecRun := none }
    some (if c.st = .free then s else s.setCtx v.ctx { c with aflags := c.aflags ||| v.flags })
  | none => none

/-- VECTOR_COMMAND_COMPLETE (R253). -/
def execVectorCommandComplete (s : State) : Host.Outcome State Fault Refusal := event State.vectorComplete s

end Sys2Proof.Machine
end

