-- ==== Sys2Proof/Machine/Tiles.lean ====
section
/-! DEFINITION. Tile configuration and layout (R365 to R368), the accesses of a tile's engines, and the tile-load unit: `tld`,
`tldx`, `tst` and their rows (R369 to R373, R190, R198). -/

namespace Sys2Proof.Machine

-- Tile configuration

def cfgRows (c : Word) : Nat := bits c 5 0 + 1
def cfgCols (c : Word) : Nat := bits c 13 8 + 1
def cfgBgeo (c : Word) : Nat := bits c 17 16
def cfgFmt (c : Word) : Nat := bits c 28 24
def cfgBsrc (c : Word) : Bool := bit c 31
def cfgBase (c : Word) : Nat := bits c 39 32

/-- Limbs of a format (R365): 0 for INT8, FP4 and BFP. -/
def limbsOf (f : Nat) : Nat :=
  match f with
  | 12 | 13 => 1
  | 10 | 11 => 2
  | 9 => 3
  | _ => 0

/-- Mantissa bits of a block format (R243, R244). -/
def blockBits (f : Nat) : Nat := if f = 14 then 4 else f - 14

/-- The block size that `BGEO` names (R365). -/
def blockSize (g : Nat) : Nat := if g = 1 then 16 else 32

/-- The formats of a tile register (R365). -/
def tileFmt (f : Nat) : Bool := f = 7 || (9 ≤ f && f ≤ 14) || (16 ≤ f && f ≤ 22)

/-- The stored row width of a register (R366). -/
def storedWidth (c : Word) : Nat :=
  let f := cfgFmt c
  let n := cfgCols c
  if f = 7 then n else if 0 < limbsOf f then limbsOf f * n else n * blockBits f / 8

/-- A valid configuration (R366). -/
def cfgOk (c : Word) : Bool :=
  let g := cfgBgeo c
  tileFmt (cfgFmt c) &&
    (if cfgFmt c = 7 then g = 0 else (g = 1 || g = 2) && cfgCols c % blockSize g = 0) &&
    cfgRows c * storedWidth c ≤ 8064

/-- Bytes of an element of a format without blocks. -/
def fmtBytes (f : Nat) : Nat :=
  match f with
  | 9 | 3 => 4
  | 10 | 11 => 2
  | _ => 1

/-- ceil(C / (2n)) delta bytes (R367). -/
def deltaBytes (cols n : Nat) : Nat := (cols + 2 * n - 1) / (2 * n)

/-- The raw row width RW (R367). -/
def rawWidth (f cols n : Nat) : Nat := if blockType f then cols * blockBits f / 8 + deltaBytes cols n else cols * fmtBytes f

/-- RW of a configuration. -/
def cfgRaw (c : Word) : Nat := rawWidth (cfgFmt c) (cfgCols c) (blockSize (cfgBgeo c))

/-- RW of a tile store (R373): the limb layout for a limb register. -/
def cfgStore (c : Word) : Nat :=
  let l := limbsOf (cfgFmt c)
  if 0 < l then l * cfgCols c + deltaBytes (cfgCols c) (blockSize (cfgBgeo c)) else cfgRaw c

/-- The page format of an element format (R367); none for INT32. -/
def pageOf (f : Nat) : Option Nat :=
  match f with
  | 7 => some 7
  | 9 => some 1
  | 10 => some 2
  | 11 => some 3
  | 12 => some 4
  | 13 => some 5
  | 14 => some 6
  | _ => if 16 ≤ f && f ≤ 22 then some (f - 8) else none

-- Rows

/-- The `w` bits of element `k` of a little-endian bit string, with the poison of the bytes that hold it. (DEDUCED, assumption 37) -/
def bitElem (bs : List (Nat × Bool)) (w k : Nat) : Nat × Bool :=
  let lo := k * w / 8
  let hi := (k * w + w - 1) / 8
  let part := (bs.drop lo).take (hi + 1 - lo)
  ((leNat part >>> (k * w % 8)) % 2 ^ w, part.any fun b => b.2)

/-- Delta nibble `j` of a delta area that starts at byte 0 (R367). -/
def nibble (bs : List (Nat × Bool)) (j : Nat) : Nat × Bool :=
  let b := bs.getD (j / 2) (0, false)
  ((b.1 >>> (4 * (j % 2))) % 16, b.2)

/-- The codes of a row in order, each with its poison, and the deltas of its blocks (R367, R260). -/
def rowOf (f cols n : Nat) (bs : List (Nat × Bool)) : List (Nat × Bool) × List Nat :=
  if blockType f then
    let w := blockBits f
    let ds := (List.range (cols / n)).map fun j => nibble (bs.drop (cols * w / 8)) j
    ((List.range cols).map fun k =>
      let e := bitElem bs w k
      (e.1, e.2 || (ds.getD (k / n) (0, false)).2), ds.map Prod.fst)
  else
    let m := fmtBytes f
    ((List.range cols).map fun k => bitElem bs (8 * m) k, [])

/-- The mantissas of one row as the register stores them, with its deltas (R370): as read for INT8, FP4 and BFP; chosen and rounded per
block for a limb format (R258). A poisoned element takes its step of the stochastic source too. (DEDUCED, assumption 71) -/
def rowMantissas (f n base : Nat) (m : Rnd) (es : List (Nat × Bool)) (ds : List Nat) (p : Fp) : (List Int × List Nat) × Fp :=
  let L := limbsOf f
  if L = 0 then
    ((es.map fun e =>
      if f = 14 then (e.1 : Int) else if f = 7 then (BitVec.ofNat 8 e.1).toInt else (BitVec.ofNat (f - 14) e.1).toInt, ds), p)
  else
    let fm := (fmtOfDt f).getD fp32
    let q := 2 ^ (8 * L - 1)
    let r := (List.range (es.length / n)).foldl (fun (a : (List Int × List Nat) × Fp) j =>
      let blk := (es.drop (j * n)).take n
      let vs := (blk.filter fun e => !e.2).map fun e => fm.decode e.1
      let d := blockDelta true base (8 * L - 2) (q - 1) vs
      let k : Int := (base : Int) + d - 127 - ((8 * L : Nat) - 2 : Int)
      let b := blk.foldl (fun (c : List Int × Fp) e =>
        if e.2 then (0 :: c.1, (c.2.draw m).2)
        else
          let x := toMantissa true m (-(q : Int)) ((q : Int) - 1) ((fm.decode e.1).scale (-k)) c.2
          (x.1 :: c.1, x.2)) ([], a.2)
      ((a.1.1 ++ b.1.reverse, a.1.2 ++ [d]), b.2)) (([], []), p)
    r

/-- A row stored into a tile register. -/
def TReg.putRow (v : TReg) (r : Nat) (ms : List Int) (ds : List Nat) (bad : List Bool) : TReg :=
  { v with
    elem := (List.range ms.length).foldl (fun t c => Tbl.set 0 t (64 * r + c) (ms.getD c 0)) v.elem
    delta := (List.range ds.length).foldl (fun t j => Tbl.set 0 t (64 * r + j) (ds.getD j 0)) v.delta
    poison := (List.range bad.length).foldl (fun t c => Tbl.set false t (64 * r + c) (bad.getD c false)) v.poison }

/-- A poisoned row. -/
def TReg.poisonRow (v : TReg) (r cols : Nat) : TReg := v.putRow r (List.replicate cols 0) [] (List.replicate cols true)

/-- A row's bytes in the raw or limb layout (R367, R373), a poisoned element marking its bytes. -/
def TReg.rowBytes (v : TReg) (c : Word) (r : Nat) : List (Nat × Bool) :=
  let f := cfgFmt c
  let cols := cfgCols c
  let n := blockSize (cfgBgeo c)
  let L := limbsOf f
  let el (k : Nat) : Int := Tbl.get 0 v.elem (64 * r + k)
  let bad (k : Nat) : Bool := Tbl.get false v.poison (64 * r + k)
  let nibs := (List.range (deltaBytes cols n)).map fun j =>
    (Tbl.get 0 v.delta (64 * r + 2 * j) + 16 * (if 2 * j + 1 < cols / n then Tbl.get 0 v.delta (64 * r + 2 * j + 1) else 0), false)
  if f = 7 then (List.range cols).map fun k => ((el k % 256).toNat, bad k)
  else if 0 < L then
    ((List.range cols).flatMap fun k =>
      let m := (el k % 2 ^ (8 * L)).toNat
      (List.range L).map fun i => ((m >>> (8 * i)) % 256, bad k)) ++ nibs
  else
    let w := blockBits f
    let all := (List.range cols).foldl (fun a k => a + ((el k % 2 ^ w).toNat <<< (w * k))) 0
    ((List.range (cols * w / 8)).map fun i =>
      ((all >>> (8 * i)) % 256, (List.range cols).any fun k => bad k && k * w / 8 ≤ i && i ≤ (k * w + w - 1) / 8)) ++ nibs

-- The error log

/-- An entry of the tile's error log (R381): dropped and counted when the log is full. -/
def State.logErr (s : State) (t code : Nat) (matrix : Bool) (reg row col : Nat) : State :=
  let tl := s.tile t
  if 16 ≤ tl.errlog.length then s.setTile t { tl with lost := min 255 (tl.lost + 1) }
  else
    let w : Word := w64 (2 ^ 63 + code * 2 ^ 24 + (if matrix then 2 ^ 23 else 0) + reg * 2 ^ 20 + row * 2 ^ 8 + col)
    s.setTile t { tl with errlog := tl.errlog ++ [w] }

def State.treg (s : State) (t n : Nat) : TReg := Tbl.get {} (s.tile t).treg n
def State.setTreg (s : State) (t n : Nat) (v : TReg) : State := s.setTile t { s.tile t with treg := Tbl.set {} (s.tile t).treg n v }

-- Issue

/-- The tile-load unit's queue holds two entries that have not started (R224). -/
def loadRoom : M Unit := do
  let s ← get
  if 2 ≤ ((s.tile s.myTile).loadQ.filter fun c => !c.started).length then holdM else pure ()

/-- A tile register's number from its code. -/
def tregNo (c : BitVec 6) : Nat := c.toNat - 56

/-- The configuration of a tile register, checked (R366). -/
def cfgOf (n : Nat) : M Word := do
  let s ← get
  let c := Tbl.get 0 (s.tile s.myTile).tcfg n
  need (cfgOk c) tcEngerr 1
  pure c

/-- The row width and the unit of addresses with which a command's address is checked, before its configuration (R294): those of an invalid one are a
byte. (DEDUCED, assumption 21) -/
def checkedAs (c : Word) (rw unit : Nat) : Nat × Nat := if cfgOk c then (rw, unit) else (1, 1)

/-- The bytes of a source element (R370). (DEDUCED, assumption 21) -/
def sourceUnit (c : Word) : Nat := if 0 < limbsOf (cfgFmt c) then fmtBytes (cfgFmt c) else 1

/-- The mode of a command as an `RM` code of 1 to 5 (R287, R370). -/
def modeOf (rm : Nat) (s : State) : Nat := if rm = 0 then s.me.rm.toNat + 1 else rm

/-- Rows 0 and `ROWS` checked at issue (R368, R370). -/
def rowsCheck (a b : Word) (rows w unit : Nat) : M Unit := do
  let s ← get
  match s.window a w with
  | .error c => trapM c a
  | .ok _ => pure ()
  let z := a + w64 (rows - 1) * b
  match s.window z w with
  | .error c => trapM c z
  | .ok _ => pure ()
  need (a.toNat % unit = 0) tcMisalign a
  need (b.toNat % unit = 0) tcMisalign b

/-- A command put into the tile-load unit's queue. -/
def pushLoad (c : LoadCmd) : M Unit := upd fun s =>
  let (n, s) := s.newId
  s.setTile s.myTile { s.tile s.myTile with loadQ := (s.tile s.myTile).loadQ ++ [{ c with id := n }] }

/-- The base that a tile load captures (R370). -/
def loadBase (c : Word) (br : Bool) (v : Nat) : M Nat :=
  if cfgBsrc c then (if br then pure v else trapM tcEngerr 3) else pure (cfgBase c)

/-- `tld` (R369, R370). (DEDUCED, assumption 21) -/
def tldBody (x : FmtE) : M Unit := do
  loadRoom
  let s ← get
  let n := tregNo x.d
  let k := Tbl.get 0 (s.tile s.myTile).tcfg n
  let a := s.gReg x.a.toNat
  let b := s.gReg x.b.toNat
  let w := checkedAs k (cfgRaw k) (sourceUnit k)
  rowsCheck a b (cfgRows k) w.1 w.2
  let c ← cfgOf n
  let base ← loadBase c (x.cb 3 3 = 1) (bits (s.gReg x.c.toNat) 7 0)
  earlierM
  pushLoad { kind := .tld, reg := n, cfg := c, a := a, b := b, base := base, mode := modeOf (x.cb 2 0) s, filt := false, ctl := 0,
             launch := s.me.launch, pasid := s.myPasid, ctx := s.myKey, x := s.curX, rows := List.range (cfgRows c) }

/-- `tld` (R369). -/
def execTld (x : FmtE) (s : State) : Host.Outcome State Fault Refusal := native (.tld x) (tldBody x) s

/-- `tldx` (R371, R372). -/
def tldxBody (x : FmtE) : M Unit := do
  loadRoom
  let s ← get
  let n := tregNo x.d
  let a := s.gReg x.a.toNat
  let b := s.gReg x.b.toNat
  let g := s.gReg x.c.toNat
  let sg := x.cb 4 4 = 1
  if sg && (subgroupOf s.myLaunch s.myTile (bits g 5 0)).isNone then trapM tcIllop (encode (.tldx x)) else pure ()
  let k := Tbl.get 0 (s.tile s.myTile).tcfg n
  need (b.toNat >>> 20 = 0xFF000000000) tcAperture b
  match s.window b (4 * cfgRows k) with
  | .error r => trapM r b
  | .ok _ => pure ()
  if sg then need (bits a 63 20 = 0) tcAperture a else need (a.toNat >>> 20 = 0xFF000000000) tcAperture a
  need (bits b 1 0 = 0) tcMisalign b
  need (a.toNat % (checkedAs k 1 (sourceUnit k)).2 = 0) tcMisalign a
  let c ← cfgOf n
  if sg then need (bits g 63 52 = 0 && bits g 7 6 = 0 && bits g 31 16 ≠ 0) tcEngerr 1 else pure ()
  let base ← loadBase c (sg || x.cb 3 3 = 1) (if sg then bits g 15 8 else bits g 7 0)
  earlierM
  pushLoad { kind := if sg then .tldxsg else .tldx, reg := n, cfg := c, a := a, b := b, base := base, mode := modeOf (x.cb 2 0) s,
             filt := x.cb 5 5 = 1, ctl := g, launch := s.me.launch, pasid := s.myPasid, ctx := s.myKey, x := s.curX,
             rows := List.range (cfgRows c) }

/-- `tldx` (R371). -/
def execTldx (x : FmtE) (s : State) : Host.Outcome State Fault Refusal := native (.tldx x) (tldxBody x) s

/-- `tst` (R373). -/
def tstBody (x : FmtE) : M Unit := do
  loadRoom
  let s ← get
  let n := tregNo x.c
  let k := Tbl.get 0 (s.tile s.myTile).tcfg n
  let a := s.gReg x.a.toNat
  let b := s.gReg x.b.toNat
  rowsCheck a b (cfgRows k) (checkedAs k (cfgStore k) 1).1 1
  let c ← cfgOf n
  earlierM
  pushLoad { kind := .tst, reg := n, cfg := c, a := a, b := b, base := 0, mode := 1, filt := false, ctl := 0,
             launch := s.me.launch, pasid := s.myPasid, ctx := s.myKey, x := s.curX, rows := List.range (cfgRows c) }

/-- `tst` (R373). -/
def execTst (x : FmtE) (s : State) : Host.Outcome State Fault Refusal := native (.tst x) (tstBody x) s

-- The unit

/-- The head command of the tile-load unit replaced. -/
def State.setLoad (s : State) (t : Nat) (c : LoadCmd) : State := s.setTile t { s.tile t with loadQ := c :: (s.tile t).loadQ.tail }

/-- A finished load: its register is Full with its base, its flags enter `AFLAGS`, its entry leaves (R370). -/
def State.loadDone (s : State) (t : Nat) (c : LoadCmd) : State :=
  let s := s.setTile t { s.tile t with loadQ := (s.tile t).loadQ.tail }
  let s := if c.kind = .tst then s else s.setTreg t c.reg { s.treg t c.reg with sem := .full, base := c.base }
  let v := s.ctx c.ctx
  if v.st = .free then s else s.setCtx c.ctx { v with aflags := v.aflags ||| c.flags }

/-- Row `r` no longer expected; the load completes with its last row. -/
def State.rowGone (s : State) (t : Nat) (c : LoadCmd) (r : Nat) : State :=
  let c := { c with rows := c.rows.filter (· ≠ r), ticket := none }
  if c.rows.isEmpty then s.loadDone t c else s.setLoad t c

/-- A row that lands poisoned with an error in the log (R368). -/
def State.rowBad (s : State) (t : Nat) (c : LoadCmd) (r code : Nat) : State :=
  let s := s.setTreg t c.reg ((s.treg t c.reg).poisonRow r (cfgCols c.cfg))
  (s.logErr t code false c.reg r 0).rowGone t c r

/-- The steps of the stochastic source that the conversions of a tile load take are its own from its start (R249): those of row r begin r rows of
columns after the state that it found. (DEDUCED, assumption 71) -/
def State.takeSteps (s : State) (t : Nat) (c : LoadCmd) : LoadCmd × State :=
  let x := (s.tile t).rndseed
  if 0 < limbsOf (cfgFmt c.cfg) && rndMode c.mode 0 = .stoch then
    ({ c with seed := x }, s.setTile t { s.tile t with rndseed := lfsrAfter x (cfgRows c.cfg * cfgCols c.cfg) })
  else ({ c with seed := x }, s)

/-- A tile load that starts (R370, R372): its register becomes Loading; a `tldx` reads its index vector, and the rows of poisoned
entries land poisoned at once. -/
def State.loadStart (s : State) (t : Nat) : Option State :=
  match (s.tile t).loadQ with
  | [] => none
  | c :: _ =>
    if c.started then none
    else
      let v := s.treg t c.reg
      if c.kind = .tst then (if v.sem = .full then some (s.setLoad t { c with started := true }) else none)
      else if v.sem ≠ .empty then none
      else
        let n := c.rows.length
        let off := bits c.b 19 0
        if (c.kind = .tldx || c.kind = .tldxsg) && s.heldSpad t off (4 * n) none then none
        else
          let s := s.setTreg t c.reg { sem := .loading, cfg := c.cfg }
          let (c, s) := s.takeSteps t c
          if c.kind = .tld then some (s.setLoad t { c with started := true })
          else
            let (bs, s) := s.loadParts [(poolKey t off, 4 * n, none)]
            let ent (r : Nat) : Nat × Bool := bitElem bs 32 r
            let ix := (List.range n).foldl (fun m r => Tbl.put m r (ent r).1) ([] : Tbl Nat)
            let c := { c with started := true, index := ix }
            let s := s.setLoad t c
            some ((List.range n).foldl (fun s r =>
              if (ent r).2 then
                match (s.tile t).loadQ with
                | c :: _ => s.rowBad t c r 8
                | [] => s
              else s) s)

/-- Where the elements and the deltas of a row stand in the unit of a block-format page (R245, R367), each as offset and bytes: none where the row
leaves its unit or begins off a block. -/
def blockSpan (f cols n pageN off : Nat) : Option ((Nat × Nat) × (Nat × Nat)) :=
  let w := blockBits f
  let cap := 458752 / (w * pageN) * pageN
  if off % pageN ≠ 0 || pageN ≠ n || cap < off + cols then none
  else
    let j := off / pageN
    some ((off * w / 8, cols * w / 8), (0xE000 + j / 2, (j % 2 + cols / n + 1) / 2))

/-- The elements of a row and its deltas from those bytes, whose first block is number `j` of the unit (R245, R260). -/
def blockDecode (f cols n j : Nat) (bs db : List (Nat × Bool)) : List (Nat × Bool) × List Nat :=
  let ds := (List.range (cols / n)).map fun i => nibble db (j % 2 + i)
  ((List.range cols).map fun k =>
    let e := bitElem bs (blockBits f) k
    (e.1, e.2 || (ds.getD (k / n) (0, false)).2), ds.map Prod.fst)

/-- A row decoded into its register, its flags kept with the command. (DEDUCED, assumption 71) -/
def State.rowLand (s : State) (t : Nat) (c : LoadCmd) (r : Nat) (es : List (Nat × Bool)) (ds : List Nat) : State :=
  let q := rowMantissas (cfgFmt c.cfg) (blockSize (cfgBgeo c.cfg)) c.base (rndMode c.mode 0) es ds
    { seed := lfsrAfter c.seed (r * cfgCols c.cfg), flags := 0 }
  let s := s.setTreg t c.reg ((s.treg t c.reg).putRow r q.1.1 q.1.2 (es.map Prod.snd))
  s.rowGone t { c with flags := c.flags ||| q.2.flags } r

/-- A row of raw bytes landed. -/
def State.rowRaw (s : State) (t : Nat) (c : LoadCmd) (r : Nat) (bs : List (Nat × Bool)) : State :=
  let q := rowOf (cfgFmt c.cfg) (cfgCols c.cfg) (blockSize (cfgBgeo c.cfg)) bs
  s.rowLand t c r q.1 q.2

/-- The page format and the block size (R245) of the page of an address that tile `t`'s engine reads, where it is a global one that translates.
(DEDUCED, assumption 37) -/
def State.pageBlock (s : State) (t pasid : Nat) (a : Word) : Option (Nat × Nat) × State :=
  if a.toNat >>> 56 ≠ 0 then (none, s)
  else
    match s.translate t pasid a.toNat .read with
    | (.ok e, s) => (some (leafPfmt e.leaf, if leafBgeo e.leaf = 1 then 16 else 32), s)
    | (_, s) => (none, s)

/-- What stops an access of a row: an error in the log, a failed remote check, a wait, or a ticket (R368, R370). -/
def State.rowStop (s : State) (t : Nat) (c : LoadCmd) (r : Nat) : EngAcc → State
  | .noWin => s.rowBad t c r 2
  | .remoteBad t' off =>
    let s := s.remoteError t' off t
    (s.setTreg t c.reg ((s.treg t c.reg).poisonRow r (cfgCols c.cfg))).rowGone t c r
  | .fault n => s.setLoad t { c with ticket := some n }
  | _ => s

/-- A row of a block-format page: its mantissa bytes and its delta bytes are what is read, held and checked (R245, R370). -/
def State.blockRow (s : State) (t : Nat) (c : LoadCmd) (r : Nat) (a : Word) (pageN : Nat) : State :=
  let f := cfgFmt c.cfg
  let n := blockSize (cfgBgeo c.cfg)
  let off := a.toNat % 65536
  let unit := a - w64 off
  match blockSpan f (cfgCols c.cfg) n pageN off with
  | none => s.rowBad t c r 5
  | some (m, d) =>
    match s.engAccess t c.x true c.launch (unit + w64 m.1) m.2 .read (loadWork t c.id) with
    | (.ok ps, s) =>
      match s.engAccess t c.x true c.launch (unit + w64 d.1) d.2 .read (loadWork t c.id) with
      | (.ok ds, s) =>
        let (bs, s) := s.loadParts ps
        let (db, s) := s.loadParts ds
        let q := blockDecode f (cfgCols c.cfg) n (off / pageN) bs db
        s.rowLand t c r q.1 q.2
      | (e, s) => s.rowStop t c r e
    | (e, s) => s.rowStop t c r e

/-- A row in the raw layout, in a scratchpad or on a page of another kind (R367). -/
def State.rawRow (s : State) (t : Nat) (c : LoadCmd) (r : Nat) (a : Word) : State :=
  match s.engAccess t c.x true c.launch a (cfgRaw c.cfg) .read (loadWork t c.id) with
  | (.ok ps, s) =>
    let pf := ps.map fun p => p.2.2
    if pf.contains (some 15) then s.rowBad t c r 6
    else if pf.any fun p => p ≠ none && p ≠ some 0 && p ≠ pageOf (cfgFmt c.cfg) then s.rowBad t c r 5
    else
      let (bs, s) := s.loadParts ps
      s.rowRaw t c r bs
  | (e, s) => s.rowStop t c r e

/-- Row `r` of a `tld` arrives from its address (R367, R370). (DEDUCED, assumption 37) -/
def State.tldRow (s : State) (t : Nat) (c : LoadCmd) (r : Nat) : State :=
  let a := c.a + w64 r * c.b
  let f := cfgFmt c.cfg
  if c.failed then s.rowBad t c r 7
  else
    let (pg, s) := if blockType f then s.pageBlock t c.pasid a else (none, s)
    match pg with
    | some (pf, pageN) => if some pf = pageOf f then s.blockRow t c r a pageN else s.rawRow t c r a
    | none => s.rawRow t c r a

/-- Row `r` of a local `tldx` arrives (R372). -/
def State.tldxRow (s : State) (t : Nat) (c : LoadCmd) (r : Nat) : State :=
  let rw := cfgRaw c.cfg
  let a := c.a.toNat + Tbl.get 0 c.index r * rw
  if a >>> 20 ≠ 0xFF000000000 || a % 2 ^ 20 + rw > s.spadBytes t then s.rowBad t c r 8
  else if s.heldSpad t (a % 2 ^ 20) rw none then s
  else
    let (bs, s) := s.loadParts [(poolKey t (a % 2 ^ 20), rw, none)]
    s.rowRaw t c r bs

/-- Where row `r` of a subgroup `tldx` stands (R372): its owner, the offset of the row there and of its dispatch byte (R190); none where its index names
no row of the table. -/
def State.sgPlace (s : State) (t : Nat) (c : LoadCmd) (r : Nat) : Option (Nat × Nat × Nat) :=
  let e := Tbl.get 0 c.index r
  let i := if c.filt then e % 2 ^ 29 else e
  let p := bits c.ctl 31 16
  match subgroupOf (s.launch c.launch) t (bits c.ctl 5 0) with
  | none => none
  | some g =>
    if g.size * p ≤ i then none else some (g.tileOf (i / p), bits c.a 19 0 + i % p * cfgRaw c.cfg, bits c.ctl 51 32 + i % p)

/-- Row `r` of a subgroup `tldx` arrives from its owner (R372), through the dispatch filter when it is set (R190). -/
def State.tldxsgRow (s : State) (t : Nat) (c : LoadCmd) (r : Nat) : State :=
  let rw := cfgRaw c.cfg
  let e := Tbl.get 0 c.index r
  match s.sgPlace t c r with
  | none => s.rowBad t c r 8
  | some (j, off, df) =>
    if s.spadBytes j < off + rw || (c.filt && s.spadBytes j < df + 1) then
      let s := s.remoteError j (if s.spadBytes j < off + rw then off else df) t
      (s.setTreg t c.reg ((s.treg t c.reg).poisonRow r (cfgCols c.cfg))).rowGone t c r
    else if s.heldSpad j off rw none || (c.filt && s.heldSpad j df 1 none) then s
    else
      let k := poolKey j df
      let old := (s.byte k).toNat
      let sent := c.filt && old.testBit (e / 2 ^ 29)
      let s := if c.filt then s.store k 1 (old ||| 2 ^ (e / 2 ^ 29)) false else s
      if sent then
        let tl := s.tile t
        let s := s.setTile t { tl with dupdrop := if tl.dupdrop = BitVec.allOnes 32 then tl.dupdrop else tl.dupdrop + 1 }
        s.rowGone t c r
      else
        let (bs, s) := s.loadParts [(poolKey j off, rw, none)]
        s.rowRaw t c r bs

/-- Row `r` of a `tst` is written (R373). -/
def State.tstRow (s : State) (t : Nat) (c : LoadCmd) (r : Nat) : State :=
  let a := c.a + w64 r * c.b
  let f := cfgFmt c.cfg
  if c.failed then (s.logErr t 7 false c.reg r 0).rowGone t c r
  else
    match s.engAccess t c.x true c.launch a (cfgStore c.cfg) .write (loadWork t c.id) with
    | (.noWin, s) => (s.logErr t 2 false c.reg r 0).rowGone t c r
    | (.remoteBad t' off, s) => (s.remoteError t' off t).rowGone t c r
    | (.wait, s) => s
    | (.fault n, s) => s.setLoad t { c with ticket := some n }
    | (.ok ps, s) =>
      let pf := ps.map fun p => p.2.2
      if pf.contains (some 15) then (s.logErr t 6 false c.reg r 0).rowGone t c r
      else if pf.any fun p => p ≠ none && p ≠ some 0 && (0 < limbsOf f || p ≠ pageOf f) then
        (s.logErr t 5 false c.reg r 0).rowGone t c r
      else (s.storeParts ps ((s.treg t c.reg).rowBytes c.cfg r)).rowGone t c r

/-- Row `r` may be tried: it has been issued, or every row before it has (R198). -/
def LoadCmd.mayIssue (c : LoadCmd) (r : Nat) : Bool := c.rows.all fun q => r ≤ q || q < c.issued

/-- The ranges that row `r` of a tile load reads. -/
def State.rowWins (s : State) (t : Nat) (c : LoadCmd) (r : Nat) : List (Win × Nat) :=
  let rw := cfgRaw c.cfg
  match c.kind with
  | .tld =>
    let a := c.a + w64 r * c.b
    let f := cfgFmt c.cfg
    let unit := a - w64 (a.toNat % 65536)
    let spans : List (Word × Nat) := match if blockType f then (s.pageBlock t c.pasid a).1 else none with
      | some (pf, n) =>
        if some pf ≠ pageOf f then [(a, rw)]
        else (match blockSpan f (cfgCols c.cfg) (blockSize (cfgBgeo c.cfg)) n (a.toNat % 65536) with
          | some (m, d) => [(unit + w64 m.1, m.2), (unit + w64 d.1, d.2)]
          | none => [])
      | none => [(a, rw)]
    spans.filterMap fun p => match s.tileWindow t c.x true (s.launch c.launch) p.1 p.2 with
      | .ok w => some (w, p.2)
      | .error _ => none
  | .tldx => [(.spad t ((c.a.toNat + Tbl.get 0 c.index r * rw) % 2 ^ 20) false, rw)]
  | .tldxsg => (match s.sgPlace t c r with
    | some (j, off, df) => (.spad j off true, rw) :: (if c.filt then [(.spad j df true, 1)] else [])
    | none => [])
  | .tst => []

/-- Whether a row reads bytes that an earlier row of its load has still to read: the reads of one place keep the order of the rows (R264). -/
def State.rowBehind (s : State) (t : Nat) (c : LoadCmd) (r : Nat) : Bool :=
  (c.rows.filter fun q => q < r).any fun q =>
    (s.rowWins t c q).any fun v => (s.rowWins t c r).any fun w => v.1.meets w.1 v.2 w.2

/-- TILE_LOAD_ROW_ARRIVAL (R198, R264, R373): row `m` of the command under way on tile `n`; rows are issued in row order, and those of a store also go
in that order. -/
def State.loadRow (s : State) : Option State :=
  let t := s.inp.n
  let r := s.inp.m
  match (s.tile t).loadQ with
  | [] => none
  | c :: _ =>
    if !c.started || !c.rows.contains r || c.ticket.isSome || !c.mayIssue r || s.rowBehind t c r then none
    else
      let c := { c with issued := max c.issued (r + 1) }
      let s := s.setLoad t c
      match c.kind with
      | .tld => some (s.tldRow t c r)
      | .tldx => some (s.tldxRow t c r)
      | .tldxsg => some (s.tldxsgRow t c r)
      | .tst => if c.rows.head? = some r then some (s.tstRow t c r) else none

/-- TILE_LOAD_ROW_ARRIVAL (R198). -/
def execTileLoadRowArrival (s : State) : Host.Outcome State Fault Refusal := event State.loadRow s

end Sys2Proof.Machine
end

