-- ==== Sys2Proof/Machine/Matrix.lean ====
section
/-! DEFINITION. The matrix engine (R374 to R381): products into exact accumulators (R255 to R260), reading them, writing them back,
their status, and the error log. -/

namespace Sys2Proof.Machine

def State.acc (s : State) (t n : Nat) : Acc := Tbl.get {} (s.tile t).acc n
def State.setAcc (s : State) (t n : Nat) (v : Acc) : State := s.setTile t { s.tile t with acc := Tbl.set {} (s.tile t).acc n v }

-- Operands of a step

/-- Limbs of an operand's format; the formats without limbs count as one (R375). -/
def limbCount (f : Nat) : Nat := max 1 (limbsOf f)

/-- The exponent offset g of an operand format (R256). -/
def operandG (f : Nat) : Nat :=
  if f = 7 then 6 else if f = 14 then 1 else if 0 < limbsOf f then 8 * limbsOf f - 2 else f - 16

/-- The integer mantissa of limb `i` of a stored element, with its limb weight (R256, R258). -/
def operandM (f i : Nat) (e : Int) : Int :=
  if f = 14 then
    let c := e.toNat
    let v : Int := [0, 1, 2, 3, 4, 6, 8, 12].getD (c % 8) 0
    if c / 8 % 2 = 1 then -v else v
  else if 0 < limbsOf f then
    (if i + 1 < limbsOf f then e / 2 ^ (8 * i) % 256 else e / 2 ^ (8 * i)) * 2 ^ (8 * i)
  else e

/-- The base of an operand: 133 for INT8 (R256). -/
def operandBase (f base : Nat) : Nat := if f = 7 then 133 else base

/-- Element (r, c) of an operand under its captured configuration: mantissa and delta; zero outside it or when poisoned. -/
def TReg.operand (v : TReg) (cfg : Word) (limb r c : Nat) : Int × Nat :=
  if r < cfgRows cfg && c < cfgCols cfg && !Tbl.get false v.poison (64 * r + c) then
    (operandM (cfgFmt cfg) limb (Tbl.get 0 v.elem (64 * r + c)),
     if cfgFmt cfg = 7 then 0 else Tbl.get 0 v.delta (64 * r + c / blockSize (cfgBgeo cfg)))
  else (0, 0)

/-- An accumulator element as an integer: a poisoned one is taken as zero (R235). -/
def Acc.int (v : Acc) (k : Nat) : Int := if Tbl.get false v.bad k then 0 else (Tbl.get 0 v.val k).toInt

/-- The limits of an accumulator element (R256). -/
def accMax : Int := 2 ^ 95 - 1
def accMin : Int := -2 ^ 95

/-- One product step (R256) of limbs `i` and `j`: the sums in units of 2^(P - 298), the anchor, the saturation. -/
def Acc.step (v : Acc) (a b : TReg) (cfga cfgb : Word) (i j : Nat) : Acc :=
  let fa := cfgFmt cfga
  let fb := cfgFmt cfgb
  let P := operandBase fa a.base + operandBase fb b.base
  let A := if v.anchored then min v.anchor P else P
  let down := if v.anchored then v.anchor - A else 0
  let up := P - A
  let e0 := 44 - operandG fa - operandG fb
  let el (r c : Nat) : Int :=
    let s := (List.range 32).foldl (fun (t : Int) k =>
      let x := a.operand cfga i r k
      let y := b.operand cfgb j k c
      t + x.1 * y.1 * 2 ^ (x.2 + y.2 + e0)) 0
    v.int (64 * r + c) * 2 ^ down + s * 2 ^ up
  let all := (List.range 4096).map fun k => (k, el (k / 64) (k % 64))
  { v with
    val := all.filterMap fun e => if e.2 = 0 then none else some (e.1, BitVec.ofInt 96 (min accMax (max accMin e.2)))
    bad := []
    anchor := A
    anchored := true
    ovf := v.ovf || all.any fun e => e.2 < accMin || accMax < e.2 }

/-- The value of an element (R255); an unanchored accumulator reads as zero. -/
def Acc.value (v : Acc) (k : Nat) : Ex :=
  if v.anchored then (Ex.ofInt (v.int k)).scale ((v.anchor : Int) - 298) else Ex.ofInt 0

-- Issue

/-- The matrix engine's queue holds two entries (R224). -/
def matRoom : M Unit := do
  let s ← get
  if 2 ≤ (s.tile s.myTile).matQ.length then holdM else pure ()

/-- A command put into the matrix engine's queue, with a number of its own. -/
def pushMat (c : MatCmd) : M Unit := upd fun s =>
  let s := s.newId.2
  s.setTile s.myTile { s.tile s.myTile with matQ := (s.tile s.myTile).matQ ++ [c] }

/-- What every command of the matrix engine captures of its issuer. (DEDUCED, assumption 27) -/
def State.matCmd (s : State) (k : MatKind) (n : Nat) : MatCmd :=
  { id := s.fresh, kind := k, acc := n, ctx := s.myKey, launch := s.me.launch, pasid := s.myPasid, x := s.curX }

/-- A format that reduced service offers to the matrix engine: BFP8 alone (R30). -/
def State.mmaOffered (s : State) (f : Nat) : Bool := s.service ≠ .reduced || f = 22

/-- `mma` and `mmal` (R375): the checks at issue; `pairs` says which limb pairs of (La, Lb) are added. (DEDUCED, assumption 27) -/
def mmaBody (x : FmtE) (ok : Nat → Nat → Bool) (pairs : Nat → Nat → List (Nat × Nat)) : M Unit := do
  matRoom
  let s ← get
  let ca ← cfgOf (tregNo x.a)
  let cb ← cfgOf (tregNo x.b)
  let la := limbCount (cfgFmt ca)
  let lb := limbCount (cfgFmt cb)
  need (cfgCols ca ≤ 32 && cfgRows cb ≤ 32 && ok la lb) tcEngerr 4
  need (s.mmaOffered (cfgFmt ca) && s.mmaOffered (cfgFmt cb)) tcEngerr 9
  pushMat { s.matCmd .mma x.d.toNat with ta := tregNo x.a, tb := tregNo x.b, cfga := ca, cfgb := cb, relA := x.la, relB := x.lb,
                                         pairs := pairs la lb }

/-- `mma` (R374). -/
def execMma (x : FmtE) (s : State) : Host.Outcome State Fault Refusal :=
  native (.mma x) (mmaBody x (fun _ _ => true) fun la lb =>
    (List.range la).flatMap fun i => (List.range lb).map fun j => (i, j)) s

/-- `mmal` (R374). -/
def execMmal (x : FmtE) (s : State) : Host.Outcome State Fault Refusal :=
  native (.mmal x) (mmaBody x (fun la lb => x.cb 1 0 < la && x.cb 3 2 < lb) fun _ _ => [(x.cb 1 0, x.cb 3 2)]) s

/-- `accz` (R376). -/
def execAccz (x : FmtE) (s : State) : Host.Outcome State Fault Refusal :=
  native (.accz x) (do
    matRoom
    let s ← get
    pushMat (s.matCmd .accz x.d.toNat)) s

/-- The accumulator as a peek sees it (R378): as it stands, and cleared when an `accz` issued before the peek has not run yet. -/
def State.peek (s : State) (t n : Nat) : Acc :=
  let tl := s.tile t
  let z (e : MatCmd) : Bool := e.kind = .accz && e.acc = n
  if tl.matQ.any z || (match tl.matRun with
    | some e => z e
    | none => false) then {} else s.acc t n

/-- Lane `l` as `accrd` writes it (R377). -/
def accLane (v : Acc) (ty row : Nat) (m : Rnd) (l : Nat) (p : Fp) : BitVec 32 × Fp :=
  let x := v.value (64 * row + l)
  if ty = 9 then
    let r := roundFmt fp32 m false x p
    (BitVec.ofNat 32 r.1, r.2)
  else
    let r := toIntRange m (-2 ^ 31) (2 ^ 31 - 1) x p
    (BitVec.ofInt 32 r.1, r.2)

/-- A row of an accumulator in the active lanes, lane by lane (R377). -/
def accRow (v : Acc) (ty row : Nat) (m : Rnd) (act : BitVec 64) (p : Fp) : VReg × Fp :=
  let r := (List.range 64).foldl (fun (a : List (BitVec 32) × Fp) l =>
    if act.getLsbD l then
      let q := accLane v ty row m l a.2
      (q.1 :: a.1, q.2)
    else (0 :: a.1, a.2)) ([], p)
  let xs := r.1.reverse
  (VReg.ofFn fun l => (xs.getD l 0, false), r.2)

/-- Poisoned accumulator elements that a command reads: taken as zero, the sticky flag set, each logged with code 0 (R235).
(DESIGN CHOICE, assumption 98) -/
def State.logAcc (s : State) (t n : Nat) (ks : List Nat) : State :=
  let v := s.acc t n
  let bad := ks.filter fun k => Tbl.get false v.bad k
  if bad = [] then s else bad.foldl (fun s k => s.logErr t 0 true n (k / 64) (k % 64)) (s.setAcc t n { v with poison := true })

/-- The elements of a row that a mask names. -/
def rowKeys (row : Nat) (act : BitVec 64) : List Nat := ((List.range 64).filter fun l => act.getLsbD l).map fun l => 64 * row + l

/-- `accrd` (R377, R378): the engine writes the register; one that is a bound write stream takes its elements then. -/
def accrdBody (x : FmtE) : M Unit := do
  let s ← get
  let row := bits (s.gReg x.b.toNat) 5 0
  let act := s.activeLanes x.pk x.pn
  let n := x.d.toNat - 16
  if x.cb 3 3 = 1 then strmCmd (.accrd x) do
    let v := s.peek s.myTile x.a.toNat
    upd fun s => if v = {} then s else s.logAcc s.myTile x.a.toNat (rowKeys row act)
    let r ← withFlags fun p => accRow v (x.cb 8 4) row (rndMode (modeOf (x.cb 2 0) s) 0) act p
    writeV x.d act r
  else
    match s.me.await with
    | .matrix _ (some _) =>
      if s.streaming n then do
        pushLanes n
        queueFlags 0
      else pure ()
    | .matrix k none => waitM (.matrix k none)
    | _ => do
      if s.streaming n then do
        vecTurn
        pushCheck n
      else pure ()
      matRoom
      pushMat { s.matCmd .accrd x.a.toNat with row := row, ty := x.cb 8 4, mode := modeOf (x.cb 2 0) s, fd := x.d.toNat, active := act }
      waitM (.matrix s.fresh none)

/-- `accrd` (R377). -/
def execAccrd (x : FmtE) (s : State) : Host.Outcome State Fault Refusal := native (.accrd x) (accrdBody x) s

/-- The row width of `accwb` (R379). -/
def wbWidth (f n : Nat) : Nat := if f = 3 then 256 else rawWidth f 64 n

/-- `accwb` (R379): the address traps, then the errors of R368. -/
def accwbBody (x : FmtE) : M Unit := do
  matRoom
  let s ← get
  let f := x.cb 9 5
  let n := if x.cb 4 4 = 1 then 32 else 16
  let a := s.gReg x.a.toNat
  let r := (s.gReg x.b.toNat).toNat
  let w := wbWidth f n
  if r = 0 then pure ()
  else do
    match s.window a w with
    | .error c => trapM c a
    | .ok _ => pure ()
    let z := a + w64 ((min r 64 - 1) * w)
    match s.window z w with
    | .error c => trapM c z
    | .ok _ => pure ()
  need (bits a 2 0 = 0) tcMisalign a
  need (r ≤ 64) tcEngerr 1
  need (x.cb 3 3 = 1 || !blockType f) tcEngerr 3
  earlierM
  pushMat { s.matCmd .accwb x.d.toNat with row := r, ty := f, mode := modeOf (x.cb 2 0) s, addr := a, bsz := n,
                                           base := if x.cb 3 3 = 1 then bits (s.gReg x.c.toNat) 7 0 else 0, rows := List.range r }

/-- `accwb` (R379). -/
def execAccwb (x : FmtE) (s : State) : Host.Outcome State Fault Refusal := native (.accwb x) (accwbBody x) s

/-- The status word of an accumulator (R380). -/
def accStatus (v : Acc) (busy : Bool) : Word :=
  w64 v.anchor ||| ofBool v.anchored <<< 9 ||| ofBool v.ovf <<< 10 ||| ofBool v.poison <<< 11 ||| ofBool busy <<< 12

/-- Whether a command on an accumulator is queued or in flight (R380). -/
def State.accBusy (s : State) (t n : Nat) : Bool :=
  let tl := s.tile t
  tl.matQ.any (fun e => e.acc = n) || (match tl.matRun with
    | some e => e.acc = n
    | none => false)

/-- `accstat` (R380). -/
def accstatBody (x : FmtE) : M Unit := do
  let s ← get
  let n := x.a.toNat
  if x.cb 3 3 = 1 then writeS x.d (accStatus (s.acc s.myTile n) (s.accBusy s.myTile n))
  else
    match s.me.await with
    | .matrix _ (some v) => writeS x.d v
    | .matrix k none => waitM (.matrix k none)
    | _ => do
      matRoom
      pushMat (s.matCmd .accstat n)
      waitM (.matrix s.fresh none)

/-- `accstat` (R380). -/
def execAccstat (x : FmtE) (s : State) : Host.Outcome State Fault Refusal := native (.accstat x) (accstatBody x) s

/-- `accerr` (R381): the oldest entry with the count of entries lost, which starts anew. -/
def accerrBody (x : FmtE) : M Unit := do
  let s ← get
  let tl := s.tile s.myTile
  upd fun s => s.setTile s.myTile { tl with errlog := tl.errlog.tail, lost := 0 }
  writeS x.d (tl.errlog.headD 0 ||| w64 (tl.lost <<< 40))

/-- `accerr` (R381). -/
def execAccerr (x : FmtE) (s : State) : Host.Outcome State Fault Refusal := native (.accerr x) (accerrBody x) s

-- The engine

/-- Poisoned operand elements enter the log, with code 0 and their register, row and column (R260, R375). (DEDUCED, assumption 22) -/
def State.logPoison (s : State) (t n : Nat) (cfg : Word) : State :=
  let v := s.treg t n
  (List.range (cfgRows cfg * cfgCols cfg)).foldl (fun s i =>
    let r := i / cfgCols cfg
    let c := i % cfgCols cfg
    if Tbl.get false v.poison (64 * r + c) then s.logErr t 0 true n r c else s) s

/-- Whether an operand has a poisoned element. (DEDUCED, assumption 22) -/
def TReg.anyPoison (v : TReg) (cfg : Word) : Bool :=
  (List.range (cfgRows cfg * cfgCols cfg)).any fun i => Tbl.get false v.poison (64 * (i / cfgCols cfg) + i % cfgCols cfg)

/-- The rounding conversions of a command (R377, R379). -/
def MatCmd.conversions (c : MatCmd) : Nat :=
  match c.kind with
  | .accrd => (rowKeys 0 c.active).length
  | .accwb => 64 * c.row
  | _ => 0

/-- A command that starts takes the steps of the stochastic source that its conversions need (R249); one that a drain took from the engine has them.
(DEDUCED, assumption 71) -/
def State.matSteps (s : State) (t : Nat) (c : MatCmd) : MatCmd × State :=
  let x := (s.tile t).rndseed
  if c.begun then (c, s)
  else ({ c with seed := x },
   if rndMode c.mode 0 = .stoch then s.setTile t { s.tile t with rndseed := lfsrAfter x c.conversions } else s)

/-- The matrix engine starts the head of its queue (R224, R375): an `mma` once both its registers are Full. (DEDUCED, assumption 22) -/
def State.matStart (s : State) (t : Nat) : Option State :=
  let tl := s.tile t
  match tl.matQ, tl.matRun with
  | c :: r, none =>
    if c.kind = .mma && ((s.treg t c.ta).sem ≠ .full || (s.treg t c.tb).sem ≠ .full) then none
    else
      let q := s.matSteps t c
      let s := q.2.setTile t { q.2.tile t with matQ := r, matRun := some q.1 }
      if c.kind ≠ .mma then some s
      else
        let s := s.logAcc t c.acc (List.range 4096)
        let bad := (s.treg t c.ta).anyPoison c.cfga || (s.treg t c.tb).anyPoison c.cfgb
        let s := (s.logPoison t c.ta c.cfga).logPoison t c.tb c.cfgb
        some (if bad then s.setAcc t c.acc { s.acc t c.acc with poison := true } else s)
  | _, _ => none

/-- A tile register released to Empty where marked last-use (R236). -/
def State.release (s : State) (t n : Nat) (yes : Bool) : State :=
  if yes then s.setTreg t n { s.treg t n with sem := .empty } else s

/-- MMA_COMPLETE (R375) on tile `n`: the next limb pair of the product under way is added; with the last one the registers marked
last-use become Empty. (DEDUCED, assumption 27) -/
def State.mmaStep (s : State) : Option State :=
  let t := s.inp.n
  match (s.tile t).matRun with
  | some c =>
    match c.kind, c.pairs with
    | .mma, p :: r =>
      let s := s.setAcc t c.acc ((s.acc t c.acc).step (s.treg t c.ta) (s.treg t c.tb) c.cfga c.cfgb p.1 p.2)
      if r.isEmpty then
        some (((s.setTile t { s.tile t with matRun := none }).release t c.ta c.relA).release t c.tb c.relB)
      else some (s.setTile t { s.tile t with matRun := some { c with pairs := r } })
    | _, _ => none
  | none => none

/-- MMA_COMPLETE (R375). -/
def execMmaComplete (s : State) : Host.Outcome State Fault Refusal := event State.mmaStep s

/-- Bytes of a number. -/
def numBytes (v n : Nat) : List (Nat × Bool) := (List.range n).map fun i => ((v >>> (8 * i)) % 256, false)

/-- Codes of `w` bits as a little-endian bit string. -/
def packCodes (w : Nat) (cs : List Nat) : Nat := cs.foldr (fun c a => c % 2 ^ w + 2 ^ w * a) 0

/-- A row of 64 elements as `accwb` writes it (R379). -/
def wbRow (v : Acc) (f n base row : Nat) (m : Rnd) (p : Fp) : List (Nat × Bool) × Fp :=
  if blockType f then
    let w := if f = 14 then 0 else f - 14
    let r := (List.range (64 / n)).foldl (fun (a : (List Nat × List Nat) × Fp) j =>
      let e := encodeBlock w m base ((List.range n).map fun i => v.value (64 * row + n * j + i)) a.2
      ((a.1.1 ++ e.1.1, a.1.2 ++ [e.1.2]), e.2)) (([], []), p)
    (numBytes (packCodes (blockBits f) r.1.1) (8 * blockBits f) ++ numBytes (packCodes 4 r.1.2) (64 / (2 * n)), r.2)
  else
    let r := (List.range 64).foldl (fun (a : List (Nat × Bool) × Fp) c =>
      let x := v.value (64 * row + c)
      let q : Nat × Fp := match fmtOfDt f with
        | some g => roundFmt g m false x a.2
        | none =>
          let k := if f = 3 then 32 else 8
          let y := toIntRange m (-2 ^ (k - 1)) (2 ^ (k - 1) - 1) x a.2
          ((y.1 % 2 ^ k).toNat, y.2)
      (a.1 ++ numBytes q.1 (fmtBytes f), q.2)) ([], p)
    r

/-- The command under way on the matrix engine replaced. -/
def State.setMat (s : State) (t : Nat) (c : Option MatCmd) : State := s.setTile t { s.tile t with matRun := c }

/-- The bytes that a row of a write-back leaves for the next one: those of the word that both rows share, so that it is written whole (R379). -/
def MatCmd.shared (c : MatCmd) (r : Nat) (rest : List Nat) : Nat :=
  if rest.head? = some (r + 1) then (c.addr.toNat + (r + 1) * wbWidth c.ty c.bsz) % 8 else 0

/-- The row before the next of a write-back ends in a word that has not been written: where the next row is turned away, its bytes are merged. -/
def State.wbTail (s : State) (t : Nat) (c : MatCmd) (r : Nat) : State :=
  if c.carry = [] then s
  else
    match s.engAccess t c.x false c.launch (c.addr + w64 (r * wbWidth c.ty c.bsz - c.carry.length)) c.carry.length .write (matWork t c.id) with
    | (.ok ps, s) => s.storeParts ps c.carry
    | (_, s) => s

/-- The rows of a write-back in order, as far as they go (R379): a row that its page or window turns away is not written and enters the
log; a hold or a ticket leaves it and the later ones for another turn. -/
def State.wbGo (s : State) (t : Nat) (c : MatCmd) : Nat → MatCmd × State
  | 0 => (c, s)
  | fuel + 1 =>
    match c.rows with
    | [] => (c, s)
    | r :: rest =>
      let w := wbWidth c.ty c.bsz
      let skip (s : State) (code : Nat) : MatCmd × State :=
        ((s.wbTail t c r).logErr t code true c.acc r 0).wbGo t { c with rows := rest, carry := [] } fuel
      if c.failed then skip s 7
      else
        match s.engAccess t c.x false c.launch (c.addr + w64 (r * w - c.carry.length)) (w + c.carry.length) .write (matWork t c.id) with
        | (.noWin, s) => skip s 2
        | (.remoteBad t' off, s) => ((s.wbTail t c r).remoteError t' off t).wbGo t { c with rows := rest, carry := [] } fuel
        | (.wait, s) => (c, s)
        | (.fault n, s) => ({ c with ticket := some n }, s)
        | (.ok ps, s) =>
          let pf := ps.map fun p => p.2.2
          if pf.contains (some 15) then skip s 6
          else if pf.any fun p => p ≠ none && p ≠ some 0 && p ≠ pageOf c.ty then skip s 5
          else
            let s := s.logAcc t c.acc (rowKeys r (BitVec.allOnes 64))
            let q := wbRow (s.acc t c.acc) c.ty c.bsz c.base r (rndMode c.mode 0) { seed := lfsrAfter c.seed (64 * r), flags := 0 }
            let bs := c.carry ++ q.1
            let n := bs.length - c.shared r rest
            (s.storeParts ps (bs.take n)).wbGo t { c with rows := rest, carry := bs.drop n, flags := c.flags ||| q.2.flags } fuel

/-- A command that has ended leaves the engine, its flags entering `AFLAGS` (R253). -/
def State.matDone (s : State) (t : Nat) (c : MatCmd) (fl : BitVec 6) : State :=
  let s := s.setMat t none
  let v := s.ctx c.ctx
  if v.st = .free then s else s.setCtx c.ctx { v with aflags := v.aflags ||| fl }

/-- The strand that waits for a command may go on with its result. -/
def State.matAnswer (s : State) (c : MatCmd) (r : Word) : State :=
  let v := s.ctx c.ctx
  if v.await = .matrix c.id none then
    { s.setCtx c.ctx { v with await := .matrix c.id (some r) } with
      waiters := waitersPut s.waiters c.ctx (.matrix c.id (some r)) }
  else s

/-- MATRIX_COMMAND_COMPLETE (R376 to R380) on tile `n`: the command under way other than a product has its effect. -/
def State.matComplete (s : State) : Option State :=
  let t := s.inp.n
  match (s.tile t).matRun with
  | some c =>
    match c.kind with
    | .mma => none
    | .accz => some ((s.setAcc t c.acc {}).matDone t c 0)
    | .accrd =>
      let s := s.logAcc t c.acc (rowKeys c.row c.active)
      let q := accRow (s.acc t c.acc) c.ty c.row (rndMode c.mode 0) c.active { seed := c.seed, flags := 0 }
      let s := s.setF (.c t) (c.fd - 16) (((s.core (.c t)).fReg (c.fd - 16)).merge q.1 c.active)
      some ((s.matDone t c q.2.flags).matAnswer c 0)
    | .accwb =>
      if c.ticket.isSome then none
      else
        let r := s.wbGo t c 65
        if r.1.rows.isEmpty then some (r.2.matDone t r.1 r.1.flags) else some (r.2.setMat t (some r.1))
    | .accstat => some ((s.matDone t c 0).matAnswer c (accStatus (s.acc t c.acc) false))
  | none => none

/-- MATRIX_COMMAND_COMPLETE (R253). -/
def execMatrixCommandComplete (s : State) : Host.Outcome State Fault Refusal := event State.matComplete s

end Sys2Proof.Machine
end

