-- ==== Sys2Proof/Machine/Ert.lean ====
section
/-! DEFINITION. Starts on streamers (R126), and the expert residency table (R178 to R187): fills and drains, pins, and the release of
laybys. -/

namespace Sys2Proof.Machine

-- Starts

/-- The geometry of a dense copy (R127). -/
def denseTmpl (src dst esz : Nat) : BitVec 512 :=
  BitVec.ofNat 512 (src % 2 ^ 64 + (dst % 2 ^ 64) <<< 64 + 1 <<< 256 + 1 <<< 272 + 1 <<< 288 + 1 <<< 368 + (esz % 4) <<< 384)

/-- A copy put into a streamer's start queue (R126). -/
def State.startStream (s : State) (n : Nat) (c : Copy) : State :=
  let (u, s) := s.newId
  let s := s.setCopy u { c with engine := .stream n, st := .queued, seq := u }
  let v := s.streamer n
  s.setStreamer n { v with starts := v.starts ++ [u] }

/-- The length of a start queue (R180): the running copy and the starts behind it. -/
def State.startLen (s : State) (n : Nat) : Nat := (s.streamer n).starts.length + (if (s.streamer n).cur.isSome then 1 else 0)

/-- Whether a streamer is idle (R46). -/
def State.idle (s : State) (n : Nat) : Bool := s.startLen n = 0

-- Entries

def State.entry (s : State) (n : Nat) : Ert := Tbl.get 0 s.ert n
@[simps] def State.setEntry (s : State) (n : Nat) (e : Ert) : State := { s with ert := Tbl.set 0 s.ert n e }

def ertState (e : Ert) : Nat := fld e 1 0
def ertRel (e : Ert) : Bool := e.getLsbD 2
def ertWb (e : Ert) : Bool := e.getLsbD 3
def ertFs (e : Ert) : Bool := e.getLsbD 4
def ertFerr (e : Ert) : Bool := e.getLsbD 5
def ertLv (e : Ert) : Bool := e.getLsbD 6
def ertRr (e : Ert) : Nat := fld e 9 8
def ertLayby (e : Ert) : Nat := fld e 18 10
def ertPasid (e : Ert) : Nat := fld e 43 24
def ertXid (e : Ert) : Nat := fld e 57 44
def ertPin (e : Ert) : Nat := fld e 79 64
def ertAge (e : Ert) : Nat := fld e 95 80
def ertSize (e : Ert) : Nat := fld e 111 96
def ertTaddr (e : Ert) : Nat := fld e 247 192
def ertHaddr (e : Ert) : Nat := fld e 311 256

/-- One-bit and two-bit fields written. -/
def ertSet (e : Ert) (hi lo x : Nat) : Ert := setFld e hi lo x

/-- Replica placement `i`: valid, and the entry it names (R179). -/
def ertRep (e : Ert) (i : Nat) : Option Nat :=
  if e.getLsbD (334 + 15 * i) then some (fld e (333 + 15 * i) (320 + 15 * i)) else none

/-- Usable placements (R180). -/
def ertUsable (e : Ert) : Bool := ertState e = 2 || (ertState e = 1 && ertFs e && !ertRel e)

/-- The streamer that takes a fill or drain (R180): the allowed one with the shortest start queue, the lower number on a tie. -/
def State.fillStreamer (s : State) : Nat :=
  (minBy (fun n => s.startLen n * 16 + n) ((List.range 16).filter fun n => s.xstrm.getLsbD n)).getD 0

/-- A fill or a drain of an entry is started (R180). -/
def State.startMove (s : State) (n : Nat) (drain : Bool) : State :=
  let e := s.entry n
  let k := s.fillStreamer
  let (src, dst) := if drain then (ertHaddr e, ertTaddr e) else (ertTaddr e, ertHaddr e)
  let s := s.setEntry n (ertSet (ertSet (ertSet (ertSet e 1 0 (if drain then 3 else 1)) 4 4 0) 23 19 k) 167 128 0)
  s.startStream k { origin := if drain then .drain n else .fill n, pasid := ertPasid e, tmpl := denseTmpl src dst 3,
                    big := some (ertSize e * 8192) }

-- Work records (R184)

def recSet (r : BitVec 128) (hi lo x : Nat) : BitVec 128 := setFld r hi lo x

/-- A record resolved to the weights of an entry. -/
def recResolved (r : BitVec 128) (addr served : Nat) : BitVec 128 := recSet (recSet r 127 72 addr) 57 44 served

/-- The records of a layby that a release resolves, in park order (R187): each takes a pin until one would carry `PIN` past 65,535. -/
def releaseGo (n haddr : Nat) : Nat → List Parked → Nat × List Parked
  | pin, [] => (pin, [])
  | pin, p :: r =>
    if p.released then
      let q := releaseGo n haddr pin r
      (q.1, p :: q.2)
    else if pin = 65535 then (pin, p :: r)
    else
      let q := releaseGo n haddr (pin + 1) r
      (q.1, { p with record := recResolved p.record haddr n, released := true, pinned := true } :: q.2)

/-- The layby of an entry is released (R187), or resumes its release. (DEDUCED, assumption 44) -/
def State.releaseLayby (s : State) (n : Nat) : State :=
  let e := s.entry n
  if !ertLv e then s
  else
    let l := s.layby (ertLayby e)
    let q := releaseGo n (ertHaddr e) (ertPin e) l.recs
    let s := s.setLayby (ertLayby e) { l with recs := q.2 }
    if q.1 = ertPin e then s else s.setEntry n (ertSet (ertSet e 79 64 q.1) 95 80 0)

/-- A `FLUSH` (R187): every record goes with `ADDR` 0 and `ERRF` 1, and takes no pin. -/
def State.flushLayby (s : State) (n : Nat) : State :=
  let e := s.entry n
  if !ertLv e then s
  else
    let l := s.layby (ertLayby e)
    s.setLayby (ertLayby e) { l with recs := l.recs.map fun p =>
      if p.released then p else { p with record := recSet (recSet p.record 127 72 0) 43 43 1, released := true } }

/-- Whether an entry has a record parked that no release has resolved. -/
def State.hasParked (s : State) (n : Nat) : Bool :=
  ertLv (s.entry n) && (s.layby (ertLayby (s.entry n))).recs.any fun p => !p.released

/-- The fill of an entry leaves Accepting (R182). -/
def State.fillStarted (s : State) (n : Nat) : State :=
  let s := s.setEntry n (ertSet (s.entry n) 4 4 1)
  if ertRel (s.entry n) then s else s.releaseLayby n

/-- A fill or drain has ended, landed or aborted (R182), with FILLDONE (R80). -/
def State.moveEnded (s : State) (n : Nat) (drain ok : Bool) : State :=
  let e := s.entry n
  let s :=
    if drain then
      if ok then
        let s := s.setEntry n (ertSet (ertSet e 1 0 0) 3 3 0)
        if s.hasParked n then s.startMove n false else s
      else (s.setEntry n (ertSet e 1 0 2)).releaseLayby n
    else if ok then
      let s := s.setEntry n (ertSet (ertSet e 1 0 2) 4 4 0)
      if ertRel e then s.releaseLayby n else s
    else s.setEntry n (ertSet (ertSet (ertSet e 1 0 0) 4 4 0) 5 5 1)
  s.raiseEvent 6 none (w64 n) (ofBool (!ok)) (ofBool drain)

end Sys2Proof.Machine
end

