-- ==== Sys2Proof/Machine/Sync.lean ====
section
/-! DEFINITION. Fences, transaction barriers and rings (R143 to R150, R331 to R336). -/

namespace Sys2Proof.Machine

/-- Whether a scope code of R328 contains tile `t` as seen from tile `own` (R265). -/
def scopeHas (sc own t : Nat) : Bool :=
  match sc with
  | 1 => false
  | 2 => own = t
  | 3 => tileDie own = tileDie t
  | _ => true

/-- `fence` (R331, R266): the model performs every other access in program order at once, so a fence waits only for the elements of bound streams
that its kind orders, and for the `sendk` elements of the strand to the tiles that its scope contains (R200). (DEDUCED, assumption 3) -/
def fenceBody (x : FmtR) : M Unit := do
  let s ← get
  if x.dt.toNat % 4 = 1 then (if s.ownFetch then waitM .stream else pure ()) else releaseM
  elementsM (scopeHas (x.dt.toNat / 4) s.myTile)

/-- `fence` (R331). -/
def execFence (x : FmtR) (s : State) : Host.Outcome State Fault Refusal := native (.fence x) (fenceBody x) s

-- Transaction barriers

/-- A barrier (R143). -/
structure Bar where
  phase : Nat
  arrivePend : Nat
  err : Nat
  sectPend : Int
  arriveInit : Nat
  sectInit : Nat
  waiters : Nat
  deriving DecidableEq, Repr

/-- The barrier of two words. -/
def barOf (w0 w1 : Word) : Bar :=
  { phase := bits w0 3 0, arrivePend := bits w0 23 4, err := bits w0 27 24, sectPend := (w0.extractLsb' 28 36).toInt,
    arriveInit := bits w1 19 0, sectInit := bits w1 55 20, waiters := bits w1 63 56 }

/-- The low word of a barrier. -/
def Bar.word0 (b : Bar) : Word :=
  w64 (b.phase % 16 ||| (b.arrivePend % 2 ^ 20) <<< 4 ||| (b.err % 16) <<< 24 ||| (BitVec.ofInt 36 b.sectPend).toNat <<< 28)

/-- The high word of a barrier. -/
def Bar.word1 (b : Bar) : Word := w64 (b.arriveInit % 2 ^ 20 ||| (b.sectInit % 2 ^ 36) <<< 20 ||| (b.waiters % 256) <<< 56)

/-- The barrier at a memory key. -/
def State.bar (s : State) (k : Nat) : Bar := barOf (s.wordAt (k / 8)) (s.wordAt (k / 8 + 1))

/-- The barrier at a memory key written. -/
def State.setBar (s : State) (k : Nat) (b : Bar) : State := (s.store8 k b.word0).store8 (k + 8) b.word1

/-- `ERR` bits (R143). -/
def errOverrun : Nat := 1
def errWrap : Nat := 2
def errPoison : Nat := 4
def errAbort : Nat := 8

/-- `SECT_PEND` given a value: a value outside [-2^35, 2^35 - 1] saturates and sets `ERR.SECT_WRAP` (R144), whichever operation
gives it. (DEDUCED, assumption 74) -/
def Bar.setSect (b : Bar) (v : Int) : Bar :=
  let c := max (-2 ^ 35) (min (2 ^ 35 - 1) v)
  { b with sectPend := c, err := if c ≠ v then b.err ||| errWrap else b.err }

/-- The test of R145: the phase ends when both counts are zero. -/
def Bar.test (b : Bar) : Bar :=
  if b.arrivePend = 0 && b.sectPend = 0 then
    { b with phase := (b.phase + 1) % 16, arrivePend := b.arriveInit }.setSect b.sectInit
  else b

/-- `SECT_PEND` moved (R144). -/
def Bar.addSect (b : Bar) (n : Int) : Bar := b.setSect (b.sectPend + n)

/-- `binit` (R144). -/
def Bar.init (a n : Nat) : Bar :=
  { phase := 0, arrivePend := a, err := 0, sectPend := 0, arriveInit := a, sectInit := n, waiters := 0 : Bar }.setSect n

/-- `barrive` applied: none when refused (R144). -/
def Bar.arrive (b : Bar) (n : Nat) : Option Bar :=
  if b.arrivePend < n then none else some { b with arrivePend := b.arrivePend - n }.test

/-- `bexpect` applied (R144). -/
def Bar.expect (b : Bar) (n : Nat) : Bar := (b.addSect n).test

/-- One sector of a copy landed, poisoned or not (R144). (DEDUCED, assumption 32) -/
def Bar.land (b : Bar) (poison : Bool) : Bar :=
  let b := b.addSect (-1)
  { b with err := if poison then b.err ||| errPoison else b.err }.test

/-- `WAITERS` changed, saturating (R144). -/
def Bar.enter (b : Bar) : Bar := { b with waiters := min 255 (b.waiters + 1) }
def Bar.leave (b : Bar) : Bar := { b with waiters := b.waiters - 1 }

/-- A barrier changed by no instruction: `WAITERS` by a drain or a resumption (R334), its sectors by a copy (R144). Its words are checked as they are
read (R232), and a poisoned barrier stays as it is. (DEDUCED, assumption 32) -/
def State.changeBar (s : State) (k : Nat) (f : Bar → Bar) : State :=
  let s := s.checkWords k 16
  if s.poisoned k 16 then s else s.setBar k (f (s.bar k))

/-- The two words of a barrier are not poisoned (R333). -/
def barClean (a : Word) (b : Nat) : M Unit := do
  let (_, p0) ← run fun s => s.load b 8
  let (_, p1) ← run fun s => s.load (b + 8) 8
  if p0 then trapKeep tcPoison a
  else if p1 then trapKeep tcPoison (a + 8)
  else pure ()

/-- The memory key of a barrier named by an instruction (R333): own or remote scratchpad, 16-byte aligned, inside the partition,
not poisoned. -/
def barPlace (a : Word) (k : AccKind) : M Nat := do
  let s ← get
  need (a.toNat >>> 20 = 0xFF000000000 || a.toNat >>> 32 = 0xFE000000) tcAperture a
  match s.window a 16 with
  | .error c => trapM c a
  | .ok _ => pure ()
  need (a.toNat % 16 = 0) tcMisalign a
  match ← place a 16 k with
  | .key b _ => do
    barClean a b
    pure b
  | .remoteBad t off => do
    upd fun s => s.remoteError t off s.cur.agent
    trapKeep tcPoison a
  | _ => trapM tcAperture a

/-- `binit` (R332, R333). -/
def binitBody (x : FmtR) : M Unit := do
  let s ← get
  let a := (s.gReg x.a.toNat).toNat
  let n := (s.gReg x.c.toNat).toNat
  need (binitOk (s.gReg x.a.toNat) (s.gReg x.c.toNat)) tcIllop (encode (.binit x))
  let k ← barPlace (s.gReg x.b.toNat) .write
  upd fun s => s.setBar k (Bar.init a n)

/-- `barrive` (R332, R333): a refused arrival sets `ERR.OVERRUN` and traps with TC_BAROVR. -/
def barriveBody (x : FmtR) : M Unit := do
  let s ← get
  let n := (s.gReg x.a.toNat).toNat
  let a := s.gReg x.b.toNat
  need (barriveOk (s.gReg x.a.toNat)) tcIllop (encode (.barrive x))
  releaseM
  let k ← barPlace a .write
  let s ← get
  match (s.bar k).arrive n with
  | some b => upd fun s => s.setBar k b
  | none => do
    upd fun s => s.setBar k { s.bar k with err := (s.bar k).err ||| errOverrun }
    trapKeep tcBarovr a

/-- `bexpect` (R332, R333). -/
def bexpectBody (x : FmtR) : M Unit := do
  let s ← get
  let n := (s.gReg x.a.toNat).toNat
  need (bexpectOk (s.gReg x.a.toNat)) tcIllop (encode (.bexpect x))
  let k ← barPlace (s.gReg x.b.toNat) .write
  upd fun s => s.setBar k ((s.bar k).expect n)

/-- `bwait` (R334): it counts itself in `WAITERS`, tests, and waits until the phase has left v or its bound has passed; the answer goes
into all 64 lanes of kD. -/
def bwaitBody (x : FmtR) : M Unit := do
  let s ← get
  let v := bits (s.gReg x.a.toNat) 3 0
  let b := (s.gReg x.c.toNat).toNat
  let answer (k : Nat) (yes : Bool) : M Unit := do
    upd fun s => s.setBar k (s.bar k).leave
    upd fun s => s.setK x.d.toNat (if yes then BitVec.allOnes 64 else 0)
  match s.me.await with
  | .barrier k dl => do
    barClean (s.gReg x.b.toNat) k
    let s ← get
    if (s.bar k).phase ≠ v then answer k true
    else
      match dl with
      | some t => if t ≤ s.now then answer k false else waitM (.barrier k dl)
      | none => waitM (.barrier k dl)
  | _ => do
    let k ← barPlace (s.gReg x.b.toNat) .write
    upd fun s => s.setBar k (s.bar k).enter
    let s ← get
    if (s.bar k).phase ≠ v then answer k true
    else if b = 0 then answer k false
    else waitM (.barrier k (if b = 2 ^ 64 - 1 then none else some (s.now + b)))

/-- `binit` (R332). -/
def execBinit (x : FmtR) (s : State) : Host.Outcome State Fault Refusal := native (.binit x) (binitBody x) s

/-- `barrive` (R332). -/
def execBarrive (x : FmtR) (s : State) : Host.Outcome State Fault Refusal := native (.barrive x) (barriveBody x) s

/-- `bexpect` (R332). -/
def execBexpect (x : FmtR) (s : State) : Host.Outcome State Fault Refusal := native (.bexpect x) (bexpectBody x) s

/-- `bwait` (R334). -/
def execBwait (x : FmtR) (s : State) : Host.Outcome State Fault Refusal := native (.bwait x) (bwaitBody x) s

-- Rings

/-- A ring header (R148). -/
structure Ring where
  base : Nat
  nslots : Nat
  slotlg : Nat
  head : Nat
  tail : Nat
  free : Nat
  filled : Nat
  deriving DecidableEq, Repr

/-- The header at a memory key. -/
def State.ring (s : State) (k : Nat) : Ring :=
  let w0 := s.wordAt (k / 8)
  let w1 := s.wordAt (k / 8 + 1)
  { base := bits w0 19 0, nslots := bits w0 47 32, slotlg := bits w0 51 48, head := bits w1 15 0, tail := bits w1 31 16,
    free := bits w1 47 32, filled := bits w1 63 48 }

/-- The moving half of a header written. -/
def State.setRing (s : State) (k : Nat) (r : Ring) : State :=
  s.store8 (k + 8) (w64 (r.head % 2 ^ 16 ||| (r.tail % 2 ^ 16) <<< 16 ||| (r.free % 2 ^ 16) <<< 32 ||| (r.filled % 2 ^ 16) <<< 48))

/-- The checks of a header's fields (R335), for a scratchpad of `n` bytes. -/
def Ring.ok (r : Ring) (n : Nat) : Bool :=
  1 ≤ r.nslots && r.nslots ≤ 4096 && 6 ≤ r.slotlg && r.slotlg ≤ 15 && r.base % 2 ^ r.slotlg = 0 &&
    r.base + r.nslots * 2 ^ r.slotlg ≤ n

/-- The slots that `TAIL` and `HEAD` name. A header that a program has rewritten while it is in use, a breach of R148 without a stated outcome, names
no slot outside its ring, so that its effects stay within the ring's own words (R2). (DESIGN CHOICE, assumption 96) -/
def Ring.tailSlot (r : Ring) : Nat := r.tail % r.nslots
def Ring.headSlot (r : Ring) : Nat := r.head % r.nslots

/-- The scratchpad offset of a slot. -/
def Ring.slotOff (r : Ring) (i : Nat) : Nat := r.base + i * 2 ^ r.slotlg

def State.ringSt (s : State) (k : Nat) : RingSt := Tbl.get {} s.rings k
@[simps] def State.setRingSt (s : State) (k : Nat) (v : RingSt) : State := { s with rings := Tbl.set {} s.rings k v }

/-- Who waits to claim: a strand by its context, a message, a copy. -/
def claimStrand (key : Nat) : Nat := 3 * key
def claimMsg (n : Nat) : Nat := 3 * n + 1
def claimCopy (n : Nat) : Nat := 3 * n + 2

/-- Whether a place in the claim order still stands: its strand waits, its message exists, its copy is on the machine and still waits in Accepting. -/
def State.claimLive (s : State) (w : Nat) : Bool :=
  match w % 3 with
  | 0 => s.waiters.any fun e => e.1 = w / 3 && (match e.2 with
    | .ring _ => true
    | _ => false)
  | 1 => (Tbl.find s.msgs (w / 3)).isSome
  | _ => (match Tbl.find s.copies (w / 3) with
    | some c => c.st = .accepting && !c.away && !c.drained && c.ringSlot.isNone
    | none => false)

/-- A claim (R149) by `who`, in the order in which claims reached the tile: the slot, or none while it waits. -/
def State.claim (s : State) (k who : Nat) : Option Nat × State :=
  let st := s.ringSt k
  let line := st.waiting.filter s.claimLive
  let r := s.ring k
  if r.free = 0 || !(line.isEmpty || line.head? = some who) then
    (none, s.setRingSt k { st with waiting := if line.contains who then line else line ++ [who] })
  else
    let s := s.setRing k { r with free := r.free - 1, tail := (r.tailSlot + 1) % r.nslots }
    (some r.tailSlot, s.setRingSt k { claims := st.claims ++ [(r.tailSlot, false)], waiting := line.filter (· ≠ who) })

/-- The complete slots that directly follow the last committed one, and the claims left (R149). -/
def ripe : List (Nat × Bool) → Nat × List (Nat × Bool)
  | (_, true) :: r => let q := ripe r; (q.1 + 1, q.2)
  | l => (0, l)

/-- A commit of a slot (R149); a slot that is not claimed or is committed already changes nothing (R335). -/
def State.commit (s : State) (k slot : Nat) : State :=
  let st := s.ringSt k
  if !st.claims.contains (slot, false) then s
  else
    let q := ripe (st.claims.map fun e => if e = (slot, false) then (slot, true) else e)
    let r := s.ring k
    (if q.1 = 0 then s else s.setRing k { r with filled := r.filled + q.1 }).setRingSt k { st with claims := q.2 }

/-- A give (R149): ignored when it would make `FREE` + `FILLED` exceed `NSLOTS`. -/
def State.give (s : State) (k : Nat) : State :=
  let r := s.ring k
  if r.free + r.filled + 1 > r.nslots then s else s.setRing k { r with free := r.free + 1 }

/-- The header that a ring instruction names (R335), with its key. -/
def ringPlace (a : Word) : M Nat := do
  let s ← get
  need (a.toNat >>> 20 = 0xFF000000000) tcAperture a
  match s.window a 16 with
  | .error c => trapM c a
  | .ok _ => pure ()
  need (a.toNat % 16 = 0) tcMisalign a
  match ← place a 16 .write with
  | .key k _ => do
    let (_, p0) ← run fun s => s.load k 8
    let (_, p1) ← run fun s => s.load (k + 8) 8
    if p0 then trapKeep tcPoison a
    else if p1 then trapKeep tcPoison (a + 8)
    else do
      let s ← get
      if (s.ring k).ok (s.spadBytes s.myTile) then pure k else trapKeep tcEngerr 1
  | _ => trapM tcAperture a

/-- The address of a slot in the own-scratchpad window. -/
def slotAddr (r : Ring) (i : Nat) : Word := w64 (0xFF00000000000000 + r.slotOff i)

/-- `rclaim` (R335). -/
def rclaimBody (x : FmtR) : M Unit := do
  let s ← get
  let k ← ringPlace (s.gReg x.a.toNat)
  match ← run fun s => s.claim k (claimStrand s.myKey) with
  | some i => upd fun s => s.setG x.d.toNat (slotAddr (s.ring k) i)
  | none => waitM (.ring (2 * k))

/-- `rcommit` (R335). -/
def rcommitBody (x : FmtR) : M Unit := do
  releaseM
  let s ← get
  let k ← ringPlace (s.gReg x.a.toNat)
  upd fun t =>
    let r := t.ring k
    let o := (s.gReg x.b.toNat).toNat
    match (t.ringSt k).claims.find? fun e => (slotAddr r e.1).toNat = o && !e.2 with
    | some e => t.commit k e.1
    | none => t

/-- Whether an earlier access waits for the same thing, from either core. -/
def State.behindAny (s : State) (a : Await) : Bool := (s.waiters.takeWhile fun e => e.1 ≠ s.myKey).any fun e => e.2 = a

/-- `rtake` (R335): takes that wait are served in the order in which they reached the tile. -/
def rtakeBody (x : FmtR) : M Unit := do
  let s ← get
  let k ← ringPlace (s.gReg x.a.toNat)
  let s ← get
  let r := s.ring k
  if r.filled = 0 || s.behindAny (.ring (2 * k + 1)) then waitM (.ring (2 * k + 1))
  else do
    upd fun s => s.setRing k { r with filled := r.filled - 1, head := (r.headSlot + 1) % r.nslots }
    upd fun s => s.setG x.d.toNat (slotAddr r r.headSlot)

/-- `rgive` (R335). -/
def rgiveBody (x : FmtR) : M Unit := do
  releaseM
  let s ← get
  let k ← ringPlace (s.gReg x.a.toNat)
  upd fun s => s.give k

/-- `rclaim` (R335). -/
def execRclaim (x : FmtR) (s : State) : Host.Outcome State Fault Refusal := native (.rclaim x) (rclaimBody x) s

/-- `rcommit` (R335). -/
def execRcommit (x : FmtR) (s : State) : Host.Outcome State Fault Refusal := native (.rcommit x) (rcommitBody x) s

/-- `rtake` (R335). -/
def execRtake (x : FmtR) (s : State) : Host.Outcome State Fault Refusal := native (.rtake x) (rtakeBody x) s

/-- `rgive` (R335). -/
def execRgive (x : FmtR) (s : State) : Host.Outcome State Fault Refusal := native (.rgive x) (rgiveBody x) s

-- Queue inspection

/-- Whether a strand of a core and launch is Blocked on queue register `q`. -/
def State.blockedOn (s : State) (c : Core) (u q : Nat) : Bool :=
  s.waiters.any fun e => e.2 = .queue q && e.1 / 32 = coreIx c && (s.ctx e.1).launch = u

/-- `qstat` (R336). -/
def qstatBody (x : FmtR) : M Unit := upd fun s =>
  let q := x.a.toNat - 48
  let t := s.myTile
  let n := s.myOt.count q
  let wr := if q = 4 || q = 5 then Core.c t else Core.a t
  let rd := if q = 4 || q = 5 then Core.a t else Core.c t
  let w := (if s.blockedOn wr s.me.launch q then 2 ^ 17 else 0) + (if s.blockedOn rd s.me.launch q then 2 ^ 16 else 0)
  s.setG x.d.toNat (w64 (n + (queueDepth q - n) * 256 + w))

/-- `qstat` (R336). -/
def execQstat (x : FmtR) (s : State) : Host.Outcome State Fault Refusal := native (.qstat x) (qstatBody x) s

end Sys2Proof.Machine
end

