-- ==== Sys2Proof/Machine/Copy.lean ====
section
/-! DEFINITION. Copies (R126 to R142): acceptance, landing, freezing, aborting and ending; on-ramps; remote copies (R17 to R19); the
instructions of the tile copy engine (R383 to R387); and the start of engine commands (R224). -/

namespace Sys2Proof.Machine

-- Addresses

/-- An address as the engine of a copy reaches it (R133, R384): a tile engine names only tiles of its launch's rectangle. -/
def State.copyWin (s : State) (c : Copy) (a n : Nat) : Option Win :=
  match c.engine.window a n with
  | some (.spad t off true) =>
    match c.origin with
    | .tile u _ => if (s.launch u).covers t then some (.spad t off true) else none
    | _ => some (.spad t off true)
  | w => w

/-- Whether the destination of a copy lies in this module. -/
def Copy.landsHere (c : Copy) : Bool :=
  match c.remote with
  | some r => r.kind = .get || r.kind = .inPut
  | none => true

/-- Whether the source of a copy lies in this module. -/
def Copy.readsHere (c : Copy) : Bool :=
  match c.remote with
  | some r => r.kind = .put || r.kind = .inGet
  | none => true

/-- An access of a copy engine to [a, a + n): a window, the partition, the holds that its reads meet, translation (R133, R137). -/
def State.copyAccess (s : State) (u : Nat) (c : Copy) (a n : Nat) (k : AccKind) : EngAcc × State :=
  match s.copyWin c a n with
  | some (.spad t off remote) =>
    if off + n > s.spadBytes t then (if remote then .remoteBad t off else .noWin, s)
    else if k = .read && s.heldSpad t off n (some u) then (.wait, s)
    else (.ok [(poolKey t off, n, none)], s)
  | some (.glob va) =>
    if k = .read && s.heldGlob c.pasid va n (some u) then (.wait, s)
    else s.engParts c.engine.agent c.pasid k (0, u) false (pageParts va n (n + 1))
  | _ => (.noWin, s)

/-- The parts that an access reaches, `none` where a remote check failed; or the state of a copy that waits, is frozen or aborts. -/
def State.copyReach (s : State) (u a n : Nat) (k : AccKind) : Option (Option (List (Nat × Nat × Option Nat))) × State :=
  let c := s.copy u
  match s.copyAccess u c a n k with
  | (.ok ps, s) => if ps.any fun p => p.2.2 = some 15 then (none, s.abortCopy u 3) else (some (some ps), s)
  | (.noWin, s) => (none, s.abortCopy u 2)
  | (.remoteBad t off, s) => (some none, s.remoteError t off c.engine.agent)
  | (.wait, s) => (none, s)
  | (.fault t, s) => (none, s.setCopy u { s.copy u with st := .frozen, ticket := some t })

/-- Bytes that a copy reads: poisoned where a remote check failed. -/
def State.copyRead (s : State) (u a n : Nat) : Option (List (Nat × Bool)) × State :=
  match s.copyReach u a n .read with
  | (some (some ps), s) =>
    let q := s.loadParts ps
    (some q.1, q.2)
  | (some none, s) => (some (List.replicate n (0, true)), s)
  | (none, s) => (none, s)

-- The range and its sectors

/-- Bytes that a copy writes. -/
def Copy.bytes (c : Copy) : Nat := c.total * c.esz

/-- Where the destination begins, within its window. -/
def Copy.base (c : Copy) : Nat :=
  match c.dest with
  | some (.spad _ off _) => off
  | some (.glob va) => va
  | _ => cpDst c.tmpl

/-- The 64-byte sectors of the destination (R144); a ring slot begins on one. -/
def Copy.sectorCount (c : Copy) : Nat :=
  let b := if cpRing c.tmpl then 0 else cpDst c.tmpl % 64
  (b + c.bytes - 1) / 64 + 1

/-- The memory key of a copy's barrier, if it names a valid one (R144). -/
def State.copyBar (s : State) (c : Copy) : Option Nat :=
  if cpBar c.tmpl = 0 then none
  else
    match s.copyWin c (cpBar c.tmpl) 16 with
    | some (.spad t off _) => if off % 16 = 0 && off + 16 ≤ s.spadBytes t then some (poolKey t off) else none
    | _ => none

/-- Sectors that a copy has not landed count as landed, with `ERR.ABORT` (R144). (DEDUCED, assumption 32) -/
def State.countRest (s : State) (c : Copy) : State :=
  match s.copyBar c with
  | none => s
  | some k =>
    (List.range (c.sectorCount - c.sectors)).foldl (fun s i => s.changeBar k fun b =>
      let b := b.land (i = 0 && c.bad)
      { b with err := b.err ||| errAbort }) s

-- Acceptance

/-- Counts and E within their ranges (R132, R134). -/
def Copy.countsOk (c : Copy) : Bool :=
  1 ≤ c.total && c.total ≤ 2 ^ 40 && 1 ≤ cpN0 c.tmpl && 1 ≤ cpN1 c.tmpl && 1 ≤ cpN2 c.tmpl && 1 ≤ cpN3 c.tmpl

/-- Whether each of `n` elements of `esz` bytes in a row from `a` lies in a window that the engine has (R133). -/
def State.rowIn (s : State) (c : Copy) (a : Word) (n esz : Nat) : Bool :=
  (s.copyWin c a.toNat (n * esz)).isSome ||
    (List.range n).all fun i => (s.copyWin c (a + w64 (i * esz)).toNat esz).isSome

/-- The address of ordinal `k` of a copy without a gather (R133). -/
def Copy.plainAddr (c : Copy) (k : Nat) : Nat :=
  let t := c.tmpl
  (geoAddr (w64 (cpSrc t)) c.esz (c.big.getD (cpN0 t)) (cpN1 t) (cpN2 t) (stride (cpS1 t)) (stride (cpS2 t)) (stride (cpS3 t)) k).toNat

/-- Whether the source addresses that the template gives lie in windows: those of every row, or of the index vector of a gather (R134). -/
def State.sourceIn (s : State) (c : Copy) : Bool :=
  let n0 := c.big.getD (cpN0 c.tmpl)
  if cpGather c.tmpl then s.rowIn c (w64 (cpIdx c.tmpl)) (c.total / n0) 4
  else (List.range (c.total / n0)).all fun r => s.rowIn c (w64 (c.plainAddr (r * n0))) n0 c.esz

/-- What the ring header of a copy's destination is refused for, 0 for nothing (R134, R150, R335): a slot too small, or a header that fails its checks
or whose words are poisoned. (DESIGN CHOICE, assumption 96) -/
def State.ringError (s : State) (c : Copy) : Nat :=
  match s.copyWin c (cpDst c.tmpl) 16 with
  | some (.spad k off _) =>
    if off % 16 ≠ 0 || off + 16 > s.spadBytes k || s.poisoned (poolKey k off) 16 then 2
    else
      let r := s.ring (poolKey k off)
      if c.bytes > 2 ^ r.slotlg then 4 else if r.ok (s.spadBytes k) then 0 else 2
  | _ => 2

/-- The engine errors found at acceptance (R134, R136), 0 for none. (DEDUCED, assumption 31) -/
def State.acceptError (s : State) (c : Copy) : Nat :=
  let t := c.tmpl
  let dst := cpDst t
  if !c.countsOk || fld t 463 448 ≠ 0 || fld t 399 388 ≠ 0 then 1
  else if cpBar t ≠ 0 && (s.copyBar c).isNone then 2
  else if cpSrc t % c.esz ≠ 0 || dst % c.esz ≠ 0 then 2
  else if cpGather t && cpIdx t % 4 ≠ 0 then 2
  else if c.readsHere && !s.sourceIn c then 2
  else if !c.landsHere then 0
  else if cpRing t then s.ringError c
  else
    match s.copyWin c dst 1 with
    | some (.spad k off _) => if off + c.bytes > s.spadBytes k then 2 else 0
    | some (.glob va) => if va + c.bytes > 2 ^ 56 then 2 else 0
    | _ => 2

/-- Whether a refused copy counts its sectors (R144): its counts and its barrier are in order. -/
def State.countsRefused (s : State) (c : Copy) : Bool := c.countsOk && (cpBar c.tmpl = 0 || (s.copyBar c).isSome)

/-- Whether a copy holds its guards or its slots already, or needs none. -/
def Copy.guardedNow (c : Copy) : Bool := (c.slot.isSome && (!cpRing c.tmpl || c.ringSlot.isSome)) || c.guarded || !c.landsHere

/-- Whether two windows lie in one space. -/
def sameSpace (p q : Option Win) : Bool :=
  match p, q with
  | some (.spad t _ _), some (.spad t' _ _) => t = t'
  | some (.glob _), some (.glob _) => true
  | _, _ => false

/-- The lowest free watermark slot of a tile. (DESIGN CHOICE, assumption 30) -/
def State.freeWm (s : State) (t : Nat) : Option Nat :=
  leastBelow (fun i => !(s.copies.any fun e => e.2.active && e.2.slot = some (t, i))) 8

/-- Copies that hold a guard entry in the home slices (R136). -/
def State.guards (s : State) : Nat := (s.copies.filter fun e => e.2.active && e.2.guarded).length

/-- A copy with its watermark slot claims its ring slot (R150); it waits while the ring has none. The header that it claims from has passed its checks
in this step. -/
def State.copyClaim (s : State) (u k : Nat) : State :=
  let c := s.copy u
  if !cpRing c.tmpl || c.ringSlot.isSome then s
  else
    match s.claim k (claimCopy u) with
    | (some i, s) => s.setCopy u { c with ringSlot := some ((s.ring k).slotOff i, i) }
    | (none, s) => s

/-- A copy takes its watermark slot or its guards, and for `RING` its slot (R135, R136, R150); it waits where one is not free. (DEDUCED, assumption 29) -/
def State.copyTake (s : State) (u : Nat) : State :=
  let c := s.copy u
  if c.guardedNow then s
  else
    match s.copyWin c (cpDst c.tmpl) 1 with
    | some (.spad t off _) =>
      match c.slot, s.freeWm t with
      | none, none => s
      | none, some i => (s.setCopy u { c with slot := some (t, i) }).copyClaim u (poolKey t off)
      | some _, _ => s.copyClaim u (poolKey t off)
    | some (.glob _) => if 1024 ≤ s.guards then s else s.setCopy u { c with guarded := true }
    | _ => s

/-- The words of a ring header checked as they are read (R232). -/
def State.checkHeader (s : State) (c : Copy) : State :=
  match s.copyWin c (cpDst c.tmpl) 16 with
  | some (.spad t off _) => if cpRing c.tmpl && c.landsHere && off + 16 ≤ s.spadBytes t then s.checkWords (poolKey t off) 16 else s
  | _ => s

-- The end

/-- The result that a packet takes from its copy (R46, R55): 5 for an engine error, 4 for an access that could not be translated, and for a copy that a
reset of its engine ends as such a one (R94). (DEDUCED, assumption 33) -/
def copyStatus (err : Nat) : Nat := if err = 0 then 0 else if err = 5 || err = 7 then 4 else if err = 6 then 6 else 5

/-- The copies of a tile engine that `cpstat` no longer reports leave the table once they have ended. -/
def State.forget (s : State) (u : Nat) : State :=
  let c := s.copy u
  match c.origin, c.engine with
  | .tile _ _, .tile t => if (s.tile t).tags.any fun e => e.2 = u then s else { s with copies := Tbl.del s.copies u }
  | _, _ => { s with copies := Tbl.del s.copies u }

/-- A copy reaches Ended (R135): its watermark stands at the end, its ring slot is committed, its guards go, its streamer is free, and
what started it is told. (DEDUCED, assumption 33) -/
def State.copyDone (s : State) (u : Nat) (landed : Bool) : State :=
  let c := s.copy u
  let s := if landed then s else s.countRest c
  let s := match c.ringSlot, s.copyWin c (cpDst c.tmpl) 16 with
    | some (_, k), some (.spad t off _) =>
      let s := s.checkHeader c
      if s.poisoned (poolKey t off) 16 then s else s.commit (poolKey t off) k
    | _, _ => s
  let s := s.setCopy u { c with st := if landed then .ended else .aborted, w := c.total, reported := c.total, ticket := none }
  let s := match c.engine with
    | .stream n =>
      let v := s.streamer n
      s.setStreamer n { v with cur := if v.cur = some u then none else v.cur, starts := v.starts.filter (· ≠ u), done := v.done + 1,
                               err := if landed then v.err else BitVec.ofNat 8 c.err, lastWm := c.total }
    | .tile t => s.setTile t { s.tile t with copyQ := (s.tile t).copyQ.filter (· ≠ u) }
  let s := match c.origin with
    | .fill n | .drain n => s.setEntry n (ertSet (s.entry n) 167 128 c.total)
    | _ => s
  let s := match c.origin with
    | .packet q e => s.notePacket q e (copyStatus (if landed then 0 else c.err))
    | .fill n => s.moveEnded n false landed
    | .drain n => s.moveEnded n true landed
    | _ => s
  s.forget u

/-- A copy refused at acceptance goes straight to Ended (R134). -/
def State.copyRefuse (s : State) (u code : Nat) : State :=
  let c := { s.copy u with err := code }
  let s := s.setCopy u (if s.countsRefused c then c else { c with tmpl := setFld c.tmpl 191 128 0 })
  s.copyDone u false

/-- The checks and the guards of acceptance (R134, R136); the copy stays in Accepting. One that waits for a ring slot has its header checked each time
that it tries, so that one rewritten meanwhile gives it no slot outside its ring (R2, R148). (DESIGN CHOICE, assumption 96) -/
def State.copyCheck (s : State) (u : Nat) : State :=
  let s := s.checkHeader (s.copy u)
  if (s.copy u).guardedNow && (s.copy u).landsHere then s
  else if (s.copy u).slot.isSome then
    match s.ringError (s.copy u) with
    | 0 => s.copyTake u
    | e => s.copyRefuse u e
  else
    match s.acceptError (s.copy u) with
    | 0 => s.copyTake u
    | e => s.copyRefuse u e

-- Streamer templates

/-- The template that a streamer has cached for an address (R131). -/
def Streamer.cached (v : Streamer) (pasid a : Nat) : Option (BitVec 512) :=
  (v.cache.find? fun e => e.1 = pasid && e.2.1 = a).map fun e => e.2.2

/-- A template entered as the most recently used of 16 (R131). -/
def Streamer.keep (v : Streamer) (pasid a : Nat) (t : BitVec 512) : Streamer :=
  { v with cache := ((pasid, a, t) :: v.cache.filter fun e => !(e.1 = pasid && e.2.1 = a)).take 16 }

/-- A template read by a streamer (R131): from its cache or from memory; a fault opens a ticket, a failed ticket or a poisoned word
ends the copy with error 9, and a page of `PFMT` 15 with error 3 (R115). -/
def State.copyFetch (s : State) (u : Nat) : State :=
  let c := s.copy u
  match c.tmplAddr, c.engine with
  | some a, .stream n =>
    let got (s : State) (t : BitVec 512) : State :=
      (s.setStreamer n ((s.streamer n).keep c.pasid a.toNat t)).setCopy u { c with tmpl := t, tmplAddr := none }
    match (s.streamer n).cached c.pasid a.toNat with
    | some t => got s t
    | none =>
      match s.copyAccess u c a.toNat 64 .read with
      | (.ok ps, s) =>
        let q := s.loadParts ps
        if ps.any fun p => p.2.2 = some 15 then s.copyRefuse u 3
        else if q.1.any fun b => b.2 then q.2.copyRefuse u 9 else got q.2 (BitVec.ofNat 512 (leNat q.1))
      | (.fault t, s) => s.setCopy u { c with ticket := some t }
      | (.wait, s) => s
      | _ => s.copyRefuse u 9
  | _, _ => s

/-- Whether a template packet asks for its channel's cache to be invalidated (R49). -/
def State.copyCinval (s : State) (c : Copy) : Bool :=
  match c.origin with
  | .packet q e =>
    match Tbl.find (s.queue q).win e with
    | some w => fld w.pkt 7 0 = 5 && fld w.pkt 327 327 = 1
    | none => false
  | _ => false

/-- A copy leaves Accepting (R135); a fill then starts (R180). -/
def State.copyGo (s : State) (u : Nat) : State :=
  let c := s.copy u
  let s := s.setCopy u { c with st := .running, remote := c.remote.map fun r => { r with lastUs := s.us } }
  match c.origin with
  | .fill n => s.fillStarted n
  | _ => s

/-- No earlier copy of the same engine is still to be protected in the space of its destination: an engine's copies take their guards and slots in
order, so that none waits behind a later one for an overlap (R139). (DEDUCED, assumption 70) -/
def State.acceptTurn (s : State) (u : Nat) : Bool :=
  let c := s.copy u
  !(s.copies.any fun e => e.1 ≠ u && e.2.engine = c.engine && e.2.seq < c.seq && e.2.st = .accepting && !e.2.away && !e.2.drained && !e.2.guardedNow &&
    sameSpace (s.copyWin e.2 (cpDst e.2.tmpl) 1) (s.copyWin c (cpDst c.tmpl) 1))

/-- COPY_ACCEPT (R135) of copy `n`: a streamer takes the head of its start queue; a copy in Accepting has its template read, takes
what protects its destination, and goes to Running. (DEDUCED, assumption 29) -/
def State.copyAccept (s : State) : Option State :=
  let u := s.inp.n
  match Tbl.find s.copies u with
  | none => none
  | some c =>
    let begun : Option State :=
      match c.st, c.engine with
      | .accepting, _ => if c.ticket.isSome || c.away || c.drained || !s.acceptTurn u then none else some s
      | .queued, .stream n =>
        let v := s.streamer n
        if v.starts.head? = some u && v.cur.isNone then
          let v := { v with starts := v.starts.tail, cur := some u, cache := if s.copyCinval c then [] else v.cache }
          some ((s.setStreamer n v).setCopy u { c with st := .accepting })
        else none
      | _, _ => none
    match begun with
    | none => none
    | some s =>
      let s := s.copyFetch u
      let c := s.copy u
      if c.st ≠ .accepting || c.tmplAddr.isSome then some s
      else
        let s := s.copyCheck u
        let c := s.copy u
        some (if c.st = .accepting && c.guardedNow then s.copyGo u else s)

/-- COPY_ACCEPT (R135). -/
def execCopyAccept (s : State) : Host.Outcome State Fault Refusal := event State.copyAccept s

-- Landing

/-- The gather row of ordinal `k`. -/
def Copy.rowOf (c : Copy) (k : Nat) : Nat := k / cpN0 c.tmpl

/-- The index entry of a row is read once, before the row's first element (R133): `some none` where it is poisoned. -/
def State.copyIndex (s : State) (u row : Nat) : Option (Option Nat) × State :=
  let c := s.copy u
  match c.row with
  | some (r, x) => if r = row then (some x, s) else fetch c
  | none => fetch c
where
  /-- the entry read from memory and kept -/
  fetch (c : Copy) : Option (Option Nat) × State :=
    match s.copyRead u ((cpIdx c.tmpl + 4 * row) % 2 ^ 64) 4 with
    | (some bs, s) =>
      let x := if bs.any fun b => b.2 then none else some (leNat bs)
      (some x, s.setCopy u { s.copy u with row := some (row, x) })
    | (none, s) => (none, s)

/-- The element of ordinal `k` (R133): its bytes, or `none` while the copy waits, is frozen or aborts. -/
def State.copyElem (s : State) (u k : Nat) : Option (List (Nat × Bool)) × State :=
  let c := s.copy u
  if !c.readsHere then
    (some ((List.range c.esz).map fun i => ((s.inp.v.toNat >>> (8 * i)) % 256, s.inp.flag)), s)
  else if cpGather c.tmpl then
    match s.copyIndex u (c.rowOf k) with
    | (none, s) => (none, s)
    | (some none, s) => (some (List.replicate c.esz (0, true)), s)
    | (some (some x), s) =>
      let a := w64 (cpSrc c.tmpl + k % cpN0 c.tmpl * c.esz) + w64 x * stride (cpS1 c.tmpl)
      s.copyRead u a.toNat c.esz
  else s.copyRead u (c.plainAddr k) c.esz

/-- The address at which ordinal `k` lands, as the engine names it. -/
def Copy.landAddr (c : Copy) (k : Nat) : Nat :=
  match c.ringSlot with
  | some (off, _) => (cpDst c.tmpl / 2 ^ 20 * 2 ^ 20 + off + k * c.esz) % 2 ^ 64
  | none => (cpDst c.tmpl + k * c.esz) % 2 ^ 64

/-- An earlier copy of the same engine has not yet passed a part of [b, b + n) (R139). (DEDUCED, assumption 70) -/
def State.behindCopy (s : State) (u : Nat) (b n : Nat) : Bool :=
  let c := s.copy u
  s.copies.any fun e =>
    let o := e.2
    e.1 ≠ u && o.seq < c.seq && o.engine = c.engine && o.active && o.landsHere && o.pasid = c.pasid &&
      sameSpace o.dest c.dest &&
      (let hi := min (b + n) (o.base + o.bytes)
       max b o.base < hi && (hi - 1 - o.base) / o.esz ≥ o.w)

/-- Ordinal `k` has landed: the watermark moves, its sector is counted when complete (R144), a fill's `FWM` follows (R180). -/
def State.copyLanded (s : State) (u k : Nat) (bad : Bool) : State :=
  let c := s.copy u
  let full := (c.base + (k + 1) * c.esz) % 64 = 0 || k + 1 = c.total
  let poison := c.bad || bad
  let s := match s.copyBar c with
    | some b => if full && c.landsHere then s.changeBar b fun b => b.land poison else s
    | none => s
  let s := s.setCopy u { c with
    w := k + 1
    sectors := if full then c.sectors + 1 else c.sectors
    bad := if full then false else poison
    remote := c.remote.map fun r => { r with lastUs := if c.landsHere then s.us else r.lastUs } }
  match c.origin with
  | .fill n | .drain n => s.setEntry n (ertSet (s.entry n) 167 128 (k + 1))
  | _ => s

/-- Whether the next element of a fill lies on a failed tier port, once it translates (R13). (DESIGN CHOICE, assumption 34) -/
def State.fillDead (s : State) (c : Copy) : Bool :=
  match c.origin with
  | .fill _ =>
    let a := c.plainAddr c.w
    (match s.translate c.engine.agent c.pasid a .read with
      | (.ok e, _) => s.portFailed (e.key a)
      | _ => false)
  | _ => false

/-- A fill that reads a failed port aborts; the manual names no code for it. (DESIGN CHOICE, assumption 7) (DESIGN CHOICE, assumption 34) -/
def State.abortFill (s : State) (u : Nat) : State :=
  let (v, s) := s.freeWord
  s.abortCopy u (bits v 7 0)

/-- A beat from the source of a copy, or an acknowledgement from its destination, has come (R18). -/
def State.heard (s : State) (u : Nat) : State :=
  let c := s.copy u
  s.setCopy u { c with remote := c.remote.map fun r => { r with lastUs := s.us } }

/-- Whether a beat from another module is turned away, its transport trying again: for an incoming put while a checkpoint or restore is in progress, for
any copy during a restore (R28), and for one that is frozen or still waits in Accepting. It counts as sent (R18). (DESIGN CHOICE, assumption 77) -/
def State.turnsAway (s : State) (c : Copy) : Bool :=
  (c.origin = .incoming && s.ckptBusy) || s.ckpt.status = 7 || c.st = .frozen || c.st = .accepting

/-- COPY_LAND (R135) of copy `n`: the next element is read and lands; for a copy whose source is another module, `v` and `flag` are the
element and its poison as they arrive; for one whose destination is another module, `flag` is an acknowledgement from there (R18). (DEDUCED, assumption 70)
(DESIGN CHOICE, assumption 72) -/
def State.copyLand (s : State) : Option State :=
  let u := s.inp.n
  match Tbl.find s.copies u with
  | none => none
  | some c =>
    if c.active && c.remote.isSome && ((!c.landsHere && s.inp.flag) || (!c.readsHere && s.turnsAway c)) then some (s.heard u)
    else if c.st ≠ .running || c.away || c.drained || c.total ≤ c.w then none
    else
      let k := c.w
      if c.landsHere && s.behindCopy u (c.base + k * c.esz) c.esz then none
      else if s.fillDead c then some (s.abortFill u)
      else
        match s.copyElem u k with
        | (none, s) => some s
        | (some bs, s) =>
          let bad := bs.any fun b => b.2
          if !c.landsHere then some (s.copyLanded u k bad)
          else
            match s.copyReach u (c.landAddr k) c.esz .write with
            | (some (some ps), s) => some ((s.storeParts ps bs).copyLanded u k bad)
            | (some none, s) => some (s.copyLanded u k bad)
            | (none, s) => some s

/-- COPY_LAND (R135). -/
def execCopyLand (s : State) : Host.Outcome State Fault Refusal := event State.copyLand s

/-- COPY_END (R135) of copy `n`, every ordinal landed; a copy whose destination is another module ends with its report (R17). -/
def State.copyEnd (s : State) : Option State :=
  let u := s.inp.n
  match Tbl.find s.copies u with
  | none => none
  | some c => if c.st = .running && !c.away && !c.drained && c.total ≤ c.w && c.landsHere then some (s.copyDone u true) else none

/-- COPY_END (R135). -/
def execCopyEnd (s : State) : Host.Outcome State Fault Refusal := event State.copyEnd s

/-- Where the parts of a global range lie for an aborted copy's engine, in keys and bytes: none while one has to wait. A part that does not translate
opens its ticket, and is passed over once that has failed (R93, R112). (DEDUCED, assumption 32) -/
def State.poisonParts (s : State) (u : Nat) : List (Nat × Nat) → Option (List (Nat × Nat)) × State
  | [] => (some [], s)
  | (va, n) :: r =>
    let c := s.copy u
    if c.failed.contains (va / 65536) then s.poisonParts u r
    else
      match s.translate c.engine.agent c.pasid va .write with
      | (.wait, s) => (none, s)
      | (.fault, s) =>
        let (t, s) := s.openTicket c.engine.agent c.pasid va .write false
        (none, s.setCopy u { c with ticket := some t })
      | (.ok e, s) =>
        match s.homeAccepts (e.key va) (0, u) with
        | (false, s) => (none, s)
        | (true, s) =>
          match s.poisonParts u r with
          | (some ps, s) => (some ((e.key va, n) :: ps), s)
          | q => q

/-- The words of [a, a + n) of a copy's destination, as its engine names them, poisoned and full (R141); none while it has to wait. -/
def State.poisonRange (s : State) (u a n : Nat) : Bool × State :=
  let lo := a / 8 * 8
  let len := (a + n + 7) / 8 * 8 - lo
  let all (s : State) (ps : List (Nat × Nat)) : State :=
    ps.foldl (fun s p => (List.range (p.2 / 8)).foldl (fun s i => s.poisonWord (p.1 / 8 + i)) s) s
  match s.copyWin (s.copy u) lo 8 with
  | some (.spad t off _) => (true, all s [(poolKey t off, min len (s.spadBytes t - off))])
  | some (.glob va) =>
    match s.poisonParts u (pageParts va len (len + 1)) with
    | (some ps, s) => (true, all s ps)
    | (none, s) => (false, s)
  | _ => (true, s)

/-- Whether a copy stays as a drain has left it (R138, R174), but for one of a launch that has been discarded meanwhile. -/
def State.stays (s : State) (c : Copy) : Bool :=
  c.drained && !(match c.origin with
    | .tile l _ => (s.launch l).st = .faulted && (match c.slot with
      | some (t, _) => (s.launch l).covers t
      | none => true)
    | _ => false)

/-- COPY_ABORT_COMPLETE (R141) of copy `n`: every unlanded word is poisoned, and only then the watermark stands at the end. (DEDUCED, assumption 32) -/
def State.copyAborted (s : State) : Option State :=
  let u := s.inp.n
  match Tbl.find s.copies u with
  | none => none
  | some c =>
    let rest := (c.total - c.w) * c.esz
    if c.st ≠ .aborting || c.ticket.isSome || s.stays c then none
    else if c.away then some ((s.setCopy u { c with ringSlot := none, tmpl := setFld c.tmpl 191 128 0 }).copyDone u false)
    else if c.guardedNow && c.landsHere && s.behindCopy u (c.base + c.w * c.esz) rest then none
    else
      let known := c.tmplAddr.isNone && c.landsHere && !(cpRing c.tmpl && c.ringSlot.isNone)
      match if known && 0 < rest && (c.guardedNow || s.acceptError c = 0) then s.poisonRange u (c.landAddr c.w) rest else (true, s) with
      | (false, s) => some s
      | (true, s) =>
        let s := if c.guardedNow || s.countsRefused c then s else s.setCopy u { c with tmpl := setFld c.tmpl 191 128 0 }
        some (s.copyDone u false)

/-- COPY_ABORT_COMPLETE (R141). -/
def execCopyAbortComplete (s : State) : Host.Outcome State Fault Refusal := event State.copyAborted s

/-- WATERMARK_REPORT (R136) of copy `n`: its guards take its watermark. -/
def State.watermarkReport (s : State) : Option State :=
  match Tbl.find s.copies s.inp.n with
  | some c => if c.active && c.guarded then some (s.setCopy s.inp.n { c with reported := c.w }) else none
  | none => none

/-- WATERMARK_REPORT (R136). -/
def execWatermarkReport (s : State) : Host.Outcome State Fault Refusal := event State.watermarkReport s

-- On-ramps

/-- On-ramp starts that wait in a start queue. -/
def State.onrampPend (s : State) (n : Nat) : Nat :=
  ((s.streamer n).starts.filter fun u => (s.copy u).origin = .onramp).length

/-- A store to `GO` of streamer `n` (R129). -/
def State.goStore (s : State) (n : Nat) (v : Word) : State :=
  let r := s.streamer n
  let i := bits v 15 0
  if !r.bound || r.tcount ≤ i || 8 ≤ s.onrampPend n then s.setStreamer n { r with drop := min 255 (r.drop + 1) }
  else s.startStream n { origin := .onramp, pasid := r.pasid, tmplAddr := some (r.tbase + w64 (64 * i)) }

/-- A store to `CINVAL` of streamer `n` (R128). -/
def State.cinvalStore (s : State) (n : Nat) : State :=
  let r := s.streamer n
  if r.bound then s.setStreamer n { r with cache := [] } else s

/-- `CSTAT` (R130). -/
def State.cstat (s : State) (n : Nat) : Word :=
  let r := s.streamer n
  let st := match r.cur with
    | some u =>
      match (s.copy u).st with
      | .frozen => 2
      | .aborting => 3
      | _ => 1
    | none => 0
  w64 (r.done.toNat <<< 32 ||| r.err.toNat <<< 24 ||| r.drop <<< 16 ||| s.onrampPend n <<< 12 ||| st)

/-- A read of an on-ramp register by an aligned 8-byte access (R128, R129). -/
def State.onrampRead (s : State) (n off : Nat) : Word :=
  let r := s.streamer n
  if off = 0x008 then s.cstat n
  else if !r.bound then 0
  else if off = 0x010 then
    match r.cur with
    | some u => w64 ((s.copy u).w % 2 ^ 41)
    | none => w64 (r.lastWm % 2 ^ 41)
  else if off = 0x020 then r.tbase
  else if off = 0x028 then w64 r.tcount
  else 0

/-- A write of an on-ramp register by an aligned 8-byte access (R128). -/
def State.onrampWrite (s : State) (n off : Nat) (v : Word) : State :=
  if off = 0 then s.goStore n v else if off = 0x018 then s.cinvalStore n else s

/-- GO (R129): value `v` stored to streamer `n`. -/
def execGo (s : State) : Host.Outcome State Fault Refusal :=
  event (fun s => if s.inp.n < 32 then some (s.goStore s.inp.n s.inp.v) else none) s

/-- CINVAL_WRITE (R128) of streamer `n`. -/
def execCinvalWrite (s : State) : Host.Outcome State Fault Refusal :=
  event (fun s => if s.inp.n < 32 then some (s.cinvalStore s.inp.n) else none) s

-- Remote copies

/-- Whether a window takes a request (R19). (DESIGN CHOICE, assumption 61) -/
def RWin.takes (r : RWin) (modId : Nat) (get : Bool) (off n : Nat) : Bool :=
  (if get then r.get else r.put) && (r.any || r.modId = modId) && off + n ≤ r.len

/-- REMOTE_COPY_REQUEST (R19): module `m` asks window `n` for `u` bytes at offset `v`, a get with `flag`; `data` holds log2 of the element
size and the IOD-B streamer that takes it, which the manual leaves open. A refused request changes nothing here, nor does one that comes while a
checkpoint or restore is in progress (R28). (DESIGN CHOICE, assumption 61) -/
def State.remoteRequest (s : State) : Option State :=
  let i := s.inp
  let esz := i.data.headD 0
  let n := ((i.data.drop 1).headD 16).toNat
  match Tbl.find s.rwins i.n with
  | none => none
  | some r =>
    if s.ckptBusy || !r.takes i.m i.flag i.v.toNat i.u.toNat || i.u = 0 || esz.toNat > 3 || i.u.toNat % 2 ^ esz.toNat ≠ 0 || n < 16 || 31 < n then none
    else
      let a := r.base + i.v.toNat
      some (s.startStream n
        { origin := .incoming, pasid := r.pasid, tmpl := denseTmpl (if i.flag then a else 0) (if i.flag then 0 else a) esz.toNat,
          big := some (i.u.toNat / 2 ^ esz.toNat),
          remote := some { kind := if i.flag then .inGet else .inPut, modId := i.m, window := i.n, lastUs := s.us } })

/-- REMOTE_COPY_REQUEST (R19). -/
def execRemoteCopyRequest (s : State) : Host.Outcome State Fault Refusal := event State.remoteRequest s

/-- REMOTE_PUT_COMPLETE (R17) of copy `n`: the other module reports the last element landed, or with `flag` that it refused or aborted the
copy, engine error 8 (R19, R134). -/
def State.remoteComplete (s : State) : Option State :=
  let u := s.inp.n
  match Tbl.find s.copies u with
  | none => none
  | some c =>
    if !c.active || c.remote.isNone || c.st = .aborting then none
    else if s.inp.flag then some (s.abortCopy u 8)
    else if !c.landsHere && c.st = .running && c.total ≤ c.w then some (s.copyDone u true)
    else none

/-- REMOTE_PUT_COMPLETE (R17). -/
def execRemotePutComplete (s : State) : Host.Outcome State Fault Refusal := event State.remoteComplete s

/-- 50 ms in microseconds (R18). -/
def remoteLimit : Nat := 50000

/-- A remote copy of one direction whose last beat or acknowledgement is 50 ms old is aborted (R18), with the engine error of a remote window that
aborted it; beats that are turned away count as sent. A copy in Accepting has neither asked for beats nor sent any, but for an incoming put.
(DESIGN CHOICE, assumption 77) -/
def State.remoteTimeout (s : State) (landing : Bool) : Option State :=
  let u := s.inp.n
  match Tbl.find s.copies u with
  | none => none
  | some c =>
    match c.remote with
    | some r => if c.active && c.st ≠ .aborting && (c.st ≠ .accepting || r.kind = .inPut) && c.landsHere = landing && !(landing && s.ckptBusy) && r.lastUs + remoteLimit ≤ s.us then some (s.abortCopy u 8) else none
    | none => none

/-- REMOTE_SOURCE_TIMEOUT (R18) of copy `n`: no beat has come from its source for 50 ms. -/
def execRemoteSourceTimeout (s : State) : Host.Outcome State Fault Refusal := event (fun s => s.remoteTimeout true) s

/-- REMOTE_ACK_TIMEOUT (R18) of copy `n`: no acknowledgement has come from its destination for 50 ms. -/
def execRemoteAckTimeout (s : State) : Host.Outcome State Fault Refusal := event (fun s => s.remoteTimeout false) s

-- The tile copy engine

/-- Copies that an engine runs (R126); those that a drain has saved run on none. -/
def State.engineActive (s : State) (t : Nat) : Nat := (s.copies.filter fun e => e.2.engine = .tile t && e.2.active && !e.2.drained).length

/-- Whether an engine's claim of a ring slot waits (R150). -/
def State.claimWaits (s : State) (t : Nat) : Bool :=
  s.copies.any fun e => e.2.engine = .tile t && e.2.st = .accepting && !e.2.away && !e.2.drained && cpRing e.2.tmpl && e.2.ringSlot.isNone

/-- A tile copy takes its tag, the oldest of the 16 that `cpstat` reports being forgotten (R383, R385). -/
def State.tagCopy (s : State) (t u : Nat) : State :=
  let tl := s.tile t
  let old := if 16 ≤ tl.tags.length then tl.tags.head? else none
  let s := s.setTile t { tl with tag := (tl.tag + 1) % 2 ^ 16, tags := (if old.isSome then tl.tags.tail else tl.tags) ++ [(tl.tag, u)] }
  match old with
  | some e => if (s.copy e.2).st = .ended || (s.copy e.2).st = .aborted then { s with copies := Tbl.del s.copies e.2 } else s
  | none => s

/-- Whether a destination lies in the scratchpad of the engine's own tile (R197, R384), by whichever window it is named. (DEDUCED, assumption 29) -/
def intoOwn (t dst : Nat) : Bool := dst >>> 20 = 0xFF000000000 || dst >>> 20 = 0xFE000000000 + t

/-- `cp` (R383, R384). (DEDUCED, assumption 29) -/
def cpBody (x : FmtE) : M Unit := do
  let s ← get
  let a := s.gReg x.a.toNat
  need (a.toNat >>> 20 = 0xFF000000000 || a.toNat >>> 56 = 0) tcAperture a
  match s.window a 64 with
  | .error c => trapM c a
  | .ok _ => pure ()
  need (bits a 5 0 = 0) tcMisalign a
  earlierM
  let ws ← readBlock a 8
  let s ← get
  let t := s.myTile
  let u := s.fresh
  let c : Copy := { engine := .tile t, origin := .tile s.me.launch (s.tile t).tag, pasid := s.myPasid, st := .queued,
                    tmpl := BitVec.ofNat 512 (joinWords ws), seq := u }
  let s0 := s
  if intoOwn t (cpDst c.tmpl) then
    if !(s.tile t).copyQ.isEmpty || 4 ≤ s.engineActive t || s.claimWaits t || (s.acceptError c = 0 && (s.freeWm t).isNone) then holdM
    else upd fun s => ((s.newId.2.setCopy u { c with st := .accepting }).tagCopy t u).copyCheck u
  else if 2 ≤ (s.tile t).copyQ.length then holdM
  else upd fun s =>
    let s := (s.newId.2.setCopy u c).tagCopy t u
    s.setTile t { s.tile t with copyQ := (s.tile t).copyQ ++ [u] }
  if x.cb 0 0 = 1 then writeS x.d (w64 (s0.tile t).tag) else pure ()

/-- `cp` (R383). -/
def execCp (x : FmtE) (s : State) : Host.Outcome State Fault Refusal := native (.cp x) (cpBody x) s

/-- The copy of a tag of the executing tile, among the 16 most recent. -/
def State.tagged (s : State) (tag : Nat) : Option Nat :=
  (((s.tile s.myTile).tags.reverse.find? fun e => e.1 = tag).map Prod.snd)

/-- The state code of R385. -/
def copyCode (st : CopyState) : Nat :=
  match st with
  | .ended => 0
  | .running => 1
  | .frozen => 2
  | .aborting => 3
  | .accepting => 4
  | .queued => 5
  | .aborted => 6

/-- `cpstat` (R385). -/
def cpstatBody (x : FmtE) : M Unit := do
  let s ← get
  let tag := bits (s.gReg x.a.toNat) 15 0
  let v := match s.tagged tag with
    | none => 7 <<< 41
    | some u =>
      let c := s.copy u
      c.err <<< 44 ||| copyCode c.st <<< 41 ||| (if c.st = .queued then 0 else c.w % 2 ^ 41)
  writeS x.d (w64 (tag <<< 48 ||| v))

/-- `cpstat` (R385). -/
def execCpstat (x : FmtE) (s : State) : Host.Outcome State Fault Refusal := native (.cpstat x) (cpstatBody x) s

/-- A queued tile copy is removed (R385): it ends aborted, its sectors counted. -/
def State.dropQueued (s : State) (u : Nat) : State :=
  let c := { s.copy u with err := 6 }
  (s.setCopy u (if s.countsRefused c then c else { c with tmpl := setFld c.tmpl 191 128 0 })).copyDone u false

/-- `cpabort` (R385). -/
def cpabortBody (x : FmtE) : M Unit := upd fun s =>
  match s.tagged (bits (s.gReg x.a.toNat) 15 0) with
  | none => s
  | some u => if (s.copy u).st = .queued then s.dropQueued u else s.abortCopy u 6

/-- `cpabort` (R385). -/
def execCpabort (x : FmtE) (s : State) : Host.Outcome State Fault Refusal := native (.cpabort x) (cpabortBody x) s

/-- The `STATE` of a watermark slot (R138). -/
def slotCode (st : CopyState) : Nat :=
  match st with
  | .running => 1
  | .frozen => 2
  | .aborting => 3
  | .accepting => 4
  | _ => 0

/-- Word `w` of watermark slot `n` of a tile (R138). -/
def State.wmWord (s : State) (t n w : Nat) : Word :=
  match s.copies.find? fun e => e.2.active && e.2.slot = some (t, n) with
  | none => 0
  | some (_, c) =>
    match w with
    | 0 => w64 (c.w ||| fld c.tmpl 385 384 <<< 41 ||| slotCode c.st <<< 60)
    | 1 => w64 (c.engine.agent ||| c.total <<< 16)
    | _ => w64 (c.landAddr 0)

/-- `wmread` (R386). -/
def wmreadBody (x : FmtE) : M Unit := do
  let s ← get
  let w := bits (s.gReg x.b.toNat) 1 0
  need (w ≠ 3) tcEngerr 1
  writeS x.d (s.wmWord s.myTile x.a.toNat w)

/-- `wmread` (R386). -/
def execWmread (x : FmtE) (s : State) : Host.Outcome State Fault Refusal := native (.wmread x) (wmreadBody x) s

/-- `cinval` (R387): the strand's stores come first, then the channel's cache is invalidated whatever its binding, and the strand waits until the
streamer acknowledges. -/
def cinvalBody (x : FmtE) : M Unit := do
  let s ← get
  let a := s.gReg x.a.toNat
  need (bits a 63 5 = 0) tcEngerr 1
  if s.me.await = .ack then pure ()
  else do
    elementsM fun _ => true
    upd fun s => s.setStreamer (bits a 4 0) { s.streamer (bits a 4 0) with cache := [] }
    waitM .ack

/-- `cinval` (R387). -/
def execCinval (x : FmtE) (s : State) : Host.Outcome State Fault Refusal := native (.cinval x) (cinvalBody x) s

/-- The tile copy engine starts the head of its queue, which enters Accepting (R384, R126); one that an abort has reached there leaves the queue. -/
def State.copyStart (s : State) (t : Nat) : Option State :=
  match (s.tile t).copyQ with
  | [] => none
  | u :: r =>
    if (s.copy u).st ≠ .queued then some (s.setTile t { s.tile t with copyQ := r })
    else if 4 ≤ s.engineActive t || s.claimWaits t || (s.copy u).drained then none
    else some ((s.setTile t { s.tile t with copyQ := r }).setCopy u { s.copy u with st := .accepting })

/-- ENGINE_COMMAND_START (R224) of an engine of tile `n`. -/
def State.engineStart (s : State) : Option State :=
  match s.inp.engine with
  | .copy => s.copyStart s.inp.n
  | .load => s.loadStart s.inp.n
  | .matrix => s.matStart s.inp.n
  | .vector => s.vecStart s.inp.n

/-- ENGINE_COMMAND_START (R224). -/
def execEngineCommandStart (s : State) : Host.Outcome State Fault Refusal := event State.engineStart s

end Sys2Proof.Machine
end

