-- ==== Sys2Proof/Machine/Gather.lean ====
section
/-! DEFINITION. Gathers and scatters (R151 to R153, R388 to R390): the instructions, the owners' reads and writes, and the rows and
acknowledgements that come back. -/

namespace Sys2Proof.Machine

/-- The control word of R388. -/
def gaSub (b : Word) : Nat := bits b 53 48
def gaRb (b : Word) : Nat := bits b 47 36 * 8
def gaP (b : Word) : Nat := bits b 35 20
def gaToff (b : Word) : Nat := bits b 19 0

/-- `ERR` bits of a gather record (R152). -/
def gaRange : Nat := 33
def gaPoison : Nat := 34
def gaAbort : Nat := 35

/-- A word written with its full/empty bit set as given, not poisoned. -/
def State.writeWord (s : State) (k : Nat) (v : Word) (empty : Bool) : State := (s.store8 k v).setEmpty (k / 8) empty

/-- An own-scratchpad address with a range of `n` bytes and an alignment (R388). -/
def ownAddr (a : Word) (n m : Nat) : M Nat := do
  let s ← get
  need (a.toNat >>> 20 = 0xFF000000000) tcAperture a
  match s.window a n with
  | .error c => trapM c a
  | .ok _ => pure ()
  need (a.toNat % m = 0) tcMisalign a
  pure (bits a 19 0)

/-- A list of `n` index entries read as loads of the strand; a poisoned word traps. -/
def readList (a : Word) : Nat → M (List Nat)
  | 0 => pure []
  | n + 1 => do
    let (v, p) ← readM a 4
    if p then trapKeep tcPoison a
    else do
      let r ← readList (a + 4) n
      pure (v :: r)

/-- The record as a gather sets it at acceptance (R153, R389): counters by owner, `PEND`, `ERR` clear, the low word empty. -/
def State.gaAccept (s : State) (g : Gather) (ids : List Nat) : State :=
  let base (o : Nat) : Nat := poolKey g.tile o
  let s := (List.range g.tiles.length).foldl (fun s j =>
    s.store (base (g.cbase + 2 * j)) 2 ((ids.filter fun i => i / g.p = j).length) false) s
  s.writeWord (base g.recOff) (w64 (bits (s.wordAt (base g.recOff / 8)) 63 36 <<< 36 ||| ids.length)) true

/-- Whether an index names a row of the table (R153). -/
def Gather.inTable (g : Gather) (i : Nat) : Bool := i < g.tiles.length * g.p

/-- The owner of a row, and the offset of the row there (R151). -/
def Gather.owner (g : Gather) (i : Nat) : Nat := g.tiles.getD (i / g.p) 0
def Gather.rowOff (g : Gather) (i : Nat) : Nat := g.toff + i % g.p * g.rb

/-- The words of a row from a tile's scratchpad, each with its poison. -/
def State.rowWords (s : State) (t off n : Nat) : List (Word × Bool) × State :=
  let s := s.checkWords (poolKey t off) n
  ((List.range (n / 8)).map fun i => (s.wordAt (poolKey t off / 8 + i), s.isPoison (poolKey t off / 8 + i)), s)

/-- Words written into a tile's scratchpad, full, with the poison they carry. -/
def State.putWords (s : State) (t off : Nat) (ws : List (Word × Bool)) : State :=
  (List.range ws.length).foldl (fun s i =>
    let w := ws.getD i (0, false)
    s.storeWord (poolKey t off + 8 * i) 8 w.1.toNat w.2) s

/-- `gath` and `scat` (R388 to R390): the counters that the record names are an address, checked before the poison of the list (R294); rows are read and
written after the strand's earlier accesses (R272). -/
def gathBody (i : Instr) (x : FmtE) (scatter : Bool) : M Unit := do
  let s ← get
  let n := x.cb 12 0
  let b := s.gReg x.b.toNat
  match subgroupOf s.myLaunch s.myTile (gaSub b) with
  | none => trapM tcIllop (encode i)
  | some g => do
    let d := s.gReg x.d.toNat
    let a := s.gReg x.a.toNat
    let c := s.gReg x.c.toNat
    let dOff ← ownAddr d (max 1 (n * gaRb b)) 8
    let _ ← ownAddr a (4 * n) 4
    let cOff ← ownAddr c 16 16
    let r0 ← readM c 8
    let r1 ← readM (c + 8) 8
    let cbase := r1.1 >>> 44
    need (r1.2 || cbase + 2 * g.size ≤ s.spadBytes s.myTile) tcAperture (w64 (0xFF00000000000000 + cbase))
    let ids ← readList a n
    if r0.2 then trapKeep tcPoison c else pure ()
    if r1.2 then trapKeep tcPoison (c + 8) else pure ()
    need (bits b 63 54 = 0 && gaRb b ≠ 0 && gaP b ≠ 0 && gaToff b % 8 = 0) tcEngerr 1
    if s.heldSpad s.myTile cbase (2 * g.size) none then waitM .hold else pure ()
    earlierM
    upd fun s =>
      let (k, s) := s.newId
      let v : Gather := { scatter := scatter, tile := s.myTile, launch := s.me.launch, loc := dOff, recOff := cOff, cbase := cbase,
                          rb := gaRb b, p := gaP b, toff := gaToff b, tiles := g.tiles }
      let s := s.gaAccept v ids
      let all := (List.range n).map fun k => (k, ids.getD k 0)
      let far := (all.filter fun e => !v.inTable e.2).map fun e => (e.1, e.2, ([] : List (Word × Bool)), false)
      let near := all.filter fun e => v.inTable e.2
      if scatter then
        let q := near.foldl (fun (q : List (Nat × Nat × List (Word × Bool)) × State) e =>
          let off := v.loc + e.1 * v.rb
          if q.2.heldSpad v.tile off v.rb none then (q.1 ++ [(e.1, e.2, [])], q.2)
          else
            let r := q.2.rowWords v.tile off v.rb
            (q.1 ++ [(e.1, e.2, r.1)], r.2)) ([], s)
        { q.2 with gathers := Tbl.put q.2.gathers k { v with lists := q.1, rows := far } }
      else
        let s := (List.range (n * v.rb / 8)).foldl (fun s i => s.setEmpty (poolKey v.tile v.loc / 8 + i) true) s
        { s with gathers := Tbl.put s.gathers k { v with lists := near.map fun e => (e.1, e.2, []), rows := far } }

/-- `gath` (R388, R389). -/
def execGath (x : FmtE) (s : State) : Host.Outcome State Fault Refusal := native (.gath x) (gathBody (.gath x) x false) s

/-- `scat` (R388, R390). -/
def execScat (x : FmtE) (s : State) : Host.Outcome State Fault Refusal := native (.scat x) (gathBody (.scat x) x true) s

/-- Whether a watermark holds what the count of a row writes: its owner's counter and the record (R137). -/
def State.gaHeld (s : State) (g : Gather) (idx : Nat) : Bool :=
  s.heldSpad g.tile g.recOff 8 none || (g.inTable idx && s.heldSpad g.tile (g.cbase + 2 * (idx / g.p)) 2 none)

/-- A row is counted (R153): its owner's counter and `PEND` go down by 1, `ERR` bits are set, and with the last row the record's low word is
set full and the gather ends. -/
def State.gaCount (s : State) (k : Nat) (g : Gather) (idx : Nat) (errs : List Nat) : State :=
  let base (o : Nat) : Nat := poolKey g.tile o
  let s :=
    if g.inTable idx then
      let o := base (g.cbase + 2 * (idx / g.p))
      let s := s.checkWord (o / 8)
      s.store o 2 ((Memory.read s.mem o 2 + 65535) % 65536) false
    else s
  let s := s.checkWord (base g.recOff / 8)
  let w := s.wordAt (base g.recOff / 8)
  let pend := (bits w 31 0 + 2 ^ 32 - 1) % 2 ^ 32
  let w := errs.foldl (fun w i => putBit w i true) (putBits w 0 32 (w64 pend))
  let s := (s.storeWord (base g.recOff) 8 w.toNat (s.isPoison (base g.recOff / 8))).setEmpty (base g.recOff / 8) (pend ≠ 0)
  if pend = 0 then { s with gathers := Tbl.del s.gathers k } else { s with gathers := Tbl.put s.gathers k g }

/-- GATHER_SUBLIST_ARRIVAL (R153) at owner `m` of gather `n`: the owner reads the rows asked of it that no watermark holds; a row that
fails its partition check is poisoned, with the ERROR event of R99 (R389). -/
def State.sublistArrival (s : State) : Option State :=
  match Tbl.find s.gathers s.inp.n with
  | none => none
  | some g =>
    if g.scatter then none
    else
      let t := s.inp.m
      let q := g.lists.foldl (fun (q : Gather × State) e =>
        let off := g.rowOff e.2.1
        if g.owner e.2.1 ≠ t then ({ q.1 with lists := q.1.lists ++ [e] }, q.2)
        else if q.2.spadBytes t < off + g.rb then
          ({ q.1 with rows := q.1.rows ++ [(e.1, e.2.1, List.replicate (g.rb / 8) (0, true), true)] }, q.2.remoteError t off g.tile)
        else if q.2.heldSpad t off g.rb none then ({ q.1 with lists := q.1.lists ++ [e] }, q.2)
        else
          let r := q.2.rowWords t off g.rb
          ({ q.1 with rows := q.1.rows ++ [(e.1, e.2.1, r.1, false)] }, r.2)) ({ g with lists := [] }, s)
      some { q.2 with gathers := Tbl.put q.2.gathers s.inp.n q.1 }

/-- GATHER_SUBLIST_ARRIVAL (R153). -/
def execGatherSublistArrival (s : State) : Host.Outcome State Fault Refusal := event State.sublistArrival s

/-- GATHER_ROW_ARRIVAL (R153) of gather `n`, list entry `m`: its words land full once no watermark holds them, and the row is counted. -/
def State.rowArrival (s : State) : Option State :=
  match Tbl.find s.gathers s.inp.n with
  | none => none
  | some g =>
    match g.rows.find? fun e => e.1 = s.inp.m with
    | none => none
    | some (k, idx, ws, bad) =>
      if g.scatter || s.heldSpad g.tile (g.loc + k * g.rb) g.rb none || s.gaHeld g idx then none
      else
        let ws := if g.inTable idx then ws else List.replicate (g.rb / 8) (0, true)
        let errs := if !g.inTable idx then [gaRange] else if bad then [gaAbort] else if ws.any fun w => w.2 then [gaPoison] else []
        let g := { g with rows := g.rows.filter fun e => e.1 ≠ k }
        some ((s.putWords g.tile (g.loc + k * g.rb) ws).gaCount s.inp.n g idx errs)

/-- GATHER_ROW_ARRIVAL (R153). -/
def execGatherRowArrival (s : State) : Host.Outcome State Fault Refusal := event State.rowArrival s

/-- SCATTER_ROW_ARRIVAL (R390) of scatter `n`, list entry `m`: the owner writes the row, in list order among the rows of one owner, once no
watermark holds it; a row outside the owner's partition is discarded with the ERROR event of R99. (DEDUCED, assumption 73) -/
def State.scatArrival (s : State) : Option State :=
  match Tbl.find s.gathers s.inp.n with
  | none => none
  | some g =>
    match g.lists.find? fun e => e.1 = s.inp.m with
    | none => none
    | some (k, idx, ws) =>
      let t := g.owner idx
      let off := g.rowOff idx
      let src := g.loc + k * g.rb
      if !g.scatter || g.lists.any (fun e => e.1 < k && g.owner e.2.1 = t) then none
      else if ws.isEmpty && s.heldSpad g.tile src g.rb none then none
      else
        let (ws, s) := if ws.isEmpty then s.rowWords g.tile src g.rb else (ws, s)
        let g := { g with lists := g.lists.filter fun e => e.1 ≠ k }
        let land (s : State) (bad : Bool) : Option State :=
          some { s with gathers := Tbl.put s.gathers s.inp.n { g with rows := g.rows ++ [(k, idx, ws, bad)] } }
        if s.spadBytes t < off + g.rb then land (s.remoteError t off g.tile) true
        else if s.heldSpad t off g.rb none then none
        else land (s.putWords t off ws) false

/-- SCATTER_ROW_ARRIVAL (R390). -/
def execScatterRowArrival (s : State) : Host.Outcome State Fault Refusal := event State.scatArrival s

/-- SCATTER_ACK (R390) of scatter `n`, list entry `m`. -/
def State.scatAck (s : State) : Option State :=
  match Tbl.find s.gathers s.inp.n with
  | none => none
  | some g =>
    match g.rows.find? fun e => e.1 = s.inp.m with
    | none => none
    | some (k, idx, ws, bad) =>
      if !g.scatter || s.gaHeld g idx then none
      else
        let errs := if !g.inTable idx then [gaRange]
          else (if bad then [gaAbort] else []) ++ (if ws.any fun w => w.2 then [gaPoison] else [])
        some (s.gaCount s.inp.n { g with rows := g.rows.filter fun e => e.1 ≠ k } idx errs)

/-- SCATTER_ACK (R390). -/
def execScatterAck (s : State) : Host.Outcome State Fault Refusal := event State.scatAck s

end Sys2Proof.Machine
end

