-- ==== Sys2Proof/Machine/Expert.lean ====
section
/-! DEFINITION. The expert paging unit (R183 to R187, R391, R392), work deques and stealing (R192, R193, R393). -/

namespace Sys2Proof.Machine

-- Requests

/-- The usable placements of a lookup, the entry itself first (R185); of a replica that is named directly, itself alone (R196). -/
def State.placements (s : State) (n : Nat) (replicas : Bool) : List Nat :=
  let e := s.entry n
  (if ertUsable e then [n] else []) ++
    (if replicas && ertXid e = n then
      (List.range 3).filterMap fun i => match ertRep e i with
        | some r => if ertUsable (s.entry r) && ertPasid (s.entry r) = ertPasid e then some r else none
        | none => none
     else [])

/-- A record parks on an entry (R186): result 2, or 3 when its layby is full or no layby is free. -/
def State.park (s : State) (n : Nat) (p : Parked) : Nat × State :=
  let e := s.entry n
  if ertLv e then
    let l := s.layby (ertLayby e)
    if 1024 ≤ l.recs.length then (3, s) else (2, s.setLayby (ertLayby e) { l with recs := l.recs ++ [p] })
  else
    match leastBelow (fun j => !(s.layby j).bound) 512 with
    | none => (3, s)
    | some j =>
      let s := s.setEntry n (ertSet (ertSet e 6 6 1) 18 10 j)
      (2, s.setLayby j { bound := true, rel := ertRel e, entry := n, recs := [p] })

/-- A lookup or a park (R185): the result and the record. -/
def State.lookup (s : State) (look : Bool) (n : Nat) (r : BitVec 128) (u t : Nat) : (Nat × BitVec 128) × State :=
  let e := s.entry n
  let p := s.placements n look
  if ertPasid e = 0 || ertPasid e ≠ (s.launch u).pasid then ((4, r), s)
  else
    match p[ertRr e % p.length]? with
    | some v =>
      let s := s.setEntry n (ertSet e 9 8 ((ertRr e + 1) % 4))
      let d := s.entry v
      if ertPin d = 65535 then ((3, r), s)
      else
        let s := s.setEntry v (ertSet (ertSet d 79 64 (ertPin d + 1)) 95 80 0)
        ((if v = n then 0 else 1, recResolved r (ertHaddr d) v), s)
    | none =>
      let (res, s) := s.park n { launch := u, tile := t, record := r, released := false }
      let s := if look && res = 2 && ertState e = 0 && !ertFerr e then s.startMove n false else s
      ((res, r), s)

/-- An unpin (R185, R392). -/
def State.unpin (s : State) (n u : Nat) : Nat × State :=
  let e := s.entry n
  if ertPasid e = 0 || ertPasid e ≠ (s.launch u).pasid then (4, s)
  else if ertPin e = 0 then (5, s.setEntry n (ertSet e 7 7 1))
  else
    let s := s.setEntry n (ertSet e 79 64 (ertPin e - 1))
    (0, if ertUsable e then s.releaseLayby n else s)

/-- A request of the table replaced. -/
def State.setReq (s : State) (k : Nat) (r : ExpertReq) : State :=
  { s with expert := s.expert.map fun e => if e.1 = k then (k, r) else e }

/-- EXPERT_REQUEST (R185): request `n` reaches the unit, which applies it as one step. -/
def State.expertRequest (s : State) : Option State :=
  match s.expert.find? fun e => e.1 = s.inp.n with
  | some (k, r) =>
    if r.reply.isSome then none
    else
      match r.kind with
      | .look =>
        let q := s.lookup true r.entry r.record r.launch r.tile
        some (q.2.setReq k { r with reply := some q.1 })
      | .park =>
        let q := s.lookup false r.entry r.record r.launch r.tile
        some (q.2.setReq k { r with reply := some q.1 })
      | .unpin =>
        let q := s.unpin r.entry r.launch
        some (q.2.setReq k { r with reply := some (q.1, r.record) })
  | none => none

/-- EXPERT_REQUEST (R185). -/
def execExpertRequest (s : State) : Host.Outcome State Fault Refusal := event State.expertRequest s

/-- A write whose hold keeps what the strand already waits with. -/
def holdAs (a : Await) (m : M Unit) : M Unit := fun s =>
  match m s with
  | .error (.wait _ k) => .error (.wait a k)
  | r => r

/-- The address of a record: own scratchpad, 16-byte aligned (R391). -/
def recordAddr (x : FmtE) : M Word := do
  let s ← get
  let a := s.gReg x.a.toNat + (BitVec.ofNat 20 (x.cb 19 0)).signExtend 64
  let _ ← ownAddr a 16 16
  pure a

/-- A request sent to the unit, its strand Blocked until the reply (R392). -/
def sendExpert (k : ExpertKind) (n : Nat) (r : BitVec 128) : M Unit := do
  let s ← get
  let id := s.fresh
  upd fun s =>
    let s := s.newId.2
    { s with expert := s.expert ++ [(id, { kind := k, entry := n, record := r, launch := s.me.launch, tile := s.myTile,
                                            isA := s.cur.isA, ctx := s.curX })] }
  waitM (.expert id none)

/-- The two words of a record stored by the strand in one step, once no hold stands. -/
def storeRecord (a : Word) (r : BitVec 128) : M Unit := do
  match ← place a 16 .write with
  | .key k _ => upd fun s => (s.store k 8 (r.toNat % 2 ^ 64) false).store (k + 8) 8 (r.toNat / 2 ^ 64) false
  | _ => pure ()

/-- `xlook` and `xpark` (R391, R392). -/
def lookBody (k : ExpertKind) (x : FmtE) : M Unit := do
  let s ← get
  match s.me.await with
  | .expert _ (some (res, r)) => do
    if res ≤ 1 then do
      let a ← recordAddr x
      holdAs s.me.await (storeRecord a r)
    else pure ()
    writeS x.d (w64 res)
  | .expert n none => waitM (.expert n none)
  | _ => do
    let a ← recordAddr x
    let ws ← readWords a 2
    let n := (s.gReg x.b.toNat).toNat
    if 16383 < n then writeS x.d 4 else sendExpert k n (BitVec.ofNat 128 (joinWords ws))

/-- `xlook` (R391). -/
def execXlook (x : FmtE) (s : State) : Host.Outcome State Fault Refusal := native (.xlook x) (lookBody .look x) s

/-- `xpark` (R391). -/
def execXpark (x : FmtE) (s : State) : Host.Outcome State Fault Refusal := native (.xpark x) (lookBody .park x) s

/-- `xrel` (R391, R392): performed after the strand's earlier accesses to the weights (R272). -/
def xrelBody (x : FmtE) : M Unit := do
  let s ← get
  match s.me.await with
  | .expert _ (some (res, _)) => writeS x.d (w64 res)
  | .expert n none => waitM (.expert n none)
  | _ => do
    let n := (s.gReg x.a.toNat).toNat
    if 16383 < n then writeS x.d 4
    else do
      earlierM
      sendExpert .unpin n 0

/-- `xrel` (R391). -/
def execXrel (x : FmtE) (s : State) : Host.Outcome State Fault Refusal := native (.xrel x) (xrelBody x) s

/-- ERT_AGEING (R181): every RESIDENT entry without a pin ages by 1. -/
def State.ertAgeing (s : State) : Option State :=
  if s.now < s.ertTick + 65536 then none
  else some { s with
    ertTick := s.ertTick + 65536
    ert := s.ert.map fun (e : Nat × Ert) =>
      (e.1, if ertState e.2 = 2 && ertPin e.2 = 0 then ertSet e.2 95 80 (min 65535 (ertAge e.2 + 1)) else e.2) }

/-- ERT_AGEING (R181). -/
def execErtAgeing (s : State) : Host.Outcome State Fault Refusal := event State.ertAgeing s

-- Commands of the firmware (R183)

/-- The fields that `CONFIG` takes from an image: in order with no reserved bit set, addresses aligned, a size (R183). -/
def imageOk (v : BitVec 512) : Bool :=
  fld v 511 365 = 0 && fld v 319 312 = 0 && fld v 255 248 = 0 && fld v 191 168 = 0 && fld v 127 112 = 0 && fld v 63 58 = 0 &&
    1 ≤ fld v 111 96 && fld v 311 256 % 65536 = 0 && fld v 247 192 % 65536 = 0

/-- An entry as `CONFIG` leaves it: the named fields of the image, every other one clear. -/
def ertConfig (v : BitVec 512) : Ert :=
  [(43, 24), (57, 44), (111, 96), (247, 192), (311, 256), (2, 2), (3, 3), (334, 320), (349, 335), (364, 350)].foldl
    (fun e p => ertSet e p.1 p.2 (fld v p.1 p.2)) 0

/-- The status of a command left for `XSTAT` (R183). -/
def State.xstat (s : State) (fc st : Nat) : State := s.setFw fc { s.fw fc with xstat := st }

/-- A command that takes the 64-byte image which `XARG` addresses (R183), status 3 where that cannot be read or is not in order; false while the image
has to be waited for. -/
def State.withImage (s : State) (fc : Nat) (f : State → BitVec 512 → State) : Bool × State :=
  match s.fcRecord fc (s.fw fc).xarg 64 with
  | (.later, s) => (false, s)
  | (.bad, s) => (true, s.xstat fc 3)
  | (.ok v, s) => (true, if imageOk (BitVec.ofNat 512 v) then (f s (BitVec.ofNat 512 v)).xstat fc 0 else s.xstat fc 3)

/-- XCMD `CONFIG` on entry `n` (R183); false while it waits for its image. -/
def State.xConfig (s : State) (fc n : Nat) : Bool × State :=
  let e := s.entry n
  if ertState e ≠ 0 || ertLv e then (true, s.xstat fc 1)
  else if ertPin e ≠ 0 then (true, s.xstat fc 2)
  else s.withImage fc fun s v => s.setEntry n (ertConfig v)

/-- XCMD `FILL` (R182, R183). -/
def State.xFill (s : State) (fc n : Nat) : State :=
  let e := s.entry n
  if ertState e ≠ 0 then s.xstat fc 1
  else if ertPin e ≠ 0 then s.xstat fc 2
  else ((s.setEntry n (ertSet e 5 5 0)).startMove n false).xstat fc 0

/-- XCMD `EVICT` (R182, R183). -/
def State.xEvict (s : State) (fc n : Nat) : State :=
  let e := s.entry n
  if ertState e ≠ 2 then s.xstat fc 1
  else if ertPin e ≠ 0 then s.xstat fc 2
  else (if ertWb e then s.startMove n true else s.setEntry n (ertSet e 1 0 0)).xstat fc 0

/-- XCMD `FLUSH` (R183, R187). -/
def State.xFlush (s : State) (fc n : Nat) : State :=
  if ertState (s.entry n) = 1 then s.xstat fc 1 else (s.flushLayby n).xstat fc 0

/-- XCMD `SETREP` (R183, R196); false while it waits for its image. -/
def State.xSetrep (s : State) (fc n : Nat) : Bool × State :=
  s.withImage fc fun s v => s.setEntry n (ertSet (s.entry n) 364 320 (fld v 364 320))

/-- XCMD `SETWB` (R183). -/
def State.xSetwb (s : State) (fc n : Nat) : State :=
  let e := s.entry n
  if ertState e ≠ 2 then s.xstat fc 1 else (s.setEntry n (ertSet e 3 3 (bits (s.fw fc).xarg 0 0))).xstat fc 0

/-- XCMD `CLRPIN` (R183): a release that waits for pins resumes (R187). (DEDUCED, assumption 44) -/
def State.xClrpin (s : State) (fc n : Nat) : State :=
  let e := s.entry n
  let s := s.setEntry n (ertSet (ertSet e 79 64 0) 7 7 0)
  (if ertUsable e && ertPin e ≠ 0 then s.releaseLayby n else s).xstat fc 0

/-- A write of `XCMD` by a firmware core (R183); false while it waits. -/
def State.xcmd (s : State) (fc : Nat) (v : Word) : Bool × State :=
  let n := bits v 17 4
  match bits v 3 0 with
  | 1 => s.xConfig fc n
  | 2 => (true, s.xFill fc n)
  | 3 => (true, s.xEvict fc n)
  | 4 => (true, s.xFlush fc n)
  | 5 => s.xSetrep fc n
  | 6 => (true, s.xSetwb fc n)
  | 7 => (true, s.xClrpin fc n)
  | _ => (true, s.xstat fc 5)

/-- One command as an event: firmware core `n`, the entry in bits [17:4] of `v`. -/
def xEvent (f : State → Nat → Nat → State) (s : State) : Host.Outcome State Fault Refusal :=
  event (fun s => if s.inp.n < 16 then some (f s s.inp.n (bits s.inp.v 17 4)) else none) s

/-- CONFIG (R183). -/
def execConfig (s : State) : Host.Outcome State Fault Refusal := xEvent (fun s fc n => (s.xConfig fc n).2) s
/-- FILL (R182). -/
def execFill (s : State) : Host.Outcome State Fault Refusal := xEvent State.xFill s
/-- EVICT (R182). -/
def execEvict (s : State) : Host.Outcome State Fault Refusal := xEvent State.xEvict s
/-- FLUSH (R187). -/
def execFlush (s : State) : Host.Outcome State Fault Refusal := xEvent State.xFlush s
/-- SETREP (R196). -/
def execSetrep (s : State) : Host.Outcome State Fault Refusal := xEvent (fun s fc n => (s.xSetrep fc n).2) s
/-- SETWB (R183). -/
def execSetwb (s : State) : Host.Outcome State Fault Refusal := xEvent State.xSetwb s
/-- CLRPIN (R183). -/
def execClrpin (s : State) : Host.Outcome State Fault Refusal := xEvent State.xClrpin s

-- Deques

/-- Entries of a deque (R192). -/
def dequeSize : Nat := 128

/-- Deque entries reserved for listed laybys (R187). -/
def Tile.dqReserved (tl : Tile) : Nat := (tl.dqList.filter fun e => e.reservedUntil.isSome).length

/-- Deque entries that nothing has taken (R187, R193). -/
def Tile.dqFree (tl : Tile) : Nat := dequeSize - tl.deque.length - tl.stealRes - tl.dqReserved

/-- Deque entries that a push or a steal without a reservation may take: those that are not due to a listed layby, one whose reservation has run out since
the last entry freed being due none (R187). -/
def Tile.dqOpen (tl : Tile) : Nat := tl.dqFree - (tl.dqList.filter fun e => e.reservedUntil.isNone && !e.lapsed).length

/-- Whether a push that no reservation backs finds an entry (R187). -/
def Tile.dqRoom (tl : Tile) : Bool := 0 < tl.dqOpen

/-- Deque entries have freed: they are due to the listed laybys (R187). -/
def Tile.dqFreed (tl : Tile) : Tile := { tl with dqList := tl.dqList.map fun e => { e with lapsed := false } }

/-- The first released record of a layby for a tile, and the records without it. -/
def takeRecord (t : Nat) : List Parked → Option (Parked × List Parked)
  | [] => none
  | p :: r =>
    if p.tile = t then (if p.released then some (p, r) else none)
    else
      match takeRecord t r with
      | some (q, k) => some (q, p :: k)
      | none => none

/-- A layby's oldest record for tile `t` is pushed at the bottom of its deque (R187), or refused: the layby is then listed, or waits 2,048
cycles when the list is full. -/
def State.deliver (s : State) (j t : Nat) (retry : Bool) : Option State :=
  let l := s.layby j
  let tl := s.tile t
  match takeRecord t l.recs with
  | none => none
  | some (p, rest) =>
    let st := (s.launch p.launch).st
    let listed := tl.dqList.find? fun e => e.msg = j
    let own := match listed with
      | some e => e.reservedUntil.isSome
      | none => false
    if st ≠ .running && st ≠ .draining then none
    else if listed.isSome && !own then none
    else if (Tbl.find l.retryAt t).isSome && !retry then none
    else if own || tl.dqRoom then
      let s := s.setTile t { tl with deque := tl.deque ++ [p.record], dqList := tl.dqList.filter fun e => e.msg ≠ j }
      some ((s.setLayby j { l with recs := rest, retryAt := Tbl.del l.retryAt t }).freeLaybys)
    else if tl.dqList.length < 16 then
      some ((s.setTile t { tl with dqList := tl.dqList ++ [{ msg := j, reservedUntil := none }] }).setLayby j
        { l with retryAt := Tbl.del l.retryAt t })
    else some (s.setLayby j { l with retryAt := Tbl.put l.retryAt t s.now })

/-- LAYBY_DELIVERY (R187) of layby `n` to tile `m`. -/
def execLaybyDelivery (s : State) : Host.Outcome State Fault Refusal := event (fun s => s.deliver s.inp.n s.inp.m false) s

/-- LAYBY_RETRY (R187) of layby `n` at tile `m`, 2,048 cycles after a refusal that found the list full. -/
def State.laybyRetry (s : State) : Option State :=
  match Tbl.find (s.layby s.inp.n).retryAt s.inp.m with
  | some t => if t + 2048 ≤ s.now then s.deliver s.inp.n s.inp.m true else none
  | none => none

/-- LAYBY_RETRY (R187). -/
def execLaybyRetry (s : State) : Host.Outcome State Fault Refusal := event State.laybyRetry s

/-- The first entry of a list without a notice gets one until a cycle. -/
def notice (until_ : Nat) (ok : Listed → Bool) : List Listed → List Listed
  | [] => []
  | e :: r => if e.reservedUntil.isNone && ok e then { e with reservedUntil := some until_ } :: r else e :: notice until_ ok r

/-- DEQUE_SPACE_NOTICE (R187) on tile `n`: a free deque entry is reserved for the oldest listed layby for 512 cycles. -/
def State.dequeNotice (s : State) : Option State :=
  let t := s.inp.n
  let tl := s.tile t
  if tl.dqFree = 0 || !(tl.dqList.any fun e => e.reservedUntil.isNone) then none
  else some (s.setTile t { tl with dqList := notice (s.now + 512) (fun _ => true) tl.dqList })

/-- DEQUE_SPACE_NOTICE (R187). -/
def execDequeSpaceNotice (s : State) : Host.Outcome State Fault Refusal := event State.dequeNotice s

/-- Whether a reservation has run out. -/
def Listed.expired (e : Listed) (now : Nat) : Bool :=
  match e.reservedUntil with
  | some t => t ≤ now
  | none => false

/-- Entries whose reservation has run out go to the tail of the list, and what they held is free again (R166, R187). -/
def expire (now : Nat) (l : List Listed) : List Listed :=
  (l.filter fun e => !e.expired now) ++ (l.filter fun e => e.expired now).map fun e => { e with reservedUntil := none, lapsed := true }

/-- DEQUE_RESERVATION_EXPIRY (R187) on tile `n`. -/
def State.dequeExpiry (s : State) : Option State :=
  let tl := s.tile s.inp.n
  if tl.dqList.any fun e => e.expired s.now then some (s.setTile s.inp.n { tl with dqList := expire s.now tl.dqList }) else none

/-- DEQUE_RESERVATION_EXPIRY (R187). -/
def execDequeReservationExpiry (s : State) : Host.Outcome State Fault Refusal := event State.dequeExpiry s

/-- `dqpush` (R393): it never blocks. -/
def dqpushBody (x : FmtE) : M Unit := do
  let a ← recordAddr x
  let ws ← readWords a 2
  let s ← get
  let tl := s.tile s.myTile
  if tl.dqRoom then do
    upd fun s => s.setTile s.myTile { tl with deque := tl.deque ++ [BitVec.ofNat 128 (joinWords ws)] }
    writeS x.d 1
  else writeS x.d 0

/-- `dqpush` (R393). -/
def execDqpush (x : FmtE) (s : State) : Host.Outcome State Fault Refusal := native (.dqpush x) (dqpushBody x) s

/-- The neighbour of a tile in direction east, north, west, south that lies in the launch rectangle (R193). -/
def neighbour (l : Launch) (t d : Nat) : Option Nat :=
  let x := tileX t
  let y := tileY t
  let n := match d % 4 with
    | 0 => if x = 63 then none else some (tileAt (x + 1) y)
    | 1 => if y = 63 then none else some (tileAt x (y + 1))
    | 2 => if x = 0 then none else some (tileAt (x - 1) y)
    | _ => if y = 0 then none else some (tileAt x (y - 1))
  match n with
  | some v => if l.covers v then some v else none
  | none => none

/-- The next steal request of a round that has tried `i` directions from `d` (R193): how many it has tried with this one, 4 at the round's
end. -/
def State.sendSteal (s : State) (t key : Nat) (l : Launch) (d : Nat) : Nat → Nat → Nat × State
  | _, 0 => (4, s)
  | i, fuel + 1 =>
    match neighbour l t (d + i) with
    | none => s.sendSteal t key l d (i + 1) fuel
    | some v =>
      let tl := s.tile t
      let r := min 64 tl.dqOpen
      let (k, s) := (s.setTile t { tl with stealRes := tl.stealRes + r }).newId
      (i, { s with steals := Tbl.put s.steals k { thief := t, victim := v, ctx := key, r := r, dir := d } })

/-- How many directions a steal round has tried that a strand waits in; 4 when it has none under way. -/
def Await.stealing (a : Await) : Nat :=
  match a with
  | .steal n => n
  | _ => 4

/-- `dqpop` (R393): the bottom record, after a steal round when the deque is empty and stealing is enabled (R193). A round that is over
leaves the strand waiting for `.steal 4` only while a hold stands on its record. -/
def dqpopBody (x : FmtE) : M Unit := do
  let s ← get
  let n := s.me.await.stealing
  if n < 4 then waitM (.steal n)
  else do
    let a ← recordAddr x
    let t := s.myTile
    let tl := s.tile t
    match tl.deque.getLast? with
    | some r => do
      holdAs (if s.me.await = .steal 4 then .steal 4 else .hold) (storeRecord a r)
      upd fun s => s.setTile t { (s.tile t).dqFreed with deque := tl.deque.dropLast }
      writeS x.d 1
    | none =>
      if s.me.await ≠ .steal 4 && tl.dqcfg = 1 && x.cb 20 20 = 0 then do
        let d := (tl.stealDir + 1) % 4
        let n ← run fun s => (s.setTile t { tl with stealDir := d }).sendSteal t s.myKey s.myLaunch d 0 4
        if n < 4 then waitM (.steal n) else writeS x.d 0
      else writeS x.d 0

/-- `dqpop` (R393). -/
def execDqpop (x : FmtE) (s : State) : Host.Outcome State Fault Refusal := native (.dqpop x) (dqpopBody x) s

/-- STEAL_REQUEST (R193): request `n` reaches its victim, which yields the top half of its records up to r in one step. -/
def State.stealRequest (s : State) : Option State :=
  match Tbl.find s.steals s.inp.n with
  | none => none
  | some v =>
    if v.reply.isSome then none
    else
      let tl := s.tile v.victim
      let k := min ((tl.deque.length + 1) / 2) v.r
      let s := s.setTile v.victim (if k = 0 then tl else { tl.dqFreed with deque := tl.deque.drop k })
      some { s with steals := Tbl.put s.steals s.inp.n { v with reply := some (tl.deque.take k) } }

/-- STEAL_REQUEST (R193). -/
def execStealRequest (s : State) : Host.Outcome State Fault Refusal := event State.stealRequest s

end Sys2Proof.Machine
end

