-- ==== Sys2Proof/Machine/Collective.lean ====
section
/-! DEFINITION. Routing counters (R194, R195, R394) and collectives in the routers (R188, R189, R395 to R398). -/

namespace Sys2Proof.Machine

-- Counters

/-- An element added into its bin (R194): integer, or FP32 in the low half. -/
def binAdd (float : Bool) (bin v : Word) : Word :=
  if float then
    putBits bin 0 32 ((addF32 .rne (bin.setWidth 32) (v.setWidth 32) {}).1.setWidth 64)
  else bin + v

/-- SENDK_ARRIVAL (R194, R339): element `n` reaches its tile; a range of bins outside the partition discards it with the ERROR event
of R99. A bin under a watermark makes it wait, as any store. A copied bin of a snapshot is written to its word, which becomes full (R199), after an earlier
copy for that word. (DEDUCED, assumption 73) -/
def State.sendkArrival (s : State) : Option State :=
  match Tbl.find s.elems s.inp.n with
  | none => none
  | some e =>
    let gone (s : State) : State := { s with elems := Tbl.del s.elems s.inp.n }
    let t := e.toTile
    let off := e.base + 8 * (e.key.toNat % e.nb)
    if s.spadBytes t < e.base + 8 * e.nb then some ((gone s).remoteError t e.base e.fromTile)
    else if s.heldSpad t off 8 none then none
    else if e.snap then
      if s.elems.any fun o => o.1 < s.inp.n && o.2.snap && o.2.toTile = t && o.2.base = e.base then none
      else some (gone (s.storeWord (poolKey t off) 8 e.val.toNat e.poison))
    else
      let ((b, p), s) := s.load (poolKey t off) 8
      some (gone (s.storeWord (poolKey t off) 8 (binAdd e.float (w64 b) e.val).toNat (p || e.poison)))

/-- SENDK_ARRIVAL (R194). -/
def execSendkArrival (s : State) : Host.Outcome State Fault Refusal := event State.sendkArrival s

/-- The words of a tile's scratchpad set empty. -/
def State.emptied (s : State) (t off n : Nat) : State :=
  (List.range n).foldl (fun s i => s.setEmpty (poolKey t off / 8 + i) true) s

/-- The copied bins of a snapshot on their way to the words of a range. -/
def State.snapGo (s : State) (t off : Nat) : List (Word × Bool) → State
  | [] => s
  | w :: r =>
    let (k, s) := s.newId
    ({ s with elems := Tbl.put s.elems k { launch := s.me.launch, fromTile := t, toTile := t, base := off, nb := 1, val := w.1, poison := w.2,
                                           snap := true } }).snapGo t (off + 8) r

/-- `ctrsnap` (R195, R394): reads the bins and clears them in one step, and sets the destination words empty; each becomes full as the copy of its bin is
written (R199). -/
def ctrsnapBody (x : FmtE) : M Unit := do
  let s ← get
  let t := s.myTile
  let n := (s.gReg x.b.toNat).toNat
  let d ← ownAddr (s.gReg x.d.toNat) (max 1 (8 * n)) 8
  let a ← ownAddr (s.gReg x.a.toNat) (max 1 (8 * n)) 8
  need (1 ≤ n && n ≤ 4096) tcEngerr 1
  need (d + 8 * n ≤ a || a + 8 * n ≤ d) tcEngerr 1
  if s.heldSpad t a (8 * n) none then waitM .hold else pure ()
  releaseM
  upd fun s =>
    let q := s.rowWords t a (8 * n)
    ((q.2.putWords t a (List.replicate n (0, false))).emptied t d n).snapGo t d q.1

/-- `ctrsnap` (R394). -/
def execCtrsnap (x : FmtE) (s : State) : Host.Outcome State Fault Refusal := native (.ctrsnap x) (ctrsnapBody x) s

-- Rounds

/-- The rounds that a tile has joined, for any of its launches, and that have not completed (R395). (DEDUCED, assumption 36) -/
def State.openRounds (s : State) (t : Nat) : List Nat :=
  (s.colls.filter fun e => e.2.tiles.contains t &&
    e.2.parts.any fun p => e.2.tiles[p.rank]? = some t).map Prod.fst

/-- When a tile has joined a round. -/
def State.joinedAt (s : State) (t n : Nat) : Nat :=
  match Tbl.find s.colls n with
  | some r => ((r.parts.find? fun p => r.tiles[p.rank]? = some t).map Part.since).getD 0
  | none => 0

/-- A ninth collective waits until the oldest round completes, the one that the tile joined first (R395). -/
def roundRoom : M Unit := do
  let s ← get
  let l := s.openRounds s.myTile
  if 8 ≤ l.length then waitM (.collective (2 * (minBy (s.joinedAt s.myTile) l).getD 0)) else pure ()

/-- What the members of a round must agree on. (DEDUCED, assumption 36) -/
def Round.same (r : Round) (k : CollKind) (ctl : Word) (cmd : Nat) (tiles : List Nat) : Bool :=
  r.kind = k && r.ctl = ctl && r.cmd = cmd && r.tiles = tiles

/-- Whether a tile has joined a round. -/
def Round.joined (r : Round) (t : Nat) : Bool := r.parts.any fun p => r.tiles[p.rank]? = some t

/-- The executing tile joins the next round of its subgroup with its part (R395): the number of the round, or none when the members
disagree. (DEDUCED, assumption 36) -/
def State.joinRound (s : State) (k : CollKind) (ctl : Word) (cmd : Nat) (g : Subgroup) (p : Part) : Option Nat × State :=
  let u := s.me.launch
  let t := s.myTile
  let m := s.myOt.rounds
  let mine := s.colls.find? fun e => e.2.launch = u && e.2.index = m && e.2.same k ctl cmd g.tiles
  let other := s.colls.any fun e => e.2.launch = u && e.2.index = m && !e.2.same k ctl cmd g.tiles && e.2.tiles.contains t
  let missed := g.tiles.any fun x => x ≠ t && (s.ot u x).rounds > m && (match mine with
    | some e => !e.2.joined x
    | none => true)
  let (now, s) := (s.setMyOt { s.myOt with rounds := m + 1 }).newId
  let p := { p with since := now }
  if other || missed then (none, s)
  else
    match mine with
    | some (n, r) => (some n, { s with colls := Tbl.put s.colls n { r with parts := r.parts ++ [p] } })
    | none =>
      (some now, { s with colls := Tbl.put s.colls now { kind := k, launch := u, ctl := ctl, cmd := cmd, index := m, tiles := g.tiles,
                                                         parts := [p] } })

/-- Members that disagree fault the launch with an ERROR event of class 8 (R395, R313, R81). -/
def State.disagree (s : State) (g : Subgroup) : State :=
  let id := s.myLaunch.id
  (s.discardLaunch s.me.launch 4).raiseError 8 (w64 (g.tileOf 0)) (id.setWidth 64)

/-- Joins a round; a disagreement ends the instruction with the launch. -/
def join (k : CollKind) (ctl : Word) (cmd : Nat) (g : Subgroup) (p : Part) : M Nat := do
  match ← run fun s => s.joinRound k ctl cmd g p with
  | some n => pure n
  | none => do
    upd fun s => s.disagree g
    doneM

/-- The subgroup of a control word whose bits from `hi` on are reserved. -/
def subgroupM (i : Instr) (code : Nat) (ok : Bool) : M Subgroup := do
  let s ← get
  match subgroupOf s.myLaunch s.myTile code with
  | some g => if ok then pure g else trapM tcIllop (encode i)
  | none => trapM tcIllop (encode i)

/-- A result offset (R396): the range of `n` bytes in the own scratchpad, 8-byte aligned. -/
def resultOff (d : Word) (n : Nat) : M Nat := do
  let s ← get
  need (bits d 63 20 = 0 && bits d 19 0 + n ≤ s.spadBytes s.myTile) tcAperture d
  need (bits d 2 0 = 0) tcMisalign d
  pure (bits d 19 0)

/-- Words of the executing tile set empty. -/
def emptyWords (off n : Nat) : M Unit := upd fun s => s.emptied s.myTile off n

/-- `kmerge` (R396). -/
def kmergeBody (x : FmtE) : M Unit := do
  releaseM
  roundRoom
  let s ← get
  let c := s.gReg x.c.toNat
  let g ← subgroupM (.kmerge x) (bits c 5 0) (bits c 63 11 = 0 && bits c 7 6 = 0)
  let k := bits c 10 8 + 1
  let a := s.gReg x.a.toNat
  let _ ← ownAddr a 64 8
  let first := g.rank s.myTile = 0
  let off ← if first then resultOff (s.gReg x.d.toNat) (8 * k) else pure 0
  let ws ← (List.range 8).mapM fun i => readM (a + w64 (8 * i)) 8
  if first then emptyWords off k else pure ()
  let bad := leastBelow (fun i => (ws.getD i (0, false)).2) 8
  let _ ← join .kmerge c 0 g { rank := g.rank s.myTile, off := off,
                               words := if bad.isSome then [] else ws.map fun w => (w64 w.1, false) }
  match bad with
  | some i => trapKeep tcPoison (a + w64 (8 * i))
  | none => pure ()

/-- `kmerge` (R396). -/
def execKmerge (x : FmtE) (s : State) : Host.Outcome State Fault Refusal := native (.kmerge x) (kmergeBody x) s

/-- The identity that an inactive lane contributes (R397, R353). -/
def rredId (cmd : Nat) : BitVec 32 :=
  let dt := BitVec.ofNat 5 (cmd / 8)
  if cmd % 4 = 0 then sumId dt else if cmd % 4 = 1 then maxId dt else minId dt

/-- `rred` (R397). -/
def rredBody (x : FmtE) : M Unit := strmCmd (.rred x) do
  releaseM
  roundRoom
  let s ← get
  let c := s.gReg x.c.toNat
  let g ← subgroupM (.rred x) (bits c 5 0) (bits c 63 6 = 0)
  let recv := g.rank s.myTile = 0 || x.cb 2 2 = 1
  let off ← if recv then resultOff (s.gReg x.d.toNat) 256 else pure 0
  let v ← readV x.a
  let act := s.activeLanes x.pk x.pn
  if recv then emptyWords off 32 else pure ()
  let ws := (List.range 64).map fun l =>
    if act.getLsbD l then ((v.at l).setWidth 64, v.bad l) else ((rredId x.cmd.toNat).setWidth 64, false)
  let _ ← join .rred c x.cmd.toNat g { rank := g.rank s.myTile, off := off, words := ws }
  pure ()

/-- `rred` (R397). -/
def execRred (x : FmtE) (s : State) : Host.Outcome State Fault Refusal := native (.rred x) (rredBody x) s

/-- `gbar` (R398): an odd number is the round that the strand has joined. -/
def gbarBody (x : FmtE) : M Unit := do
  let s ← get
  match s.me.await with
  | .collective n =>
    if n % 2 = 1 then (if (Tbl.find s.colls (n / 2)).isSome then waitM (.collective n) else pure ())
    else enter
  | _ => enter
where
  /-- the round is joined, and its completion awaited -/
  enter : M Unit := do
    releaseM
    roundRoom
    let s ← get
    let c := s.gReg x.c.toNat
    let g ← subgroupM (.gbar x) (bits c 5 0) (bits c 63 6 = 0)
    let n ← join .gbar c 0 g { rank := g.rank s.myTile, words := [], off := 0 }
    waitM (.collective (2 * n + 1))

/-- `gbar` (R398). -/
def execGbar (x : FmtE) (s : State) : Host.Outcome State Fault Refusal := native (.gbar x) (gbarBody x) s

-- Results

/-- The order of gate entries (R188): whether `a` comes before `b`. -/
def gateBefore (a b : Word) : Bool :=
  if bit a 31 ≠ bit b 31 then bit a 31
  else
    let x := fp32.decode (bits a 63 32)
    let y := fp32.decode (bits b 63 32)
    let nan (v : Ex) : Bool := v = .nan
    if nan x && nan y then bits a 13 0 < bits b 13 0
    else if nan x || nan y then nan y
    else
      match x.cmp y with
      | some .gt => true
      | some .lt => false
      | _ => bits a 13 0 < bits b 13 0

/-- An entry put into an ordered list. -/
def gateInsert (a : Word) : List Word → List Word
  | [] => [a]
  | b :: r => if gateBefore a b then a :: b :: r else b :: gateInsert a r

/-- The first entry of each expert id of an ordered list, but for the ids already kept. -/
def gateDedup (seen : List Nat) : List Word → List Word
  | [] => []
  | a :: r => if seen.contains (bits a 13 0) then gateDedup seen r else a :: gateDedup (bits a 13 0 :: seen) r

/-- The merge of R189: `k` entries in order, padded with invalid ones. -/
def gateMerge (k : Nat) (es : List Word) : List Word :=
  let l := (gateDedup [] ((es.filter fun e => bit e 31).foldl (fun l e => gateInsert e l) [])).take k
  l ++ List.replicate (k - l.length) 0

/-- The combinations that routers make of the contributions of a round, in any tree (R395): each step names the places of the two that it combines,
whose result stands at the end. -/
def treeSteps {α : Type} (f : α → α → α) : List Word → List α → List α
  | [], xs => xs
  | w :: r, xs =>
    let i := bits w 15 0
    let j := bits w 31 16
    match xs[i]?, xs[j]? with
    | some a, some b => if i = j then treeSteps f r xs else treeSteps f r ((xs.eraseIdx (max i j)).eraseIdx (min i j) ++ [f a b])
    | _, _ => treeSteps f r xs

/-- One lane of a reduction over the parts, combined by steps, and what is left from the first to the last (R397). (DEDUCED, assumption 35) -/
def rredLane (cmd : Nat) (steps : List Word) (ps : List Part) (l : Nat) : BitVec 32 × Bool :=
  let dt := BitVec.ofNat 5 (cmd / 8)
  let xs := ps.map fun p => p.words.getD l (0, false)
  let bad := xs.any fun x => x.2
  let f (a b : BitVec 32) : BitVec 32 :=
    if cmd % 4 = 0 then (laneSum dt .rne a b {}).1 else (lanePick dt (cmd % 4 = 1) .rne a b {}).1
  match treeSteps f steps (xs.map fun x => x.1.setWidth 32) with
  | [] => (0, bad)
  | v :: r => (if bad then 0 else r.foldl f v, bad)

/-- A result written at a member: its words full, in ascending order. -/
def State.putResult (s : State) (r : Round) (p : Part) (ws : List (Word × Bool)) : State :=
  match r.tiles[p.rank]? with
  | some t => s.putWords t p.off ws
  | none => s

/-- Whether a copy still holds a word of the result of `n` bytes at one of these members (R137). -/
def State.resultHeld (s : State) (r : Round) (ps : List Part) (n : Nat) : Bool :=
  ps.any fun p => match r.tiles[p.rank]? with
    | some t => s.heldSpad t p.off n none
    | none => false

/-- COLLECTIVE_RESULT (R395) of round `n`, every tile of the subgroup having joined; `data` is the tree in which the routers combine the
members of an FP32 sum (R261, R395). A result waits for the copies that still hold its words (R137). (DEDUCED, assumption 35) -/
def State.collectiveResult (s : State) : Option State :=
  match Tbl.find s.colls s.inp.n with
  | none => none
  | some r =>
    if r.parts.length ≠ r.tiles.length then none
    else
      let ps := r.parts
      let gone (s : State) : State := { s with colls := Tbl.del s.colls s.inp.n }
      match r.kind with
      | .gbar => some (gone s)
      | .kmerge =>
        let k := bits r.ctl 10 8 + 1
        let ws := (gateMerge k (ps.flatMap fun p => p.words.map Prod.fst)).map fun w => (w, false)
        let recv := ps.filter fun p => p.rank = 0
        if s.resultHeld r recv (8 * k) then none else some (recv.foldl (fun s p => s.putResult r p ws) (gone s))
      | .rred =>
        let lane := rredLane r.cmd s.inp.data ps
        let ws := (List.range 32).map fun i =>
          (w64 ((lane (2 * i)).1.toNat + 2 ^ 32 * (lane (2 * i + 1)).1.toNat), (lane (2 * i)).2 || (lane (2 * i + 1)).2)
        let recv := ps.filter fun p => r.cmd / 4 % 2 = 1 || p.rank = 0
        if s.resultHeld r recv 256 then none else some (recv.foldl (fun s p => s.putResult r p ws) (gone s))

/-- COLLECTIVE_RESULT (R395). -/
def execCollectiveResult (s : State) : Host.Outcome State Fault Refusal := event State.collectiveResult s

end Sys2Proof.Machine
end

