-- ==== Sys2Proof/Machine/Launch.lean ====
section
/-! DEFINITION. Launches from the device (R399 to R401), what starting one needs (R48, R68, R156, R168), its completion and retirement (R170,
R171, R216), retention, and drains and resumptions (R172 to R176). -/

namespace Sys2Proof.Machine

-- The launch instruction

/-- Launches that a tile has issued and that have not retired (R400). -/
def State.tileIssued (s : State) (t : Nat) : Nat :=
  (s.launches.filter fun e => match e.2.origin with
    | .tile k _ _ _ => k = t
    | _ => false).length

/-- The first count at or after `c` whose id names no live launch of the PASID, and that id (R400). -/
def State.nextTileId (s : State) (t pasid : Nat) : Nat → Nat → Nat × Nat
  | c, 0 => (c, 0x40000000 + t * 2 ^ 18 + c % 2 ^ 18)
  | c, fuel + 1 =>
    let id := 0x40000000 + t * 2 ^ 18 + c % 2 ^ 18
    if (s.liveLaunch pasid id).isSome then s.nextTileId t pasid (c + 1) fuel else (c, id)

/-- The queue at whose priority a launch of this origin's launches compete (R400): the packet's, an earlier issuer's, or the place of a
launch port, written as 4,096 + 4 × core + priority. -/
def Origin.queue : Origin → Option Nat
  | .packet q _ => some q
  | .port c _ _ _ _ p => some (4096 + 4 * c + p)
  | .tile _ _ q _ => q

/-- A rectangle within its ranges (R45). -/
def rectOk (x y w h : Nat) : Bool := 1 ≤ w && w ≤ 64 && 1 ≤ h && h ≤ 64 && x ≤ 63 && y ≤ 63 && x + w ≤ 64 && y + h ≤ 64

/-- The `DONE` word set empty, where the page keeps full/empty bits (R400). -/
def emptyDone (a : Word) : M Unit := do
  match ← place a 8 .write with
  | .key k _ => upd fun s => if hasFullBit k then s.setEmpty (k / 8) true else s
  | .bad => trapKeep tcPoison a
  | _ => pure ()

/-- `launch` (R399, R400). -/
def launchBody (x : FmtE) : M Unit := do
  releaseM
  let s ← get
  let a := s.gReg x.a.toNat
  need (a.toNat >>> 20 = 0xFF000000000 || a.toNat >>> 56 = 0) tcAperture a
  match s.window a 32 with
  | .error c => trapM c a
  | .ok _ => pure ()
  need (bits a 4 0 = 0) tcMisalign a
  let ws ← readWords a 4
  let v : BitVec 256 := BitVec.ofNat 256 (joinWords ws)
  let done := w64 (fld v 255 192)
  need (fld v 191 160 = 0 && rectOk (fld v 135 128) (fld v 143 136) (fld v 151 144) (fld v 159 152) && fld v 63 0 % 64 = 0 &&
    bits done 2 0 = 0 && bits done 63 56 = 0) tcEngerr 1
  let s ← get
  let t := s.myTile
  if 4 ≤ s.tileIssued t then waitM .launches
  else do
    if done = 0 then pure () else emptyDone done
    let s ← get
    let (c, id) := s.nextTileId t s.myPasid (s.tile t).launchCount (s.launches.length + 1)
    let u := s.fresh
    upd fun s =>
      let s := s.newId.2
      let l : Launch := { id := BitVec.ofNat 32 id, pasid := s.myPasid, x0 := fld v 135 128, y0 := fld v 143 136, w := fld v 151 144,
                          h := fld v 159 152, args := w64 (fld v 127 64), tmplAddr := w64 (fld v 63 0), st := .waiting,
                          origin := .tile t s.me.launch s.myLaunch.origin.queue done }
      (s.setTile t { s.tile t with launchCount := c + 1 }).setLaunch u l
    writeS x.d (w64 id)

/-- `launch` (R399). -/
def execLaunch (x : FmtE) (s : State) : Host.Outcome State Fault Refusal := native (.launch x) (launchBody x) s

-- What a start needs

/-- What reading a launch template gives. -/
inductive TmplRead where
  | later
  | bad
  | ok (t : BitVec 512)
  deriving DecidableEq, Repr

/-- The template that the launch units have cached for an address (R48). -/
def State.tmplCached (s : State) (pasid a : Nat) : Option (BitVec 512) :=
  (s.tmplCache.find? fun e => e.1 = pasid && e.2.1 = a).map fun e => e.2.2

/-- The launch unit reads a template (R158) for the work `who`, from its cache or from memory; the ticket is the one it waits on. A template that no loader
has checked is launched as its fields say. (DESIGN CHOICE, assumption 101) -/
def State.launchTmpl (s : State) (who pasid a : Nat) (failed : List Nat) : (TmplRead × Option Nat) × State :=
  match s.tmplCached pasid a with
  | some t => ((.ok t, none), s)
  | none =>
    if failed.contains (a / 65536) then ((.bad, none), s)
    else
      match s.agentWords who pasid a 8 with
      | (.ok (ws, p), s) =>
        let t : BitVec 512 := BitVec.ofNat 512 (joinWords ws)
        if p then ((.bad, none), s) else ((.ok t, none), { s with tmplCache := (pasid, a, t) :: s.tmplCache })
      | (.error t, s) => ((.later, t), s)

/-- Whether every tile of a rectangle is free for a launch with this producer and partition word (R156, R168). -/
def State.rectFree (s : State) (tiles : List Nat) (producer : Option Nat) (part : Option Nat) : Bool :=
  tiles.all fun t =>
    match (s.tile t).runs with
    | [] => true
    | [p] => producer = some p && part = some (tmplPart (s.launch p).tmpl)
    | _ => false

/-- Whether a rectangle is refused for leaving CD0 during reduced service (R30). -/
def State.leavesCd0 (s : State) (tiles : List Nat) : Bool := s.service = .reduced && tiles.any fun t => tileDie t ≠ 0

/-- Whether a load handle that is being released names a template (R75). -/
def State.unloading (s : State) (pasid a : Nat) : Bool :=
  s.handles.any fun h => h.unloading && h.pasid = pasid && h.templates.contains a

/-- Whether a load handle of the PASID holds a template (R401). -/
def State.holdsTmpl (s : State) (pasid a : Nat) : Bool := s.handles.any fun h => h.pasid = pasid && h.templates.contains a

/-- A launch that fails before it starts; its retirement follows. -/
def State.failLaunch (s : State) (u status : Nat) : State :=
  s.setLaunch u { s.launch u with st := .faulted, status := status, ticket := none }

-- Completion

/-- Whether a packet that has not launched names a template. -/
def State.windowNames (s : State) (pasid a : Nat) : Bool :=
  s.queues.any fun q => fld q.2.record 63 44 = pasid && q.2.win.any fun e =>
    !e.2.launched && e.2.status.isNone && fld e.2.pkt 7 0 = 1 && fld e.2.pkt 255 192 = a

/-- Handles whose release was asked for go once no launch names a template of theirs (R75). -/
def State.releaseHandles (s : State) : State :=
  { s with handles := s.handles.filter fun h => !h.unloading ||
      (s.launches.any fun e => e.2.pasid = h.pasid && h.templates.contains e.2.tmplAddr.toNat) ||
      h.templates.any fun a => s.windowNames h.pasid a }

/-- Launches that wait for a launch which has retired no longer do; one that retired with a failure fails them with 12 (R215). -/
def State.settleWaits (s : State) (u err : Nat) : State :=
  { s with launches := s.launches.map fun (e : Nat × Launch) =>
      match e.2.origin with
      | .port c a r p w k =>
        if w.contains u then
          let l := { e.2 with origin := .port c a r p (w.filter (· ≠ u)) k }
          (e.1, if err ≠ 0 && l.st = .waiting then { l with st := .faulted, status := 12 } else l)
        else e
      | _ => e }

/-- A launch leaves its tiles and the tables (R171); a dependent becomes an ordinary launch and its strands are placed (R168). -/
def State.removeLaunch (s : State) (u : Nat) : State :=
  let l := s.launch u
  let s := s.endWaits u
  let s := l.tilesOf.foldl (fun s t => s.leaveTile u t) s
  let s := { s with
    launches := Tbl.del s.launches u
    copies := s.copies.filter fun e => !e.2.ofLaunch u
    saved := Tbl.del s.saved u }
  let s := l.tilesOf.foldl (fun s t => (s.tile t).runs.foldl (fun s k => s.placeStrands k t) s) s
  (s.settleWaits u l.status).releaseHandles

/-- One descriptor's `PIN` drops (R209); an orphan without pins waits to enter the release queue. -/
def State.dropPin (s : State) (c : Nat) (d : Word) (k : Nat) : State :=
  let ((v, p), s) := s.load (k + 0) 8
  let w := putBits (w64 v) 0 32 (w64 v - 1)
  let s := s.storeWord k 8 w.toNat p
  if bits w 31 0 = 0 && bit w 32 && !p then s.setCc c { s.cc c with orphans := (s.cc c).orphans ++ [d] } else s

/-- The writes of a retirement (R216, R401): `PEND` with `ERR`, pins, the argument slot; or the completion word. A word on a page whose ticket has failed
or that counts as failed (R115) is left out. None while one does not translate. -/
def State.retireWrites (s : State) (u : Nat) : Option State × State :=
  let l := s.launch u
  let ok (a : Nat) : Bool := !l.failed.contains (a / 65536)
  match l.origin with
  | .packet q e => (some (s.notePacket q e l.status), s)
  | .port c slot r pins _ _ =>
    let pend := (r + 0x60).toNat
    let ps := pins.filter fun d => ok (d + 16).toNat
    match s.agentKeys (workOf (0x1040 + c) (u + 1)) l.pasid 8 .atomic ((if ok pend then [pend] else []) ++ ps.map fun d => (d + 16).toNat) with
    | (.ok ks, s) =>
      let s := match if ok pend then ks.headD none else none with
        | some k => s.store8 k (w64 (l.id.toNat <<< 32 ||| l.status))
        | none => s
      let s := (ps.zip (if ok pend then ks.tail else ks)).foldl (fun s (p : Word × Option Nat) => match p.2 with
        | some k => s.dropPin c p.1 k
        | none => s) s
      let s := s.setCc c { s.cc c with argSlots := (s.cc c).argSlots.erase slot }
      (some (s.flushOrphans c), s)
    | (.error t, s) => (none, s.setLaunch u { l with ticket := t })
  | .tile _ _ _ done =>
    if done = 0 || !ok done.toNat then (some s, s)
    else
      match s.agentStore (workOf 0x1100 (2 * u + 1)) l.pasid done.toNat 8 (l.id.toNat <<< 32 ||| l.status) with
      | (.later t, s) => (none, s.setLaunch u { l with ticket := t })
      | (_, s) => (some s, s)

/-- Whether a launch is done: all its work (R170), during the grace of a drain too (R174), or after a discard its copies and commands. -/
def State.launchOver (s : State) (u : Nat) : Bool :=
  match (s.launch u).st with
  | .running | .draining => s.halted u && s.quiet u
  | .faulted => !(s.copies.any fun e => e.2.ofLaunch u && e.2.st ≠ .ended && e.2.st ≠ .aborted)
  | _ => false

/-- Whether a dependent of a launch still runs on a tile they share (R174). -/
def State.hasDependent (s : State) (u : Nat) : Bool :=
  (s.launch u).tilesOf.any fun t => (s.tile t).runs.contains u && (s.tile t).runs.any fun v => s.isDependent v t && (s.launch v).producer = some u

/-- HBM frames of 64 KiB in the sixteen stacks (R11). -/
def hbmFrames : Nat := 16 * (79993765888 / 65536)

/-- Frames of the checkpoint region (R25, R33). -/
def State.ckptFrames (s : State) : Nat :=
  match s.cfgRecord with
  | some b => Config.imageCheckpointFrames b
  | none => Config.checkpointFrames

/-- The good checkpoint (R25). -/
def State.goodImage (s : State) : CkptImage := Tbl.get {} s.ckpt.images (if s.ckpt.good then 1 else 0)

/-- The clean pages with a tier copy below a node of page tables, in frames of 64 KiB of HBM with that of the copy (R25, R106, R107). -/
def State.backedGo (s : State) (node : Nat) : List (Nat × Nat × Nat) → List (Nat × Nat)
  | [] => []
  | (_, n, lvl) :: rest =>
    (List.range (2 ^ n)).flatMap fun i =>
      let e := s.wordAt (node / 8 + i)
      let c := s.wordAt (node / 8 + 2 ^ n + i)
      if s.isPoison (node / 8 + i) || !bit e 0 then []
      else if !bit e 11 then (if lvl = 0 then [] else s.backedGo (bits e 51 12 <<< 12) rest)
      else if lvl ≤ 1 && leafLoc e = 0 && !bit e 10 && bit e 8 && bit c 0 && !s.isPoison (node / 8 + 2 ^ n + i) then
        (List.range (if lvl = 1 then 512 else 1)).map fun j => (leafFrame e / 65536 + j, bits c 51 16 + j)
      else []

/-- HBM frames that are clean and backed by the tier, under the firmware's PASID and every enabled one (R25). -/
def State.backedFrames (s : State) : List (Nat × Nat) :=
  (0 :: s.pasids).flatMap fun p =>
    let e := s.wordAt (s.ptabBase.toNat / 8 + p)
    if bit e 0 && !s.isPoison (s.ptabBase.toNat / 8 + p) then s.backedGo (bits e 51 12 <<< 12) walkLevels else []

/-- Pages that a checkpoint writes (R25): all but those recorded by reference to a tier copy, and those that the good checkpoint holds in the region
and that have not been written since. -/
def State.ckptPages (s : State) (refs : List (Nat × Nat)) : Nat :=
  let isRef (f : Nat) : Bool := refs.any fun e => e.1 = f
  if s.ckpt.seq = 0 then hbmFrames - (refs.map Prod.fst).eraseDups.length
  else ((s.ckpt.written ++ s.goodImage.refs.map Prod.fst).eraseDups.filter fun f => !isRef f).length

/-- Frames of the region that the good checkpoint leaves free (R25). -/
def State.ckptRoom (s : State) : Nat :=
  s.ckptFrames - (if s.ckpt.seq = 0 then 0 else hbmFrames - (s.goodImage.refs.map Prod.fst).eraseDups.length)

/-- Bytes of a save area (R173). -/
def saveSize (l : Launch) : Nat := 0x10000 + l.w * l.h * 0x110000

/-- A save area that the firmware chooses for a launch: any one that is aligned and lies whole in a stack of HBM (R173). (DEDUCED, assumption 43) -/
def areaOf (l : Launch) (v : Word) : Word :=
  let n := 79993765888 / 65536 - saveSize l / 65536 + 1
  w64 (bits v 3 0 * 2 ^ 37 + bits v 63 4 % n * 65536)

/-- The drains of a checkpoint (R25): every running launch without a dependent drains into a save area of the firmware's own choosing; once none
runs, the write begins, or fails for want of frames. In reduced service, whose only global memory is the tier (R30), it waits. (DEDUCED, assumption 43) -/
def State.ckptDrain (s : State) : State :=
  if s.ckpt.status ≠ 1 || s.service = .reduced then s
  else
    let s := (s.launches.filter fun e => e.2.st = .running && !s.hasDependent e.1).foldl (fun s e =>
      let (a, s) := s.freeWord
      let s := { s with ckpt := { s.ckpt with drained := e.1 :: s.ckpt.drained } }
      s.setLaunch e.1 { s.launch e.1 with st := .draining, grace := s.us, drainFc := 16, save := areaOf (s.launch e.1) a }) s
    if s.launches.any fun e => e.2.st ≠ .waiting && e.2.st ≠ .saved then s
    else
      let refs := s.backedFrames
      { s with ckpt := { s.ckpt with backed := refs, status := if s.ckptRoom < s.ckptPages refs then 5 else 2 } }

/-- LAUNCH_COMPLETE (R170, R171, R216, R401) of launch `n`. -/
def State.launchComplete (s : State) : Option State :=
  let u := s.inp.n
  if (Tbl.find s.launches u).isNone || !s.launchOver u then none
  else
    match s.retireWrites u with
    | (some s, _) => some (s.removeLaunch u).ckptDrain
    | (none, s) => some s

/-- LAUNCH_COMPLETE (R170). -/
def execLaunchComplete (s : State) : Host.Outcome State Fault Refusal := event State.launchComplete s

/-- RETENTION_EXPIRY (R171) on tile `n`: 10 ms after its launch left, retained banks are cleared; where another launch holds the banks, only their
record goes. -/
def State.retentionExpiry (s : State) : Option State :=
  match (s.tile s.inp.n).retained with
  | some r =>
    if s.us < r.since + 10000 then none
    else if (s.tile s.inp.n).runs = [] then some (s.clearTile s.inp.n)
    else some (s.setTile s.inp.n { s.tile s.inp.n with retained := none })
  | none => none

/-- RETENTION_EXPIRY (R171). -/
def execRetentionExpiry (s : State) : Host.Outcome State Fault Refusal := event State.retentionExpiry s

-- Drains

/-- Whether a save area is aligned and lies whole in HBM that the module has (R173, R30). -/
def State.saveOk (s : State) (l : Launch) (a : Nat) : Bool :=
  s.service ≠ .reduced && a % 65536 = 0 && isHbm a && isHbm (a + saveSize l - 1) && a / 2 ^ 37 = (a + saveSize l - 1) / 2 ^ 37

/-- A firmware core's last drain, or its last resumption, has ended at once with a status (R172). -/
def State.drainAnswer (s : State) (fc st : Nat) : State := s.setFw fc { s.fw fc with drainOf := 0, drain := some st }
def State.resumeAnswer (s : State) (fc st : Nat) : State := s.setFw fc { s.fw fc with resumeOf := 0, resume := some st }

/-- A write of `DRAIN_REQ` (R172 to R174); false while it has to wait. A descriptor that cannot be read ends with status 3.
(DESIGN CHOICE, assumption 38) -/
def State.drainReq (s : State) (fc : Nat) (a : Word) : Bool × State :=
  match s.fcRecord fc a 32 with
  | (.later, s) => (false, s)
  | (.bad, s) => (true, s.drainAnswer fc 3)
  | (.ok d, s) =>
    let d : BitVec 256 := BitVec.ofNat 256 d
    match s.liveLaunch (fld d 63 44) (fld d 95 64) with
    | none => (true, s.drainAnswer fc 1)
    | some u =>
      let l := s.launch u
      match l.st with
      | .running =>
        if s.hasDependent u then (true, s.drainAnswer fc 2)
        else if !s.saveOk l (fld d 255 192) || 1000 < fld d 159 128 then (true, s.drainAnswer fc 3)
        else
          (true, (s.setLaunch u { l with st := .draining, grace := s.us + fld d 159 128, drainFc := fc, save := w64 (fld d 255 192) }).setFw fc
            { s.fw fc with drainOf := u, drain := none })
      | .waiting | .faulted => (true, s.drainAnswer fc 1)
      | _ => (true, s.drainAnswer fc 2)

/-- DRAIN_REQ (R172): value `v` written by firmware core `n`. -/
def execDrainReq (s : State) : Host.Outcome State Fault Refusal :=
  event (fun s => if s.inp.n < 16 then some (s.drainReq s.inp.n s.inp.v).2 else none) s

/-- What a saved context waits for (R174, R175): an access waits again from its start, a `bwait` with the cycles it has left. -/
def Await.saved (now : Nat) : Await → Await
  | .ticket _ => .hold
  | .barrier k (some d) => .barrier k (some (d - now))
  | a => a

/-- A context stops at an instruction boundary (R174): a running or Hopping one as Ready, with its PC at its `hop` and its message withdrawn;
its cycle count stands still (R176), and its count of a barrier's waiters is withdrawn (R334). -/
def State.stopCtx (s : State) (c : Core) (x : Nat) : State :=
  let k := ctxKey c x
  let v := s.ctx k
  let ready := v.st = .running || v.st = .hopping
  let s := s.dropMsgs fun m => m.kind = MsgKind.hop && m.srcCtx = k
  let s := match v.await with
    | .barrier b _ => s.changeBar b Bar.leave
    | _ => s
  let cs := s.core c
  let s : State := s.setCore c { cs with
    run := if cs.run = some x then none else cs.run
    halted := if cs.halted = some x then none else cs.halted
    runq := if ready then cs.runq ++ [{ ctx := x, level := v.prio, since := s.now }] else cs.runq }
  s.setCtx k { v with st := .saved, await := v.await.saved s.now, failed := [], cyc := v.cyc + (s.now - v.cycFrom), cycFrom := s.now }

/-- Whether a launch runs alone on a tile. -/
def State.alone (s : State) (u t : Nat) : Bool := (s.tile t).runs = [u]

/-- Whether a copy from outside lands in a scratchpad of a rectangle that goes with its launch: one that no launch running there started, where the
launch runs alone (R138). -/
def State.fromOutside (s : State) (u : Nat) (c : Copy) : Bool :=
  match c.slot with
  | some (t, _) =>
    (s.launch u).covers t && s.alone u t && !(match c.origin with
      | .tile v _ => (s.tile t).runs.contains v
      | _ => false)
  | none => false

/-- Whether a copy goes with the rectangle of a launch: one of its own on a tile engine, or one that lands in a scratchpad which goes with it. -/
def State.goesWith (s : State) (u : Nat) (c : Copy) : Bool := c.ofLaunch u || s.fromOutside u c

/-- A copy as a drain stops it (R135, R174): it keeps its watermark, and translates again when it goes on. -/
def Copy.stopped (c : Copy) : Copy :=
  match c.st with
  | .ended | .aborted => c
  | _ => { c with drained := true, ticket := none, st := if c.st = .running then .frozen else c.st }

/-- The copies that satisfy `p` stop. -/
def State.stopCopies (s : State) (p : Copy → Bool) : State :=
  { s with copies := s.copies.map fun (e : Nat × Copy) => (e.1, if p e.2 then e.2.stopped else e.2) }

/-- What the engines of a tile hold queued for a launch, taken from them (R174): with it the tile loads under way, whose rows are issued again, and a
command of the matrix engine other than a product. -/
def State.takeCmds (s : State) (u t : Nat) : SavedCmds × State :=
  let tl := s.tile t
  let mine (k : Nat) : Bool := (s.copy k).ofLaunch u
  let run : Option MatCmd := match tl.matRun with
    | some c => if c.launch = u && c.kind ≠ MatKind.mma then some c else none
    | none => none
  ({ t := t
     loadQ := (tl.loadQ.filter fun e => e.launch = u).map fun e => { e with issued := 0, ticket := none }
     matQ := (run.toList.map fun c => { c with begun := true, ticket := none }) ++ tl.matQ.filter fun e => e.launch = u
     vecQ := tl.vecQ.filter fun e => e.launch = u
     copyQ := tl.copyQ.filter mine },
   s.setTile t { tl with
     loadQ := tl.loadQ.filter fun e => e.launch ≠ u
     matQ := tl.matQ.filter fun e => e.launch ≠ u
     matRun := if run.isSome then none else tl.matRun
     vecQ := tl.vecQ.filter fun e => e.launch ≠ u
     copyQ := tl.copyQ.filter fun k => !mine k })

/-- The commands of a launch taken from the engines of several tiles. -/
def State.takeAllCmds (s : State) (u : Nat) : List Nat → List SavedCmds × State
  | [] => ([], s)
  | t :: r =>
    let (c, s) := s.takeCmds u t
    let (cs, s) := s.takeAllCmds u r
    (c :: cs, s)

/-- DRAIN_GRACE_EXPIRY (R174) of launch `n`: its contexts stop, its engines' commands are taken, its tile copies and the copies from outside freeze. -/
def State.drainStop (s : State) : Option State :=
  let u := s.inp.n
  let l := s.launch u
  if (Tbl.find s.launches u).isNone || l.st ≠ .draining || s.us < l.grace then none
  else
    let cs := s.ctxsOf u
    let keys := cs.map fun p => ctxKey p.1 p.2
    let w := s.waiters.filter fun e => keys.contains e.1
    let s := cs.foldl (fun s p => s.stopCtx p.1 p.2) s
    let (cmds, s) := s.takeAllCmds u l.tilesOf
    let went := s.copies.filter fun e => s.goesWith u e.2
    let s := s.stopCopies (s.goesWith u)
    let s : State := { s with
      saved := Tbl.put s.saved u { waiters := w, cmds := cmds, copies := went }
      waiters := s.waiters.filter fun e => !keys.contains e.1 }
    some (s.setLaunch u { l with st := .stopping })

/-- DRAIN_GRACE_EXPIRY (R174). -/
def execDrainGraceExpiry (s : State) : Host.Outcome State Fault Refusal := event State.drainStop s

/-- Whether an earlier message of the same stream has not been admitted (R165): one from the same core to the same mailbox. -/
def State.msgBehind (s : State) (k : Nat) (m : Msg) : Bool :=
  m.kind ≠ .hop && s.msgs.any fun e => e.1 < k && e.2.kind ≠ .hop && e.2.fromTile = m.fromTile &&
    e.2.fromA = m.fromA && e.2.toTile = m.toTile && e.2.toA = m.toA && e.2.mbox = m.mbox

/-- Whether the engines and the network hold nothing of a stopping launch that must settle first (R174). -/
def State.settled (s : State) (u : Nat) : Bool :=
  !(s.msgs.any fun e => e.2.launch = u && (e.2.st = .network || e.2.st = .resend) && !s.msgBehind e.1 e.2) &&
    !(s.elems.any fun e => e.2.launch = u) && !(s.gathers.any fun e => e.2.launch = u) &&
    !(s.expert.any fun e => e.2.launch = u) && !(s.steals.any fun e => (s.launch u).covers e.2.thief && (s.ctx e.2.ctx).launch = u) &&
    !(s.colls.any fun e => e.2.launch = u && e.2.parts.length = e.2.tiles.length) &&
    (s.launch u).tilesOf.all fun t =>
      (match (s.tile t).matRun with
        | some e => e.launch ≠ u
        | none => true) && (match (s.tile t).vecRun with
        | some e => e.launch ≠ u
        | none => true)

/-- A range of words that the device fills with contents of its own (R173): free values. -/
def State.fillFree (s : State) (k : Nat) : Nat → State
  | 0 => s
  | n + 1 =>
    let (v, s) := s.freeWord
    (s.store8 k v).fillFree (k + 8) n

/-- A launch's entries of a core's lists of refusals, without their reservations (R174). -/
def State.listsOf (s : State) (u : Nat) (c : Core) : List Listed × Tbl (List Listed) :=
  let mine (l : List Listed) : List Listed :=
    (l.filter fun e => (Tbl.get {} s.msgs e.msg).launch = u).map fun e => { e with reservedUntil := none }
  (mine (s.core c).ctxList, (s.core c).ringList.map fun (e : Nat × List Listed) => (e.1, mine e.2))

/-- What a drain saves of a launch beside its tiles (R174). -/
def State.savedOf (s : State) (u : Nat) : Saved :=
  let l := s.launch u
  let cs := s.ctxsOf u
  let old := Tbl.get {} s.saved u
  { old with
    ctxs := cs.map fun p => (ctxKey p.1 p.2, s.ctx (ctxKey p.1 p.2))
    runq := (launchCores l).map fun c => (coreIx c, (s.core c).runq.filter fun e => (s.ctx (ctxKey c e.ctx)).launch = u)
    onTile := l.tilesOf.map fun t => (t, s.ot u t)
    msgs := s.msgs.filter fun e => e.2.launch = u
    lists := (launchCores l).map fun c => (coreIx c, s.listsOf u c)
    colls := s.colls.filter fun e => e.2.launch = u
    copies := s.copies.filter fun e => e.2.drained && ((Tbl.find old.copies e.1).isSome || s.goesWith u e.2 || (match e.2.slot with
      | some (t, _) => l.covers t && s.alone u t
      | none => false)) }

/-- A saved launch leaves its cores, the network and the tables; on a tile that it shares, its contexts keep their places. -/
def State.liftLaunch (s : State) (u : Nat) : State :=
  let l := s.launch u
  let s := (s.ctxsOf u).foldl (fun s p => if s.alone u p.1.tileNo then s.setCtx (ctxKey p.1 p.2) {} else s)
    ((launchCores l).foldl (fun r c =>
      let v := s.core c
      r.setCore c { v with runq := v.runq.filter fun e => (s.ctx (ctxKey c e.ctx)).launch ≠ u }) s)
  let s := s.dropMsgs fun m => m.launch = u
  { s with
    colls := s.colls.filter fun e => e.2.launch ≠ u
    onTile := l.tilesOf.foldl (fun m t => Tbl.del m (otKey u t)) s.onTile
    copies := s.copies.map fun (e : Nat × Copy) =>
      if e.2.drained && (match e.2.slot with
        | some (t, _) => l.covers t && s.alone u t
        | none => false) then (e.1, { e.2 with away := true })
      else e }

/-- DRAIN_COMPLETE (R174) of launch `n`: the rectangle is written to its save area, and its tiles become free; a copy that has come to land there since
the stop stops too (R138). (DESIGN CHOICE, assumption 39) -/
def State.drainComplete (s : State) : Option State :=
  let u := s.inp.n
  let l := s.launch u
  if (Tbl.find s.launches u).isNone || l.st ≠ .stopping || !s.settled u then none
  else
    let base := l.save.toNat
    let own := l.tilesOf.filter (s.alone u)
    let s := s.stopCopies (s.goesWith u)
    let rec0 := s.savedOf u
    let s := s.liftLaunch u
    let rec0 := { rec0 with tiles := l.tilesOf.map fun t => s.saveTile t (!own.contains t) }
    let s := l.tilesOf.foldl (fun s t =>
      if own.contains t then (s.parkShared t).clearTile t else s.setTile t { s.tile t with runs := (s.tile t).runs.filter (· ≠ u) }) s
    let s := s.fillFree base (saveSize l / 8)
    let area := cellsIn s.mem base (base + saveSize l)
    let s := { s with saved := Tbl.put s.saved u { rec0 with area := area, areaPoison := flagsIn s.poison base (base + saveSize l) } }
    some ((s.setLaunch u { l with st := .saved }).drainStatus u l.drainFc 0).ckptDrain

/-- DRAIN_COMPLETE (R174). -/
def execDrainComplete (s : State) : Host.Outcome State Fault Refusal := event State.drainComplete s

/-- Whether the save area of a launch holds what the drain left (R173). (DESIGN CHOICE, assumption 39) -/
def State.areaIntact (s : State) (u : Nat) : Bool :=
  let l := s.launch u
  let r := Tbl.get {} s.saved u
  let b := l.save.toNat
  cellsIn s.mem b (b + saveSize l) = r.area && flagsIn s.poison b (b + saveSize l) = r.areaPoison

/-- A saved tile put back (R174, R175), its tile loads ready to translate again; the launch count of the tile stands (R400). -/
def State.restoreTile (s : State) (v : SavedTile) : State :=
  let t := v.t
  let s := s.setTile t { v.tile with launchCount := (s.tile t).launchCount, runs := (s.tile t).runs, stealDir := v.tile.stealDir,
                                     loadQ := v.tile.loadQ.map fun c => { c with ticket := none } }
  let keep (c : Core) (w : CoreSt) (s : State) : State := s.setCore c { w with icache := (s.core c).icache, haltOn := (s.core c).haltOn }
  let s := keep (.c t) v.coreC (keep (.a t) v.coreA s)
  { s with
    mem := v.cells.foldl (fun m c => Memory.set m c.1 c.2) s.mem
    poison := v.poison.foldl (fun m c => Tbl.set false m c.1 c.2) s.poison
    empty := v.empty.foldl (fun m c => Tbl.set false m c.1 c.2) s.empty
    rings := v.rings.foldl (fun (m : Tbl RingSt) (e : Nat × RingSt) => Tbl.put m e.1 e.2) s.rings }

/-- The saved contexts of a launch on a tile hold their places there. -/
def State.seatCtxs (s : State) (t : Nat) (r : Saved) : State :=
  (r.ctxs.filter fun e => (coreOfIx (e.1 / 32)).tileNo = t).foldl (fun s e => s.setCtx e.1 e.2) s

/-- A free tile is a saved launch's again (R175): its pool and its engines stand there as they were saved, for its own saved dependents too. -/
def State.takeTile (s : State) (u t : Nat) : State :=
  if (s.tile t).runs ≠ [] then s.setTile t { s.tile t with runs := (s.tile t).runs ++ [u] }
  else
    let dep (e : Nat × Saved) : Bool := (s.launch e.1).producer = some u && e.2.tiles.any fun v => v.t = t
    let r := Tbl.get {} s.saved u
    let s := (r.tiles.filter fun v => v.t = t).foldl State.restoreTile (s.clearTile t)
    let s := (s.setTile t { s.tile t with runs := [u] }).seatCtxs t r
    let s := (s.saved.filter dep).foldl (fun s e => s.seatCtxs t e.2) s
    { s with saved := s.saved.map fun (e : Nat × Saved) =>
        if dep e then (e.1, { e.2 with tiles := e.2.tiles.map fun v => if v.t = t then { v with shared := true } else v }) else e }

/-- The tiles of a launch's rectangle are its own again (R175), with the watermark slots that its copies hold there. -/
def State.takeTiles (s : State) (u : Nat) : State :=
  let l := s.launch u
  let r := Tbl.get {} s.saved u
  let s := l.tilesOf.foldl (fun s t => s.takeTile u t) s
  let s := (r.copies.filter fun e => e.2.ofLaunch u && (Tbl.find s.copies e.1).isNone).foldl (fun s e => s.setCopy e.1 e.2) s
  let here (c : Copy) : Bool := match c.slot with
    | some (t, _) => l.covers t && (s.tile t).runs.contains u
    | none => true
  { s with copies := s.copies.map fun (e : Nat × Copy) =>
      if (Tbl.find r.copies e.1).isSome && here e.2 then (e.1, { e.2 with away := false }) else e }

/-- A write of `RESUME_REQ` (R172, R173, R175): the tiles of the rectangle are the launch's again from here; false while it has to wait.
(DESIGN CHOICE, assumption 38) -/
def State.resumeReq (s : State) (fc : Nat) (a : Word) : Bool × State :=
  match s.fcRecord fc a 32 with
  | (.later, s) => (false, s)
  | (.bad, s) => (true, s.resumeAnswer fc 3)
  | (.ok d, s) =>
    let d : BitVec 256 := BitVec.ofNat 256 d
    match s.liveLaunch (fld d 63 44) (fld d 95 64) with
    | none => (true, s.resumeAnswer fc 1)
    | some u =>
      let l := s.launch u
      match l.st with
      | .saved =>
        if !s.saveOk l (fld d 255 192) || 1000 < fld d 159 128 then (true, s.resumeAnswer fc 3)
        else if l.save ≠ w64 (fld d 255 192) || !s.areaIntact u then (true, s.resumeAnswer fc 4)
        else if !s.rectFree l.tilesOf l.producer (some (tmplPart l.tmpl)) then (true, s.resumeAnswer fc 5)
        else (true, ((s.takeTiles u).setLaunch u { l with st := .resuming, resumeFc := fc }).setFw fc
          { s.fw fc with resumeOf := u, resume := none })
      | .running | .draining | .stopping | .resuming => (true, s.resumeAnswer fc 2)
      | _ => (true, s.resumeAnswer fc 1)

/-- RESUME_REQ (R172): value `v` written by firmware core `n`. -/
def execResumeReq (s : State) : Host.Outcome State Fault Refusal :=
  event (fun s => if s.inp.n < 16 then some (s.resumeReq s.inp.n s.inp.v).2 else none) s

/-- What a restored context waits for. -/
def Await.restored (now : Nat) : Await → Await
  | .barrier k (some d) => .barrier k (some (d + now))
  | a => a

/-- A saved context as it goes on (R175): it waits again on its condition, and a strand in `bwait` counts itself again (R334). -/
def State.resumeCtx (s : State) (k : Nat) (v : Ctx) : State :=
  let s := s.setCtx k { v with st := if v.await = .none then .ready else .blocked, await := v.await.restored s.now, cycFrom := s.now }
  match v.await with
  | .barrier b _ => s.changeBar b Bar.enter
  | _ => s

/-- Saved commands put back at the ends of a tile's queues (R174). -/
def State.reissue (s : State) (v : SavedCmds) : State :=
  let tl := s.tile v.t
  s.setTile v.t { tl with
    loadQ := tl.loadQ ++ v.loadQ, matQ := tl.matQ ++ v.matQ, vecQ := tl.vecQ ++ v.vecQ, copyQ := tl.copyQ ++ v.copyQ }

/-- A core's entries of a launch put back into its run queue or its lists of refusals. -/
def State.relist (s : State) (c : Core) (v : List Listed × Tbl (List Listed)) : State :=
  let k := s.core c
  s.setCore c { k with
    ctxList := k.ctxList ++ v.1
    ringList := v.2.foldl (fun (m : Tbl (List Listed)) (e : Nat × List Listed) => Tbl.set [] m e.1 (Tbl.get [] m e.1 ++ e.2)) k.ringList }

/-- The streams that a launch has bound on a tile (R363): what was fetched ahead is fetched again, what was pushed is performed as far as it goes. -/
def State.rebind (s : State) (u t : Nat) : State :=
  ((s.tile t).strm.filter fun e => e.2.launch = u).foldl (fun s e =>
    (s.setStrm t e.1 { s.strm t e.1 with fetched := [] }).performPushed t e.1) s

/-- Whether elements that a saved launch pushed are still to be performed, which no strand of it may precede (R363). -/
def State.savedWrites (s : State) (u : Nat) : Bool :=
  (s.launch u).tilesOf.any fun t => (s.tile t).strm.any fun e => e.2.launch = u && e.2.pushed ≠ []

/-- A copy that a drain stopped goes on (R174), but for one that stopped with another launch. -/
def State.unstop (s : State) (u k : Nat) : State :=
  let c := s.copy k
  let other := match c.origin with
    | .tile v _ => v ≠ u && (s.launch v).st ≠ .running
    | _ => false
  if other || (Tbl.find s.copies k).isNone then s
  else s.setCopy k { c with drained := false, st := if c.st = .frozen && c.drained then .running else c.st }

/-- What goes on before the strands of a saved launch: its copies, from their watermarks (R175), and the writes of its streams (R363). -/
def State.resumeWrites (s : State) (u : Nat) : State :=
  let s := (Tbl.get {} s.saved u).copies.foldl (fun s e => s.unstop u e.1) s
  (s.launch u).tilesOf.foldl (fun s t => s.rebind u t) s

/-- A saved launch runs again (R175): every context returns to the state it was saved in. -/
def State.resumeLaunch (s : State) (u : Nat) : State :=
  let l := s.launch u
  let r := Tbl.get {} s.saved u
  let s := s.setLaunch u { l with st := .running }
  let s := r.onTile.foldl (fun s e => s.setOt u e.1 e.2) s
  let s := r.ctxs.foldl (fun s e => s.resumeCtx e.1 e.2) s
  let s := r.runq.foldl (fun s e => s.setCore (coreOfIx e.1) { s.core (coreOfIx e.1) with runq := (s.core (coreOfIx e.1)).runq ++ e.2 }) s
  let s := r.lists.foldl (fun s e => s.relist (coreOfIx e.1) e.2) s
  let s := r.cmds.foldl State.reissue s
  let s : State := { s with
    waiters := s.waiters ++ r.waiters.map fun (e : Nat × Await) => (e.1, (s.ctx e.1).await)
    msgs := r.msgs.foldl (fun (m : Tbl Msg) (e : Nat × Msg) => Tbl.put m e.1 e.2) s.msgs
    colls := r.colls.foldl (fun (m : Tbl Round) (e : Nat × Round) => Tbl.put m e.1 e.2) s.colls
    saved := Tbl.del s.saved u }
  l.tilesOf.foldl (fun s t => s.placeStrands u t) s

/-- RESUME_COMPLETE (R175) of launch `n`, once the writes that its drain saved are performed (R363). -/
def State.resumeComplete (s : State) : Option State :=
  let u := s.inp.n
  let l := s.launch u
  if (Tbl.find s.launches u).isNone || l.st ≠ .resuming then none
  else
    let s := s.resumeWrites u
    some (if s.savedWrites u then s else (s.resumeLaunch u).resumeStatus u l.resumeFc 0)

/-- RESUME_COMPLETE (R175). -/
def execResumeComplete (s : State) : Host.Outcome State Fault Refusal := event State.resumeComplete s

end Sys2Proof.Machine
end

