-- ==== Sys2Proof/Machine/Queue.lean ====
section
/-! DEFINITION. User queues: doorbells and waymarks (R36 to R40, R50 to R52), fetching (R41, R44), the window and its launches (R42, R45 to
R49), the arbitration for rectangles and streamers (R91), completion (R53 to R56), and QIDLE (R80). -/

namespace Sys2Proof.Machine

-- Fields

def UQueue.cpl (q : UQueue) : Nat := fld q.record 255 192
def UQueue.ridxWb (q : UQueue) : Nat := fld q.record 191 128
def UQueue.ring (q : UQueue) : Nat := fld q.record 127 64
def UQueue.pasid (q : UQueue) : Nat := fld q.record 63 44
def UQueue.size (q : UQueue) : Nat := 2 ^ fld q.record 43 39
def UQueue.prio (q : UQueue) : Nat := fld q.record 38 37
def UQueue.vec (q : UQueue) : Nat := fld q.record 36 26

/-- Packet fields (R43). -/
def pkType (p : BitVec 512) : Nat := fld p 7 0
def pkBarrier (p : BitVec 512) : Bool := p.getLsbD 8
def pkConsume (p : BitVec 512) : Bool := p.getLsbD 9
def pkSetqEn (p : BitVec 512) : Bool := p.getLsbD 10
def pkCompl (p : BitVec 512) : Bool := p.getLsbD 11
def pkIrq (p : BitVec 512) : Bool := p.getLsbD 12
def pkSetq (p : BitVec 512) : Nat := fld p 27 16
def pkTag (p : BitVec 512) : Nat := fld p 63 32
def pkWait (p : BitVec 512) : Word := w64 (fld p 127 64)
def pkSet (p : BitVec 512) : Word := w64 (fld p 191 128)

/-- Whether a queue holds a slot, and which (R84). -/
def State.mapped (s : State) (q : Nat) : Bool := bit (s.qdirOf q) 1
def State.slotNo (s : State) (q : Nat) : Nat := bits (s.qdirOf q) 7 2

/-- Whether a queue holds an active slot. -/
def State.active (s : State) (q : Nat) : Bool := s.mapped q && (s.slot (s.slotNo q)).st = 2 && (s.slot (s.slotNo q)).qid = q

/-- Work reaches a queue: its slot is no longer idle, or its pending bit rises (R40, R51, R90; R28 while a checkpoint is in progress). -/
def State.kick (s : State) (q : Nat) : State :=
  if !s.mapped q || s.ckptBusy then s.setPend q
  else s.setSlot (s.slotNo q) { s.slot (s.slotNo q) with idleSince := none, idleRaised := false }

/-- The slot of a queue has worked: what idleness it had is over. -/
def State.busySlot (s : State) (q : Nat) : State :=
  if s.mapped q then s.setSlot (s.slotNo q) { s.slot (s.slotNo q) with idleSince := none, idleRaised := false } else s

/-- An active queue stops with a status (R56). -/
def State.stopQueue (s : State) (q status : Nat) : State :=
  let v := s.queue q
  if v.state = 1 then (s.setQueue q { v with state := 2, err := BitVec.ofNat 8 status }).raiseMsix v.vec else s

/-- Whether writes to a queue's page count (R40). -/
def State.pageLive (s : State) (q : Nat) : Bool := q < 4096 && ((s.queue q).state = 1 || (s.queue q).state = 2)

/-- A write of `DB` (R40). -/
def State.doorbell (s : State) (q : Nat) (v : Word) : State :=
  let u := s.queue q
  let w : BitVec 32 := v.setWidth 32
  if !s.pageLive q || w = u.widx then s
  else if 1 ≤ (w - u.ridx).toNat && (w - u.ridx).toNat ≤ u.size then (s.setQueue q { u with widx := w }).kick q
  else s.stopQueue q 9

/-- A write of `WM_SET`, which counts as a kick (R38, R52). -/
def State.wmSet (s : State) (q : Nat) (v : Word) : State :=
  if s.pageLive q then (s.setQueue q { s.queue q with wm := (s.queue q).wm ||| v }).kick q else s

/-- A write of `WM_CLR` (R38, R52). -/
def State.wmClr (s : State) (q : Nat) (v : Word) : State :=
  if s.pageLive q then s.setQueue q { s.queue q with wm := (s.queue q).wm &&& ~~~ v } else s

/-- DOORBELL (R40): value `v` written to queue `n`. -/
def execDoorbell (s : State) : Host.Outcome State Fault Refusal :=
  event (fun s => some (s.doorbell s.inp.n s.inp.v)) s

/-- WM_SET (R38). -/
def execWmSet (s : State) : Host.Outcome State Fault Refusal :=
  event (fun s => some (s.wmSet s.inp.n s.inp.v)) s

/-- WM_CLR (R38). -/
def execWmClr (s : State) : Host.Outcome State Fault Refusal :=
  event (fun s => some (s.wmClr s.inp.n s.inp.v)) s

-- Fetch

/-- Whether a packet's header or type-specific bits break their ranges (R43 to R49). -/
def packetBad (p : BitVec 512) : Bool :=
  fld p 31 28 ≠ 0 || fld p 15 13 ≠ 0 ||
    (match pkType p with
      | 1 => fld p 511 416 ≠ 0 || fld p 343 320 ≠ 0 || 31 < fld p 415 408 || 0x40000000 ≤ fld p 407 376 ||
          !rectOk (fld p 351 344) (fld p 359 352) (fld p 367 360) (fld p 375 368) || fld p 319 256 % 8 ≠ 0 || fld p 255 192 % 64 ≠ 0
      | 2 =>
        let ch := fld p 399 392
        let remote := p.getLsbD 400
        fld p 511 464 ≠ 0 || fld p 447 434 ≠ 0 || fld p 415 402 ≠ 0 || 3 < fld p 391 384 || fld p 383 320 = 0 || 2 ^ 40 < fld p 383 320 ||
          fld p 383 320 % 2 ^ fld p 391 384 ≠ 0 || (31 < ch && ch ≠ 0xFF) || (remote && ch < 16) || (p.getLsbD 401 && !remote)
      | 3 => fld p 511 192 ≠ 0
      | 4 => fld p 511 320 ≠ 0 || fld p 319 256 = 0 || 2 ^ 40 < fld p 319 256
      | _ => fld p 511 328 ≠ 0 || fld p 326 264 ≠ 0 || (31 < fld p 263 256 && fld p 263 256 ≠ 0xFF) || fld p 255 192 % 64 ≠ 0)

/-- The window entry of a queue that holds packet index `i`. -/
def UQueue.holding (q : UQueue) (i : BitVec 32) : Option (Nat × WinEntry) := q.win.find? fun e => e.2.idx = i

/-- The status with which a packet fails at its fetch, 0 for none (R44, R45, R75): of several, 1 before 2 and 2 before 3. (DESIGN CHOICE, assumption 38)
(DESIGN CHOICE, assumption 82) -/
def State.fetchStatus (s : State) (q : Nat) (i : BitVec 32) (p : BitVec 512) : Nat :=
  let u := s.queue q
  let prod := fld p 415 408
  let badProd := pkType p = 1 && prod ≠ 0 && (match u.holding (i - BitVec.ofNat 32 prod) with
    | some (_, e) => pkType e.pkt ≠ 1
    | none => false)
  let t := s.queue (pkSetq p)
  if pkType p = 0 || 5 < pkType p then 1
  else if packetBad p || badProd then 2
  else if pkSetqEn p && (t.state = 0 || t.state = 3 || t.pasid ≠ u.pasid) then 3
  else if pkType p = 1 && s.unloading u.pasid (fld p 255 192) then 4
  else 0

/-- The queue a packet's `SET` goes to (R51). -/
def setTarget (q : Nat) (p : BitVec 512) : Nat := if pkSetqEn p then pkSetq p else q

/-- Whether a queue leaves its slot as soon as the fetch it has begun is captured (R88). -/
def State.saving (s : State) (q : Nat) : Bool := s.mapped q && (s.slot (s.slotNo q)).st = 3 && (s.slot (s.slotNo q)).qid = q

/-- A slot becomes free (R88): a `SAVE` of it is over, and `SLOT_STAT` is 0 where that is its core's last slot command. -/
def State.freeSlot (s : State) (n : Nat) : State :=
  match (s.slot n).saver with
  | some fc => (s.setSlot n {}).setFw fc { s.fw fc with slotStat := some 0 }
  | none => s.setSlot n {}

/-- A `SAVE` ends (R88, R89): the queue has left its slot, with `PEND` set when ready work remains. -/
def State.endSave (s : State) (n : Nat) : State :=
  let q := (s.slot n).qid
  let u := s.queue q
  let s := (s.freeSlot n).setQdir q (s.qdirOf q &&& 0xFFFFFFFFFFFFFFFD)
  if u.state = 1 && (u.widx ≠ u.ridx || u.win.any fun e => !e.2.launched) then s.setPend q else s

/-- A fetch is over, captured or not; a `SAVE` that has waited for it ends. -/
def State.fetched (s : State) (q : Nat) : State :=
  let s := s.setQueue q { s.queue q with fetching := false, writing := false }
  if s.saving q then s.endSave (s.slotNo q) else s

/-- A fetch waits, for a ticket or for a home; `wr` says that the write-back of the read index does. -/
def State.fetchWaits (s : State) (q : Nat) (t : Option Nat) (wr : Bool) : State :=
  s.setQueue q { s.queue q with ticket := t, fetching := true, writing := wr }

/-- PACKET_FETCH (R41) by queue `n`: one packet captured into the lowest free window entry, `RIDX` moved on and written back; a queue that is being saved
fetches no new one (R88). (DESIGN CHOICE, assumption 50) -/
def State.packetFetch (s : State) : Option State :=
  let q := s.inp.n
  let u := s.queue q
  if s.saving q && (u.state ≠ 1 || !u.fetching) then some (s.fetched q)
  else if s.ckptBusy || !(s.active q || s.saving q) || u.state ≠ 1 || u.widx = u.ridx || 32 ≤ u.win.length || u.ticket.isSome then none
  else
    let at_ := u.ring + 64 * (u.ridx.toNat % u.size)
    if u.failed.contains (at_ / 65536) then some (((s.setQueue q { u with failed := [] }).stopQueue q 4).fetched q)
    else
      match s.agentWords (workOf 0x1100 (2 * q)) u.pasid at_ 8 with
      | (.error t, s) => some (s.fetchWaits q t false)
      | (.ok (ws, poison), s) =>
        let wb := u.ridxWb
        let bad := u.failedWb.contains (wb / 65536)
        match if wb = 0 || bad then (AgentAcc.bad, s) else s.agentKey (workOf 0x1100 (2 * q)) u.pasid wb 8 .write with
        | (.later t, s) => some (s.fetchWaits q t true)
        | (k, s) =>
          let p : BitVec 512 := BitVec.ofNat 512 (joinWords ws)
          let st := if poison then 4 else s.fetchStatus q u.ridx p
          let j := (leastBelow (fun j => (Tbl.find u.win j).isNone) 32).getD 0
          let e : WinEntry := { idx := u.ridx, pkt := p, status := if st = 0 then none else some st,
                                setGen := (s.queue (setTarget q p)).gen }
          let s := s.setQueue q { s.queue q with ridx := u.ridx + 1, win := Tbl.put u.win j e, failed := [], failedWb := [] }
          let s := match k with
            | .key k => s.store8 k (w64 (u.ridx + 1).toNat)
            | _ => s
          let s := s.busySlot q
          some ((if wb ≠ 0 && bad then s.stopQueue q 4 else s).fetched q)

/-- PACKET_FETCH (R41). -/
def execPacketFetch (s : State) : Host.Outcome State Fault Refusal := event State.packetFetch s

-- Launch

/-- How far back a packet lies from the read index: larger is older. -/
def UQueue.ageOf (q : UQueue) (e : WinEntry) : Nat := (q.ridx - e.idx).toNat

/-- Conditions 1 to 3 of R42, and that of a patch-fence (R48). -/
def UQueue.passes (q : UQueue) (e : WinEntry) : Bool :=
  let older := q.win.filter fun o => q.ageOf e < q.ageOf o.2
  !e.launched && e.status.isNone && (q.wm &&& pkWait e.pkt) = pkWait e.pkt && !(older.any fun o => pkBarrier o.2.pkt) &&
    (!(pkBarrier e.pkt || pkType e.pkt = 4) || older.isEmpty)

/-- The launch that a packet of a queue's window started. -/
def State.packetLaunchKey (s : State) (q k : Nat) : Option Nat :=
  (s.launches.find? fun e => e.2.origin = .packet q k).map Prod.fst

/-- The producer of a launch packet (R45): none; not launched yet; or a launch. -/
def State.producerOf (s : State) (q : Nat) (e : WinEntry) : Option (Option Nat) :=
  let n := fld e.pkt 415 408
  if n = 0 then some none
  else
    match (s.queue q).holding (e.idx - BitVec.ofNat 32 n) with
    | none => some none
    | some (k, o) => if o.launched then some (s.packetLaunchKey q k) else none

/-- The rectangle of a launch packet. -/
def packetTiles (p : BitVec 512) : List Nat := rectTiles (fld p 351 344) (fld p 359 352) (fld p 367 360) (fld p 375 368)

/-- The channel of a copy or template packet, and whether the copy is remote. -/
def packetChannel (p : BitVec 512) : Nat := if pkType p = 2 then fld p 399 392 else fld p 263 256
def packetRemote (p : BitVec 512) : Bool := pkType p = 2 && p.getLsbD 400

/-- The streamer that takes a copy packet (R46): the one it names, or the lowest idle one of its range. -/
def State.packetStreamer (s : State) (p : BitVec 512) : Option Nat :=
  if packetChannel p ≠ 0xFF then some (packetChannel p)
  else leastBelow (fun n => (16 ≤ n || !packetRemote p) && s.idle n) 32

/-- The partition word of a template that the launch units hold. -/
def State.partOf (s : State) (pasid a : Nat) : Option Nat := (s.tmplCached pasid a).map tmplPart

/-- A request for tiles or for a streamer (R91): its position, priority, and its order within the position. -/
structure Bid where
  pos : Nat
  prio : Nat
  /-- 0 a packet, 1 a launch that waits -/
  kind : Nat
  order : Nat
  tiles : List Nat
  streamer : Option Nat
  deriving DecidableEq, Repr

/-- The request of a packet that is ready (R42), or none; one whose template read waits on a ticket is not ready. -/
def State.packetBid (s : State) (q k : Nat) : Option Bid :=
  let u := s.queue q
  match Tbl.find u.win k with
  | none => none
  | some e =>
    if !s.active q || u.state ≠ 1 || s.ckptBusy || !u.passes e || e.ticket.isSome then none
    else
      let b : Bid := { pos := s.slotNo q, prio := (s.slot (s.slotNo q)).eprio, kind := 0, order := 2 ^ 32 - u.ageOf e, tiles := [],
                       streamer := none }
      match pkType e.pkt with
      | 1 =>
        match s.producerOf q e with
        | none => none
        | some p =>
          let ts := packetTiles e.pkt
          if s.rectFree ts p (s.partOf u.pasid (fld e.pkt 255 192)) then some { b with tiles := ts } else none
      | 3 | 4 => some b
      | _ =>
        match s.packetStreamer e.pkt with
        | some n => some { b with streamer := some n }
        | none => none

/-- The request of a launch that waits: from a port whose waits are over (R215), or from a tile whose queue holds a slot (R400); where the issuing launch
came from a port of control core c and has no queue, at position 64 + c with the priority of that port launch. (DESIGN CHOICE, assumption 105) -/
def State.launchBid (s : State) (u : Nat) : Option Bid :=
  match Tbl.find s.launches u with
  | none => none
  | some l =>
    if l.st ≠ .waiting || s.ckptBusy || l.ticket.isSome || !s.rectFree l.tilesOf none none then none
    else
      let b : Bid := { pos := 0, prio := 0, kind := 1, order := u, tiles := l.tilesOf, streamer := none }
      match l.origin with
      | .packet _ _ => none
      | .port c _ _ _ w p => if w.isEmpty then some { b with pos := 64 + c, prio := p } else none
      | .tile _ _ q _ =>
        match q with
        | none => none
        | some q =>
          if 4096 ≤ q then some { b with pos := 64 + (q - 4096) / 4, prio := (q - 4096) % 4 }
          else if s.active q && (s.queue q).state = 1 then some { b with pos := s.slotNo q, prio := (s.slot (s.slotNo q)).eprio }
          else none

/-- Every request that is ready; one whose template read waits holds back no other. -/
def State.bids (s : State) : List Bid :=
  (s.slots.flatMap fun e => ((s.queue e.2.qid).win.filterMap fun k => if k.2.held then none else s.packetBid e.2.qid k.1)) ++
    s.launches.filterMap fun e => if e.2.held then none else s.launchBid e.1

/-- Where a position stands in a search that starts at `rr` (R91). -/
def turnsFrom (rr pos : Nat) : Nat := (pos + 128 - rr) % 128

/-- Whether request `a` goes before request `b` where they want the same tiles or the same streamer (R91). -/
def State.beats (s : State) (a b : Bid) : Bool :=
  let rect := a.tiles.any fun t => b.tiles.contains t
  let strm := a.streamer.isSome && a.streamer = b.streamer
  let rr := if rect then s.launchRR else (s.streamer (a.streamer.getD 0)).rr
  (rect || strm) && (b.prio < a.prio || (a.prio = b.prio && (turnsFrom rr a.pos < turnsFrom rr b.pos ||
    (a.pos = b.pos && a.kind = b.kind && a.order < b.order))))

/-- Whether no ready rival goes first. -/
def State.granted (s : State) (b : Bid) : Bool := !(s.bids.any fun a => s.beats a b)

/-- The pointers after a grant (R91). -/
def State.afterGrant (s : State) (b : Bid) : State :=
  let s := if b.tiles.isEmpty then s else { s with launchRR := (b.pos + 1) % 128 }
  match b.streamer with
  | some n => s.setStreamer n { s.streamer n with rr := (b.pos + 1) % 128 }
  | none => s

/-- Whether an older packet of the queue could launch now: the oldest goes first (R42), and one whose template read waits holds back no younger one. -/
def State.olderGranted (s : State) (q : Nat) (e : WinEntry) : Bool :=
  (s.queue q).win.any fun o => !o.2.held && (s.queue q).ageOf e < (s.queue q).ageOf o.2 && (match s.packetBid q o.1 with
    | some b => s.granted b
    | none => false)

/-- A window entry fails before it launches. -/
def State.failEntry (s : State) (q k status : Nat) : State :=
  let u := s.queue q
  match Tbl.find u.win k with
  | some e => s.setQueue q { u with win := Tbl.put u.win k { e with status := some status, ticket := none, failed := [] } }
  | none => s

/-- The template read of a packet waits, for a ticket or for its home, a watermark or the host. -/
def State.templateWaits (s : State) (q k : Nat) (e : WinEntry) (t : Option Nat) : State :=
  s.setQueue q { s.queue q with win := Tbl.put (s.queue q).win k { e with ticket := t, held := t.isNone } }

/-- A packet launches: its waits are consumed and its entry marked (R42, R50). -/
def State.markLaunched (s : State) (q k : Nat) : State :=
  let u := s.queue q
  match Tbl.find u.win k with
  | some e =>
    (s.setQueue q { u with win := Tbl.put u.win k { e with launched := true, ticket := none, failed := [], held := false },
                           wm := if pkConsume e.pkt then u.wm &&& ~~~ (pkWait e.pkt) else u.wm }).busySlot q
  | none => s

/-- The completion record of R54. -/
def cplRecord (e : WinEntry) (st : Nat) : Nat := 1 + st <<< 32 + pkTag e.pkt <<< 64 + e.idx.toNat <<< 96

/-- A packet completes (R53): its `SET`, its record, its interrupt, and the stop of its queue for a failure (R56), which raises the vector once more where
`IRQ` has raised it. (DEDUCED, assumption 75) (DESIGN CHOICE, assumption 84) -/
def State.packetDone (s : State) (q k : Nat) : State :=
  let u := s.queue q
  match Tbl.find u.win k with
  | none => s
  | some e =>
    match e.status with
    | none => s
    | some st =>
      let t := setTarget q e.pkt
      let v := s.queue t
      let gone := pkSetqEn e.pkt && (v.state = 0 || v.state = 3 || v.gen ≠ e.setGen)
      let st := if st = 0 && gone then 7 else st
      let a := u.cpl + 16 * (e.idx.toNat % u.size)
      let lost := e.failed.contains (a / 65536)
      let writes := (pkCompl e.pkt || st ≠ 0) && u.state ≠ 3 && u.state ≠ 0
      match if writes && !lost then s.agentKey (workOf 0x1100 (2 * q)) u.pasid a 16 .write else (AgentAcc.bad, s) with
      | (.later n, s) => s.setQueue q { s.queue q with win := Tbl.put (s.queue q).win k { e with ticket := n } }
      | (key, s) =>
        let s := s.setQueue q { s.queue q with win := Tbl.del u.win k }
        let s := if (st = 0 || st = 7) && !gone && pkSet e.pkt ≠ 0 && u.state ≠ 3 then
            (s.setQueue t { s.queue t with wm := (s.queue t).wm ||| pkSet e.pkt }).kick t
          else s
        let s := match key with
          | .key k => s.store k 16 (cplRecord e st) false
          | _ => s
        let s := if pkIrq e.pkt && u.state ≠ 3 then s.raiseMsix u.vec else s
        let s := s.busySlot q
        let s := if st ≠ 0 && st ≠ 7 then s.stopQueue q st else s
        let s := if lost && writes then s.stopQueue q 4 else s
        s.releaseHandles

/-- A launch packet starts (R45, R158), or fails as it would launch: with 2 for a live `LAUNCH_ID` before 8 (DESIGN CHOICE, assumption 85), and with 4, not
launched, where its template cannot be read or is poisoned (DESIGN CHOICE, assumption 104). -/
def State.startPacket (s : State) (q k : Nat) (e : WinEntry) (b : Bid) : State :=
  let u := s.queue q
  let p := e.pkt
  let a := fld p 255 192
  if (s.liveLaunch u.pasid (fld p 407 376)).isSome then s.failEntry q k 2
  else if s.leavesCd0 b.tiles then s.failEntry q k 8
  else
    match s.launchTmpl (workOf 0x1100 (2 * q)) u.pasid a e.failed with
    | ((.later, t), s) => s.templateWaits q k e t
    | ((.bad, _), s) => s.failEntry q k 4
    | ((.ok t, _), s) =>
      let prod := (s.producerOf q e).getD none
      let n := s.fresh
      let l : Launch := { id := BitVec.ofNat 32 (fld p 407 376), pasid := u.pasid, x0 := fld p 351 344, y0 := fld p 359 352,
                          w := fld p 367 360, h := fld p 375 368, args := w64 (fld p 319 256), tmplAddr := w64 a, tmpl := t,
                          origin := .packet q k, producer := prod }
      (((s.newId.2.markLaunched q k).setLaunch n l).startLaunch n).afterGrant b

/-- The copy that a copy or template packet starts (R46, R49). -/
def packetCopy (q k : Nat) (u : UQueue) (p : BitVec 512) : Copy :=
  if pkType p = 5 then { origin := .packet q k, pasid := u.pasid, tmplAddr := some (w64 (fld p 255 192)) }
  else
    let esz := fld p 391 384
    { origin := .packet q k, pasid := u.pasid, tmpl := denseTmpl (fld p 255 192) (fld p 319 256) esz,
      big := some (fld p 383 320 / 2 ^ esz)
      remote := if p.getLsbD 400 then some { kind := if p.getLsbD 401 then .get else .put, modId := fld p 433 416, window := fld p 463 448 }
        else none }

/-- A dependent's template is read before its rectangle can be compared with its producer's. -/
def State.peekTmpl (s : State) (q k : Nat) : Option State :=
  let u := s.queue q
  match Tbl.find u.win k with
  | none => none
  | some e =>
    if s.active q && u.state = 1 && !s.ckptBusy && u.passes e && pkType e.pkt = 1 && fld e.pkt 415 408 ≠ 0 && e.ticket.isNone &&
        (s.tmplCached u.pasid (fld e.pkt 255 192)).isNone then
      match s.launchTmpl (workOf 0x1100 (2 * q)) u.pasid (fld e.pkt 255 192) e.failed with
      | ((.later, t), s) => some (s.templateWaits q k e t)
      | ((.bad, _), s) => some (s.failEntry q k 4)
      | ((.ok _, _), s) => some s
    else none

/-- PACKET_LAUNCH (R42) of entry `m` of queue `n`. -/
def State.packetLaunch (s : State) : Option State :=
  let q := s.inp.n
  let k := s.inp.m
  match s.packetBid q k, Tbl.find (s.queue q).win k with
  | some b, some e =>
    if !s.granted b || s.olderGranted q e then none
    else
      some (match pkType e.pkt with
        | 1 => s.startPacket q k e b
        | 3 =>
          let s := s.markLaunched q k
          (s.notePacket q k 0).packetDone q k
        | 4 =>
          let s := s.markLaunched q k
          { s with fences := s.fences ++ [(q, k)] }
        | _ => ((s.markLaunched q k).startStream (b.streamer.getD 0) (packetCopy q k (s.queue q) e.pkt)).afterGrant b)
  | _, _ => s.peekTmpl q k

/-- PACKET_LAUNCH (R42). -/
def execPacketLaunch (s : State) : Host.Outcome State Fault Refusal := event State.packetLaunch s

/-- PACKET_COMPLETE (R53) of entry `m` of queue `n`, its status found. -/
def State.packetComplete (s : State) : Option State :=
  let u := s.queue s.inp.n
  match Tbl.find u.win s.inp.m with
  | some e => if e.status.isSome && e.ticket.isNone then some (s.packetDone s.inp.n s.inp.m) else none
  | none => none

/-- PACKET_COMPLETE (R53). -/
def execPacketComplete (s : State) : Host.Outcome State Fault Refusal := event State.packetComplete s

/-- Cached lines of a PASID in a range, dropped from an instruction cache. -/
def dropPasidLines (pasid a n : Nat) (l : List ILine) : List ILine :=
  l.filter fun e => !(e.pasid = pasid && a / 64 ≤ e.line && e.line ≤ (a + n - 1) / 64)

/-- Whether 128 bytes or fewer from `b` meet a range widened to whole lines. -/
def meetsLines (a n b m : Nat) : Bool := a / 64 * 64 < b + m && b < ((a + n - 1) / 64 + 1) * 64

/-- A range of a PASID's addresses leaves every instruction cache, inline cache and template cache of the launch units (R48). -/
def State.patchDrop (s : State) (pasid a n : Nat) : State :=
  { s with
    cores := s.cores.map fun (e : Nat × CoreSt) => if 8256 ≤ e.1 then e else (e.1, { e.2 with icache := dropPasidLines pasid a n e.2.icache })
    ccs := s.ccs.map fun (e : Nat × CtlCore) =>
      (e.1, { e.2 with sites := e.2.sites.filter fun r => !(r.pasid = pasid && meetsLines a n r.addr 128) })
    tmplCache := s.tmplCache.filter fun e => !(e.1 = pasid && meetsLines a n e.2.1 64) }

/-- PATCH_FENCE_COMPLETE (R48) of entry `m` of queue `n`: every die has acknowledged. -/
def State.fenceComplete (s : State) : Option State :=
  let q := s.inp.n
  let k := s.inp.m
  if !s.fences.contains (q, k) then none
  else
    let s := { s with fences := s.fences.filter (· ≠ (q, k)) }
    match Tbl.find (s.queue q).win k with
    | some e => some (((s.patchDrop (s.queue q).pasid (fld e.pkt 255 192) (fld e.pkt 319 256)).notePacket q k 0).packetDone q k)
    | none => some s

/-- PATCH_FENCE_COMPLETE (R48). -/
def execPatchFenceComplete (s : State) : Host.Outcome State Fault Refusal := event State.fenceComplete s

/-- The reason for which a queue's slot is idle (R80), 0 while it is not. -/
def State.idleReason (s : State) (q : Nat) : Nat :=
  let u := s.queue q
  if u.state ≠ 1 then 3
  else if u.ridx = u.widx && u.win.isEmpty then 1
  else if 32 ≤ u.win.length && u.win.all fun e => (s.packetBid q e.1).isNone && e.2.ticket.isNone then 2
  else 0

/-- QIDLE (R80) of slot `n`, idle for 16,384 cycles. -/
def State.qidle (s : State) : Option State :=
  let v := s.slot s.inp.n
  match v.idleSince with
  | some t =>
    let r := s.idleReason v.qid
    if v.st = 2 && !v.idleRaised && r ≠ 0 && t + 16384 ≤ s.now then
      some ((s.setSlot s.inp.n { v with idleRaised := true }).raiseEvent 4 (some v.qid) (w64 r) 0 0)
    else none
  | none => none

/-- QIDLE (R80). -/
def execQidle (s : State) : Host.Outcome State Fault Refusal := event State.qidle s

/-- The idleness of every active slot, as it stands when time passes. -/
def State.noteIdle (s : State) : State :=
  { s with slots := s.slots.map fun (e : Nat × Slot) =>
      if e.2.st = 2 && s.idleReason e.2.qid ≠ 0 then (e.1, { e.2 with idleSince := some (e.2.idleSince.getD s.now) })
      else (e.1, { e.2 with idleSince := none, idleRaised := false }) }

-- Launches that wait

/-- A launch that waits starts (R158), its request granted; or it fails. -/
def State.startWaiting (s : State) (u : Nat) : Option State :=
  match s.launchBid u with
  | none => none
  | some b =>
    let l := s.launch u
    if s.leavesCd0 b.tiles then some (s.failLaunch u 8)
    else if !s.granted b then none
    else
      match s.launchTmpl (workOf 0x1100 (2 * u + 1)) l.pasid l.tmplAddr.toNat l.failed with
      | ((.later, t), s) => some (s.setLaunch u { l with ticket := t, held := t.isNone })
      | ((.bad, _), s) => some (s.failLaunch u 4)
      | ((.ok t, _), s) => some (((s.setLaunch u { l with tmpl := t }).startLaunch u).afterGrant b)

/-- PORT_LAUNCH_START (R215) of launch `n`. (DEDUCED, assumption 55) -/
def State.portStart (s : State) : Option State :=
  match (s.launch s.inp.n).origin with
  | .port _ _ _ _ _ _ => s.startWaiting s.inp.n
  | _ => none

/-- PORT_LAUNCH_START (R215). -/
def execPortLaunchStart (s : State) : Host.Outcome State Fault Refusal := event State.portStart s

/-- TILE_LAUNCH_START (R400, R401) of launch `n`; a template that no load handle of the PASID holds fails it with status 4. -/
def State.tileStart (s : State) : Option State :=
  let u := s.inp.n
  let l := s.launch u
  match l.origin with
  | .tile _ _ _ _ => if l.st = .waiting && !s.holdsTmpl l.pasid l.tmplAddr.toNat then some (s.failLaunch u 4) else s.startWaiting u
  | _ => none

/-- TILE_LAUNCH_START (R400). -/
def execTileLaunchStart (s : State) : Host.Outcome State Fault Refusal := event State.tileStart s

end Sys2Proof.Machine
end

