-- ==== Sys2Proof/Machine/Sched.lean ====
section
/-! DEFINITION. The run queue (R163), arrivals of messages and hops (R164 to R167), and the notices that reserve contexts and ring slots (R166). -/

namespace Sys2Proof.Machine

-- The run queue

/-- The head of the highest level that is not empty, among entries whose context is Ready (R163). -/
def State.nextReady (s : State) (c : Core) : Option RunEntry :=
  let r := (s.core c).runq.filter fun e => (s.ctx (ctxKey c e.ctx)).st = .ready
  match r.find? fun e => e.level = 3 with
  | some e => some e
  | none =>
    match r.find? fun e => e.level = 2 with
    | some e => some e
    | none =>
      match r.find? fun e => e.level = 1 with
      | some e => some e
      | none => r.head?

/-- A core dispatches its next Ready strand (R162, R163), if it runs none and no debugger halts it. -/
def State.dispatch (s : State) (c : Core) : Option State :=
  let cs := s.core c
  if !c.isTile || cs.run.isSome || cs.halted.isSome then none
  else
    match s.nextReady c with
    | none => none
    | some e =>
      let s := s.setCore c { cs with run := some e.ctx, runSince := s.now, runq := cs.runq.filter fun r => r.ctx ≠ e.ctx }
      some (s.setCtx (ctxKey c e.ctx) { s.ctx (ctxKey c e.ctx) with st := .running })

/-- DISPATCH (R163) on core `core`. -/
def execDispatch (s : State) : Host.Outcome State Fault Refusal := event (fun s => s.dispatch s.inp.core) s

/-- RUNQUEUE_AGEING (R163): the entry of context `n` on core `core` has waited 4,096 cycles below level 3, and moves up. -/
def State.ageEntry (s : State) : Option State :=
  let c := s.inp.core
  let cs := s.core c
  match cs.runq.find? fun e => e.ctx = s.inp.n with
  | some e =>
    if e.level < 3 && e.since + 4096 ≤ s.now then
      some (s.setCore c { cs with runq := (cs.runq.filter fun r => r.ctx ≠ e.ctx) ++ [{ e with level := e.level + 1, since := s.now }] })
    else none
  | none => none

/-- RUNQUEUE_AGEING (R163). -/
def execRunqueueAgeing (s : State) : Host.Outcome State Fault Refusal := event State.ageEntry s

/-- TIME_SLICE (R163): a strand that has run for 16,384 cycles goes to the tail of its base level when another entry is Ready. -/
def State.timeSlice (s : State) : Option State :=
  let c := s.inp.core
  let cs := s.core c
  match cs.run with
  | some x =>
    if c.isTile && cs.halted.isNone && cs.runSince + 16384 ≤ s.now && (s.nextReady c).isSome then
      some ((s.setCore c { cs with run := none }).enqueue c x)
    else none
  | none => none

/-- TIME_SLICE (R163). -/
def execTimeSlice (s : State) : Host.Outcome State Fault Refusal := event State.timeSlice s

-- Lists of refused senders

/-- The core a message goes to. -/
def Msg.target (m : Msg) : Core := if m.toA then .a m.toTile else .c m.toTile

@[simps] def State.setMsg (s : State) (k : Nat) (m : Msg) : State := { s with msgs := Tbl.put s.msgs k m }

/-- The list entry of a message on its target core. -/
def CoreSt.listing (c : CoreSt) (k mbox : Nat) : Option Listed :=
  match c.ctxList.find? fun e => e.msg = k with
  | some e => some e
  | none => (Tbl.get [] c.ringList mbox).find? fun e => e.msg = k

/-- A message leaves the network and every list (R166). -/
def State.dropMsg (s : State) (k : Nat) (m : Msg) : State :=
  let cs := s.core m.target
  let s := s.setCore m.target { cs with
    ctxList := cs.ctxList.filter fun e => e.msg ≠ k
    ringList := Tbl.set [] cs.ringList m.mbox ((Tbl.get [] cs.ringList m.mbox).filter fun e => e.msg ≠ k) }
  { s with msgs := Tbl.del s.msgs k }

/-- A refusal is recorded (R165): a listed message keeps its place, another enters the list, or is unlisted when it is full. -/
def State.refuse (s : State) (k : Nat) (m : Msg) (ring : Bool) : State :=
  let cs := s.core m.target
  if (cs.listing k m.mbox).isSome then s.setMsg k { m with st := .listed }
  else if ring then
    let l := Tbl.get [] cs.ringList m.mbox
    if l.length < 16 then
      (s.setCore m.target { cs with ringList := Tbl.set [] cs.ringList m.mbox (l ++ [{ msg := k, reservedUntil := none }]) }).setMsg k
        { m with st := .listed }
    else s.setMsg k { m with st := .unlisted s.now }
  else if cs.ctxList.length < 64 then
    (s.setCore m.target { cs with ctxList := cs.ctxList ++ [{ msg := k, reservedUntil := none }] }).setMsg k { m with st := .listed }
  else s.setMsg k { m with st := .unlisted s.now }

/-- Whether a notice reserves for a message. -/
def State.noticed (s : State) (k : Nat) (m : Msg) : Bool :=
  match (s.core m.target).listing k m.mbox with
  | some e => e.reservedUntil.isSome
  | none => false

/-- Whether a message may reach its target now: it is in the network or resends, and no earlier one of its stream stands (R165). (DEDUCED, assumption 73) -/
def State.deliverable (s : State) (k : Nat) (m : Msg) : Bool :=
  (match m.st with
    | .network => true
    | .resend => true
    | .listed => s.noticed k m
    | .unlisted _ => false) && !s.msgBehind k m

/-- A message is discarded with an ERROR event of class 4 (R164, R81). (DEDUCED, assumption 31) -/
def State.discardMsg (s : State) (k : Nat) (m : Msg) : State :=
  (s.dropMsg k m).raiseError 4 (w64 (m.toTile ||| (if m.toA then 0 else 1) <<< 16 ||| m.mbox <<< 17)) (w64 m.fromTile)

-- Arrivals

/-- A context admitted for an arrival (R166); one that arrives while its drain has stopped the launch is saved with it (R174). -/
def State.admitArrival (s : State) (c : Core) (x : Nat) (v : Ctx) : State :=
  let s := s.admitCtx c x v
  if (s.launch v.launch).st = .stopping then s.stopCtx c x else s

/-- A task message takes a context (R164), or is refused. -/
def State.taskArrives (s : State) (k : Nat) (m : Msg) : State :=
  let c := m.target
  let u := m.launch
  match s.freeCtx c u with
  | some x =>
    if s.admits c u (s.noticed k m) then
      let v := newCtx u (Tbl.get 0 (s.core c).mbpc m.mbox) (tmplStackLg (s.launch u).tmpl) (0x80000000 + BitVec.ofNat 32 x) m.mbox s.now
      let r := (List.range m.payload.length).foldl (fun (v : Ctx) i =>
        { v with g := Tbl.set 0 v.g i (m.payload.getD i 0), live := v.live ||| BitVec.twoPow 16 i }) v
      (s.dropMsg k m).admitArrival c x r
    else s.refuse k m false
  | none => s.refuse k m false

/-- The words of a payload stored from a key. -/
def State.storeWords (s : State) (k : Nat) : List Word → State
  | [] => s
  | w :: r => (s.store8 k w).storeWords (k + 8) r

/-- A data message claims a slot, writes its payload and commits (R164, R149), or is refused. A header that R335 would reject discards it. (DEDUCED, assumption 31) -/
def State.dataArrives (s : State) (k : Nat) (m : Msg) : State :=
  let t := m.toTile
  let off := bits (Tbl.get 0 (s.core m.target).mbcfg m.mbox) 31 12
  let key := poolKey t off
  let s := if off + 16 ≤ s.spadBytes t then s.checkWords key 16 else s
  let r := s.ring key
  if off + 16 > s.spadBytes t || s.isPoison (key / 8) || s.isPoison (key / 8 + 1) || !r.ok (s.spadBytes t) ||
      8 * m.payload.length > 2 ^ r.slotlg then s.discardMsg k m
  else
    match s.claim key (claimMsg k) with
    | (some i, s) => ((s.storeWords (poolKey t (r.slotOff i)) m.payload).commit key i).dropMsg k m
    | (none, s) =>
      let s := s.refuse k m true
      match (Tbl.get {} s.msgs k).st with
      | .unlisted _ => s.setRingSt key { s.ringSt key with waiting := (s.ringSt key).waiting.filter (· ≠ claimMsg k) }
      | _ => s

/-- Whether a watermark holds the header that a data message finds, or the slot that it would claim (R137). -/
def State.dataHeld (s : State) (m : Msg) : Bool :=
  let off := bits (Tbl.get 0 (s.core m.target).mbcfg m.mbox) 31 12
  let r := s.ring (poolKey m.toTile off)
  s.heldSpad m.toTile off 16 none || s.heldSpad m.toTile (r.slotOff r.tailSlot) (8 * m.payload.length) none

/-- A message other than a hop reaches its mailbox (R164): as data when the mailbox is armed for data, once no watermark holds what it writes. -/
def State.msgArrival (s : State) (data : Bool) : Option State :=
  let k := s.inp.n
  match Tbl.find s.msgs k with
  | none => none
  | some m =>
    let cfg := Tbl.get 0 (s.core m.target).mbcfg m.mbox
    let isData := bit cfg 0 && bits cfg 2 1 = 1
    if m.kind = .hop || isData ≠ data || !s.deliverable k m then none
    else if isData then (if s.dataHeld m then none else some (s.dataArrives k m))
    else if bit cfg 0 && bits cfg 2 1 = 0 then some (s.taskArrives k m)
    else some (s.discardMsg k m)

/-- TASK_MESSAGE_ARRIVAL (R164) of message `n`. -/
def execTaskMessageArrival (s : State) : Host.Outcome State Fault Refusal := event (fun s => s.msgArrival false) s

/-- DATA_MESSAGE_ARRIVAL (R164) of message `n`. -/
def execDataMessageArrival (s : State) : Host.Outcome State Fault Refusal := event (fun s => s.msgArrival true) s

/-- The context in which a hopping strand goes on (R167, R310): its live registers, PC, `STRAND_ID`, base priority and the special registers held
per context. -/
def hopCtx (c : Ctx) : Ctx :=
  { c.settled with st := .ready, g := c.g.filter fun e => c.live.getLsbD e.1 }

/-- HOP_MESSAGE_ARRIVAL (R164, R167) of message `n`. -/
def State.hopArrival (s : State) : Option State :=
  let k := s.inp.n
  match Tbl.find s.msgs k with
  | none => none
  | some m =>
    match m.kind, m.carried with
    | .hop, some v =>
      if !s.deliverable k m then none
      else
        let c := m.target
        match s.freeCtx c m.launch with
        | some x =>
          if s.admits c m.launch (s.noticed k m) then
            some (((s.dropMsg k m).admitArrival c x (hopCtx v)).freeContext (coreOfIx (m.srcCtx / 32)) (m.srcCtx % 32))
          else some (s.refuse k m false)
        | none => some (s.refuse k m false)
    | _, _ => none

/-- HOP_MESSAGE_ARRIVAL (R164). -/
def execHopMessageArrival (s : State) : Host.Outcome State Fault Refusal := event State.hopArrival s

-- Notices

/-- Whether a launch is the producer of another on a tile. -/
def State.isProducer (s : State) (u t : Nat) : Bool := (s.tile t).runs.any fun v => s.isDependent v t && (s.launch v).producer = some u

/-- CONTEXT_FREE_NOTICE (R166) on core `core`: a free context is reserved for 512 cycles, for a producer's oldest listed sender first. -/
def State.contextNotice (s : State) : Option State :=
  let c := s.inp.core
  let cs := s.core c
  let of (e : Listed) : Nat := (Tbl.get {} s.msgs e.msg).launch
  let free (e : Listed) : Bool := s.freeCount c (of e) > s.reserved c
  let prod (e : Listed) : Bool := e.reservedUntil.isNone && s.isProducer (of e) c.tileNo
  let ok : Listed → Bool := if cs.ctxList.any prod then fun e => s.isProducer (of e) c.tileNo && free e
    else fun e => s.mayHold c (of e) && free e
  if !c.isTile || !(cs.ctxList.any fun e => e.reservedUntil.isNone && ok e) then none
  else some (s.setCore c { cs with ctxList := notice (s.now + 512) ok cs.ctxList })

/-- CONTEXT_FREE_NOTICE (R166). -/
def execContextFreeNotice (s : State) : Host.Outcome State Fault Refusal := event State.contextNotice s

/-- RING_SPACE_NOTICE (R166) for mailbox `n` of core `core`: a free slot is reserved for the oldest claim, a listed message. -/
def State.ringNotice (s : State) : Option State :=
  let c := s.inp.core
  let cs := s.core c
  let m := s.inp.n
  let key := poolKey c.tileNo (bits (Tbl.get 0 cs.mbcfg m) 31 12)
  let first := ((s.ringSt key).waiting.filter s.claimLive).head?
  let l := Tbl.get [] cs.ringList m
  let ok (e : Listed) : Bool := first = some (claimMsg e.msg)
  if !c.isTile || (s.ring key).free = 0 || !(l.any fun e => e.reservedUntil.isNone && ok e) then none
  else some (s.setCore c { cs with ringList := Tbl.set [] cs.ringList m (notice (s.now + 512) ok l) })

/-- RING_SPACE_NOTICE (R166). -/
def execRingSpaceNotice (s : State) : Host.Outcome State Fault Refusal := event State.ringNotice s

/-- NOTICE_RESERVATION_EXPIRY (R166) of message `n` on core `core`: 512 cycles without the resend send it to the tail of its list, and the context is free again. -/
def State.noticeExpiry (s : State) : Option State :=
  let c := s.inp.core
  let cs := s.core c
  let k := s.inp.n
  let due (l : List Listed) : Bool := l.any fun e => e.msg = k && e.expired s.now
  let one (l : List Listed) : List Listed :=
    if due l then (l.filter fun e => e.msg ≠ k) ++ [{ msg := k, reservedUntil := none, lapsed := true }] else l
  if due cs.ctxList || cs.ringList.any fun e => due e.2 then
    some (s.setCore c { cs with ctxList := one cs.ctxList, ringList := cs.ringList.map fun (e : Nat × List Listed) => (e.1, one e.2) })
  else none

/-- NOTICE_RESERVATION_EXPIRY (R166). -/
def execNoticeReservationExpiry (s : State) : Host.Outcome State Fault Refusal := event State.noticeExpiry s

/-- UNLISTED_RESEND (R165) of message `n`, 2,048 cycles after its refusal. -/
def State.unlistedResend (s : State) : Option State :=
  match Tbl.find s.msgs s.inp.n with
  | some m =>
    match m.st with
    | .unlisted t => if t + 2048 ≤ s.now then some (s.setMsg s.inp.n { m with st := .resend }) else none
    | _ => none
  | none => none

/-- UNLISTED_RESEND (R165). -/
def execUnlistedResend (s : State) : Host.Outcome State Fault Refusal := event State.unlistedResend s

end Sys2Proof.Machine
end

