-- ==== Sys2Proof/Machine/Mmu.lean ====
section
/-! DEFINITION. Tickets and their outcomes (R93, R112, R114), host translations (R116), shoot-downs (R117 to R120, R94) and migrations (R122
to R124). -/

namespace Sys2Proof.Machine

-- Tickets

/-- The open ticket that `XF_DONE` names by its low 32 bits (R78). -/
def State.ticketNo (s : State) (v : Word) : Option Nat := (s.tickets.find? fun e => e.1 % 2 ^ 32 = bits v 31 0).map Prod.fst

/-- The control cores with waiting descriptors try again to enter them (R209). -/
def State.flushAll (s : State) : State := (s.ccs.filter fun e => !e.2.orphans.isEmpty).foldl (fun s e => s.flushOrphans e.1) s

/-- A ticket closes with retry (R93): every agent that joined translates again; a frozen copy goes on from its watermark. -/
def State.ticketRetry (s : State) (n : Nat) : State :=
  { s with
    tickets := Tbl.del s.tickets n
    copies := s.copies.map fun (e : Nat × Copy) =>
      if e.2.ticket = some n then
        (e.1, { e.2 with ticket := none, st := if e.2.st = CopyState.frozen && !e.2.drained then .running else e.2.st })
      else e
    tiles := s.tiles.map fun (e : Nat × Tile) => (e.1, { e.2 with
      loadQ := e.2.loadQ.map fun c => if c.ticket = some n then { c with ticket := none } else c
      matRun := e.2.matRun.map fun c => if c.ticket = some n then { c with ticket := none } else c })
    queues := s.queues.map fun (e : Nat × UQueue) => (e.1, { e.2 with
      ticket := if e.2.ticket = some n then none else e.2.ticket
      win := e.2.win.map fun (w : Nat × WinEntry) => (w.1, if w.2.ticket = some n then { w.2 with ticket := none } else w.2) })
    cmds := s.cmds.map fun (e : Nat × CmdSlot) => (e.1, if e.2.ticket = some n then { e.2 with ticket := none } else e.2)
    launches := s.launches.map fun (e : Nat × Launch) => (e.1, if e.2.ticket = some n then { e.2 with ticket := none } else e.2) : State }.flushAll

/-- The oldest waiting descriptor of a control core takes its place unwritten where its entry lies on a page that has failed (R112). -/
def State.skipOrphan (s : State) (c : Nat) (pages : List Nat) (pasid : Nat) : State :=
  let v := s.cc c
  if !v.orphans.isEmpty && 0 < s.rqFree c && v.pasid = pasid && pages.contains (s.rqAddr c / 65536) then
    s.setCc c { v.rqNext with orphans := v.orphans.tail }
  else s

/-- A stream notes a failed page for the element it waits to perform, or to fetch (R362). -/
def State.streamFailed (s : State) (pages : List Nat) (pasid : Nat) (tl : Tile) (n : Nat) (v : Stream) : Stream :=
  let v := match v.pushed with
    | q :: _ => if pages.contains ((v.addr q.p).toNat / 65536) && (s.launch q.launch).pasid = pasid then { v with failed := pages ++ v.failed } else v
    | [] => v
  let p := tl.fetchAt n
  if v.bound && fld v.desc 288 288 = 0 && pages.contains ((v.addr p).toNat / 65536) && (s.launch v.launch).pasid = pasid then
    { v with readFailed := pages ++ v.readFailed }
  else v

/-- The pages of a ticket, several where accesses to one huge page have joined it (R80), noted with what waits on it as it fails (R112, R41, R54).
(DEDUCED, assumption 40) -/
def State.noteFailed (s : State) (n : Nat) (pages : List Nat) (pasid : Nat) : State :=
  let s1 : State := { s with
    ctxs := s.ctxs.map fun (e : Nat × Ctx) => if e.2.await = .ticket n then (e.1, { e.2 with failed := pages ++ e.2.failed }) else e
    tiles := s.tiles.map fun (e : Nat × Tile) => (e.1, { e.2 with
      loadQ := e.2.loadQ.map fun c => if c.ticket = some n then { c with failed := true } else c
      matRun := e.2.matRun.map fun c => if c.ticket = some n then { c with failed := true } else c
      strm := e.2.strm.map fun (v : Nat × Stream) => (v.1, s.streamFailed pages pasid e.2 v.1 v.2) })
    copies := s.copies.map fun (e : Nat × Copy) => (e.1, if e.2.ticket = some n then { e.2 with failed := pages ++ e.2.failed } else e.2)
    queues := s.queues.map fun (e : Nat × UQueue) => (e.1, { e.2 with
      failed := if e.2.ticket = some n && !e.2.writing then pages ++ e.2.failed else e.2.failed
      failedWb := if e.2.ticket = some n && e.2.writing then pages ++ e.2.failedWb else e.2.failedWb
      win := e.2.win.map fun (w : Nat × WinEntry) =>
        (w.1, if w.2.ticket = some n then { w.2 with failed := pages ++ w.2.failed } else w.2) })
    cmds := s.cmds.map fun (e : Nat × CmdSlot) => (e.1, if e.2.ticket = some n then { e.2 with failed := pages ++ e.2.failed } else e.2)
    launches := s.launches.map fun (e : Nat × Launch) =>
      (e.1, if e.2.ticket = some n then { e.2 with failed := pages ++ e.2.failed } else e.2) }
  (s.ccs.map Prod.fst).foldl (fun s c => s.skipOrphan c pages pasid) s1

/-- A ticket closes with fail (R93): a core's access delivers poison, a copy aborts with error 5, one whose template it was ends with error 9 (R131),
and one that aborts already passes over the page. (DEDUCED, assumption 40) -/
def State.ticketFail (s : State) (n : Nat) : State :=
  match Tbl.find s.tickets n with
  | none => s
  | some t =>
    let cs := s.copies.filter fun e => e.2.ticket = some n
    let s := (s.noteFailed n (t.page :: t.also) t.pasid).ticketRetry n
    cs.foldl (fun s e => if e.2.st = .accepting && e.2.tmplAddr.isSome then s.copyRefuse e.1 9 else s.abortCopy e.1 5) s

/-- A write of `XF_DONE` (R78, R93): outcome 2 or 3 is ignored, and so is a ticket that is closed. -/
def State.xfDone (s : State) (v : Word) : State :=
  match s.ticketNo v with
  | none => s
  | some n => if bits v 33 32 = 0 then s.ticketRetry n else if bits v 33 32 = 1 then s.ticketFail n else s

/-- XF_DONE_RETRY (R93): firmware core `n` closes the ticket in `v` with retry. -/
def execXfDoneRetry (s : State) : Host.Outcome State Fault Refusal :=
  event (fun s => match s.ticketNo s.inp.v with
    | some n => some (s.ticketRetry n)
    | none => none) s

/-- XF_DONE_FAIL (R93): firmware core `n` closes the ticket in `v` with fail. -/
def execXfDoneFail (s : State) : Host.Outcome State Fault Refusal :=
  event (fun s => match s.ticketNo s.inp.v with
    | some n => some (s.ticketFail n)
    | none => none) s

-- Host translations

/-- Whether a host invalidation that waits covers a page (R116). -/
def State.invalidated (s : State) (pasid va : Nat) : Bool :=
  s.atsInv.any fun e => e.2.pasid = pasid && e.2.va < va + 2 ^ 25 && va < e.2.va + e.2.len

/-- ATS_RESPONSE (R116) to request `n`: the host address `v` with `flag`, or no translation; held while an invalidation of the range waits. (DESIGN CHOICE, assumption 72) -/
def State.atsResponse (s : State) : Option State :=
  match Tbl.find s.ats s.inp.n with
  | some r =>
    if r.answered.isSome || s.invalidated r.pasid r.va then none
    else some { s with ats := Tbl.put s.ats s.inp.n { r with answered := some (if s.inp.flag then some s.inp.v.toNat else none) } }
  | none => none

/-- ATS_RESPONSE (R116). -/
def execAtsResponse (s : State) : Host.Outcome State Fault Refusal := event State.atsResponse s

/-- Shoot-downs outstanding (R117). -/
def State.sdCount (s : State) : Nat := s.shootdowns.length

/-- A shoot-down put on the list under number `k` of the model and the next id (R117). -/
def State.startSd (s : State) (k : Nat) (d : Shootdown) : State :=
  { s with shootdowns := Tbl.put s.shootdowns k { d with id := s.sdNext.toNat, since := s.now, sent := true }, sdNext := s.sdNext + 1 }

/-- The host's invalidations whose shoot-downs have not begun begin them, oldest first, while fewer than 16 are outstanding (R14, R116, R117). -/
def State.startAts (s : State) : State :=
  (s.atsInv.filter fun e => (Tbl.find s.shootdowns e.1).isNone).foldl (fun s e =>
    if 16 ≤ s.sdCount then s else s.startSd e.1 { pasid := e.2.pasid, va := e.2.va, npages := e.2.len / 65536 }) s

/-- ATS_INVALIDATION (R116, R14): the host invalidates `u` bytes at `v` of PASID `n`; the answer waits for a shoot-down over the range. -/
def State.atsInvalidation (s : State) : Option State :=
  if 256 ≤ s.atsInv.length || s.inp.u = 0 then none
  else
    let va := s.inp.v.toNat / 65536 * 65536
    let n := (s.inp.v.toNat + s.inp.u.toNat + 65535) / 65536 - va / 65536
    let (k, s) := s.newId
    some ({ s with atsInv := Tbl.put s.atsInv k { pasid := s.inp.n, va := va, len := n * 65536 } } : State).startAts

/-- ATS_INVALIDATION (R116). -/
def execAtsInvalidation (s : State) : Host.Outcome State Fault Refusal := event State.atsInvalidation s

/-- PRI_RESPONSE (R93): the host supplies the page of ticket `n`, and the firmware writes retry. -/
def State.priResponse (s : State) : Option State :=
  match Tbl.find s.tickets s.inp.n with
  | some t => if t.pri.isSome then some (s.ticketRetry s.inp.n) else none
  | none => none

/-- PRI_RESPONSE (R93). -/
def execPriResponse (s : State) : Host.Outcome State Fault Refusal := event State.priResponse s

/-- PRI_TIMEOUT (R93): the host has left the page request of ticket `n` unanswered for 100 ms, and the firmware writes fail. -/
def State.priTimeout (s : State) : Option State :=
  match Tbl.find s.tickets s.inp.n with
  | some t =>
    match t.pri with
    | some u => if u + 100000 ≤ s.us then some (s.ticketFail s.inp.n) else none
    | none => none
  | none => none

/-- PRI_TIMEOUT (R93). -/
def execPriTimeout (s : State) : Host.Outcome State Fault Refusal := event State.priTimeout s

-- Shoot-downs

/-- Whether a shoot-down covers a part of [va, va + n) of a PASID (R118). -/
def Shootdown.covers (d : Shootdown) (pasid va n : Nat) : Bool :=
  d.allp || (d.pasid = pasid && (d.npages = 0 || (d.va < va + n && va < d.va + d.npages * 65536)))

/-- The page of an answer of ATS: a huge page's where its base may be one. -/
def AtsReq.span (r : AtsReq) : Nat := if r.va % 2 ^ 25 = 0 then 2 ^ 25 else 2 ^ 16

/-- Agents that satisfy `p` discard the translations that a shoot-down covers, the host's answers not yet taken among them (R119, R116), and the
walkers the entries that a covered walk has used (R118). -/
def State.discardTlb (s : State) (d : Shootdown) (p : Nat → Bool) : State :=
  { s with
    tlb := s.tlb.filter fun e => !(p e.agent && d.covers e.pasid e.va (if e.huge then 2 ^ 25 else 2 ^ 16))
    ats := s.ats.filter fun e => !(p e.2.agent && e.2.answered.isSome && d.covers e.2.pasid e.2.va e.2.span)
    nodes := s.nodes.filter fun e => !(d.tables && p (0x10C0 + e.die) && e.uses.any fun u => d.covers u.1 u.2 (nodeSpan e.level)) }

/-- Whether an agent of R101 may leave an invalidation unacknowledged: one that is idle, power-gated, halted by a debugger or frozen, or that waits for
a ticket, acknowledges without delay (R120, R94). -/
def State.mayDelay (s : State) (a : Nat) : Bool :=
  let runs (c : Core) : Bool := (s.core c).halted.isNone && ((s.core c).run.isSome || !c.isTile) && (match (s.ctx (ctxKey c 0)).await with
    | .ticket _ => c.isTile
    | _ => true)
  if a < 0x1000 then
    let t := s.tile a
    t.runs ≠ [] && (s.core (.a a)).halted.isNone && (s.core (.c a)).halted.isNone &&
      (runs (.a a) || runs (.c a) || !t.loadQ.isEmpty || t.matRun.isSome || (t.strm.any fun e => e.2.bound) ||
        s.copies.any fun e => e.2.engine = .tile a && e.2.st = .running && !e.2.drained)
  else if a < 0x1020 then s.copies.any fun e => e.2.engine = .stream (a - 0x1000) && e.2.st = .running && !e.2.drained
  else if 0x1040 ≤ a && a < 0x1080 then (s.cc (a - 0x1040)).on && runs (.cc (a - 0x1040))
  else if 0x1080 ≤ a && a < 0x1090 then (s.fw (a - 0x1080)).up && runs (.fc (a - 0x1080))
  else (0x10C0 ≤ a && a < 0x10CA) || a = 0x1100

/-- Agents that cannot have acknowledged: they still hold a translation that the shoot-down covers (R119). -/
def State.holding (s : State) (d : Shootdown) : List Nat :=
  ((s.tlb.filter fun e => d.covers e.pasid e.va (if e.huge then 2 ^ 25 else 2 ^ 16)).map Tlb.agent).eraseDups.filter s.mayDelay

/-- Whether an access forwarded by a migration has still to be applied (R123). -/
def State.migPending (s : State) (d : Shootdown) : Bool :=
  match d.mig with
  | some k => (match Tbl.find s.migrations k with
    | some m => m.queued.any s.accessLive
    | none => false)
  | none => false

/-- A firmware core's last migration has ended with a status, if it is this one (R117). -/
def State.migStatus (s : State) (fc k st : Nat) : State :=
  if (s.fw fc).migOf = k && (s.fw fc).mig.isNone then s.setFw fc { s.fw fc with mig := some st } else s

/-- A shoot-down completes (R119), unless a later request of its core has been refused as that core's last (R117): a migration's ends with it, but for
accesses that it has redirected, or that a forced end leaves queued at the new home, and that are still to come (R123, R124); the host's invalidation is answered, and the next one that waits begins its own. -/
def State.sdDone (s : State) (k : Nat) (forced : Bool) : State :=
  match Tbl.find s.shootdowns k with
  | none => s
  | some d =>
    let s := s.discardTlb d fun _ => true
    let s := ({ s with shootdowns := Tbl.del s.shootdowns k, atsInv := Tbl.del s.atsInv k } : State).startAts
    let s := match d.fc with
      | some fc => if (s.fw fc).sd = d.id && (s.fw fc).sdResult ≠ some 2 then s.setFw fc { s.fw fc with sdResult := some 0 } else s
      | none => s
    match d.mig with
    | some n =>
      match Tbl.find s.migrations n with
      | some m =>
        let m := { m with queued := m.queued.filter s.accessLive, redirected := m.redirected.filter s.accessLive }
        let s : State := { s with migrations := if m.queued = [] && m.redirected = [] then Tbl.del s.migrations n else Tbl.put s.migrations n { m with stage := 4 } }
        s.migStatus m.fc n (if forced || d.forced then 5 else 0)
      | none => s
    | none => s

/-- A write of `SD_REQ` (R117, R118): a misaligned or unreadable descriptor is refused, and `SD_WAIT` then shows the id of the core's last accepted request;
false while it stalls, with 16 outstanding or for its descriptor. (DESIGN CHOICE, assumption 102) -/
def State.sdReq (s : State) (fc : Nat) (a : Word) : Bool × State :=
  if 16 ≤ s.sdCount then (false, s)
  else
    match s.fcRecord fc a 32 with
    | (.later, s) => (false, s)
    | (.bad, s) => (true, s.setFw fc { s.fw fc with sdResult := some 2 })
    | (.ok v, s) =>
      let d : BitVec 256 := BitVec.ofNat 256 v
      let id := s.sdNext.toNat
      let (k, s) := s.newId
      let s := s.startSd k { pasid := fld d 63 44, va := fld d 127 64 / 65536 * 65536, npages := fld d 159 128, allp := d.getLsbD 1,
                             tables := d.getLsbD 0, fc := some fc }
      (true, s.setFw fc { s.fw fc with sd := id, sdResult := none })

/-- SD_REQ (R117): value `v` written by firmware core `n`. -/
def execSdReq (s : State) : Host.Outcome State Fault Refusal :=
  event (fun s => if s.inp.n < 16 then some (s.sdReq s.inp.n s.inp.v).2 else none) s

/-- SHOOTDOWN_COMPLETE (R119): the last agent acknowledges shoot-down `n`. -/
def State.sdComplete (s : State) : Option State :=
  match Tbl.find s.shootdowns s.inp.n with
  | some d => if s.migPending d then none else some (s.sdDone s.inp.n false)
  | none => none

/-- SHOOTDOWN_COMPLETE (R119). -/
def execShootdownComplete (s : State) : Host.Outcome State Fault Refusal := event State.sdComplete s

/-- SDTIMEOUT (R94, R119) of shoot-down `n`, 16,384 cycles after an invalidation of it that has not timed out yet; `data` names the agents that have
not acknowledged, in the order in which the event counts them: `ARG1` names the first. (DESIGN CHOICE, assumption 103) -/
def State.sdTimeout (s : State) : Option State :=
  match Tbl.find s.shootdowns s.inp.n with
  | none => none
  | some d =>
    let miss := (s.inp.data.map BitVec.toNat).eraseDups.filter s.mayDelay
    let left := if d.timeouts = 0 then miss else miss.filter d.missing.contains
    if !d.sent || s.now < d.since + 16384 || left.isEmpty then none
    else
      let s := s.discardTlb d fun a => !left.contains a
      let s := { s with shootdowns := Tbl.put s.shootdowns s.inp.n { d with missing := left, timeouts := d.timeouts + 1, sent := false } }
      let s := match d.fc with
        | some fc => if (s.fw fc).sd = d.id && (s.fw fc).sdResult.isNone then s.setFw fc { s.fw fc with sdResult := some 1 } else s
        | none => s
      some (s.raiseEvent 3 none (w64 d.id) (w64 (left.headD 0)) (w64 left.length))

/-- SDTIMEOUT (R94). -/
def execSdtimeout (s : State) : Host.Outcome State Fault Refusal := event State.sdTimeout s

/-- The outstanding shoot-down with an id. -/
def State.sdById (s : State) (id : Nat) : Option (Nat × Shootdown) := s.shootdowns.find? fun e => e.2.id = id

/-- A write of `SD_RETRY` (R117): the invalidation goes again to the agents that have not acknowledged. -/
def State.sdRetry (s : State) (v : Word) : State :=
  match s.sdById (bits v 15 0) with
  | some (k, d) => { s with shootdowns := Tbl.put s.shootdowns k { d with since := s.now, sent := true } }
  | none => s

/-- SD_RETRY (R117): value `v` written by firmware core `n`. -/
def execSdRetry (s : State) : Host.Outcome State Fault Refusal :=
  event (fun s => if (s.sdById (bits s.inp.v 15 0)).isSome then some (s.sdRetry s.inp.v) else none) s

/-- An agent is reset (R94): its copies abort with error 7 (R385), the launches that use it take status 4, and an ERROR event of class 5 names it. -/
def State.resetAgent (s : State) (id a : Nat) : State :=
  let s := s.abortCopies (fun c => c.engine.agent = a) 7
  let us := (s.launches.filter fun e => a < 0x1000 && e.2.covers a && (e.2.st = .running || e.2.st = .draining || e.2.st = .stopping)).map Prod.fst
  let s := us.foldl (fun s u => s.discardLaunch u 4) s
  ({ s with tlb := s.tlb.filter fun e => e.agent ≠ a }).raiseError 5 (w64 a) (w64 id)

/-- A write of `SD_FORCE` (R117, R94): the agents that have not acknowledged are reset, and the shoot-down completes. -/
def State.sdForce (s : State) (v : Word) : State :=
  match s.sdById (bits v 15 0) with
  | some (k, d) => ((if d.timeouts = 0 then s.holding d else d.missing).foldl (fun s a => s.resetAgent d.id a) s).sdDone k true
  | none => s

/-- SD_FORCE (R117): value `v` written by firmware core `n`. -/
def execSdForce (s : State) : Host.Outcome State Fault Refusal :=
  event (fun s => if (s.sdById (bits s.inp.v 15 0)).isSome then some (s.sdForce s.inp.v) else none) s

-- Migrations

/-- The leaf of a page whatever it allows (R122): leaf, its DPA, and whether it maps a huge page. -/
def State.leafOf (s : State) (pasid va : Nat) : Option (Word × Nat × Bool) × State :=
  let base := s.ptabBase.toNat + 8 * pasid
  let ((v, p), s) := if s.hasMemory base then s.load base 8 else ((0, true), s)
  let e := w64 v
  if p || !bit e 0 then (none, s) else s.walkGo 8 pasid va (bits e 51 12 <<< 12) walkLevels

/-- Whether a migration's new frame is in order (R122, R108, R30). -/
def State.newFrameOk (s : State) (dpa home loc : Nat) (huge : Bool) : Bool :=
  loc ≤ 1 && dpa % (if huge then 2 ^ 25 else 2 ^ 16) = 0 && dpa < 2 ^ 52 &&
    s.frameUsable (w64 (dpa ||| home <<< 55 ||| loc <<< 52)) huge

/-- Whether a page at `dpa` would overwrite a tier copy that a checkpoint refers to: a write-back goes to a fresh location (R25). (DEDUCED, assumption 43) -/
def State.tierCopyHeld (s : State) (dpa : Nat) (huge : Bool) : Bool :=
  ((if s.ckpt.seq = 0 then [] else s.goodImage.refs) ++ (if s.ckpt.status = 2 then s.ckpt.backed else [])).any fun e =>
    dpa / 65536 ≤ e.2 && e.2 < dpa / 65536 + (if huge then 512 else 1)

/-- What earlier migrations have still to apply at a frame that moves now (R123): one that was given up there, and one that forwarded its queue to it.
Those with nothing left to apply go. (DEDUCED, assumption 69) -/
def State.oldQueue (s : State) (frame : Nat) : List (Nat × Nat) × State :=
  let past (e : Nat × Migration) : Bool := e.2.stage = 3 && e.2.oldFrame = frame
  let spent (e : Nat × Migration) : Bool :=
    (e.2.stage = 3 && !e.2.queued.any s.accessLive) || (e.2.stage = 4 && !(e.2.queued ++ e.2.redirected).any s.accessLive)
  let here (e : Nat × Migration) : Bool := (e.2.stage = 2 || e.2.stage = 4) && e.2.newFrame = frame
  ((s.migrations.filter fun e => here e || past e).flatMap fun e => e.2.queued.filter s.accessLive,
    { s with migrations := (s.migrations.filter fun e => !(past e || spent e)).map fun (e : Nat × Migration) =>
        if here e then (e.1, { e.2 with queued := [] }) else e })

/-- A write of `MIG_REQ` (R117, R122, R123 step 1); false while it waits for its descriptor. One that cannot be read ends with status 3. -/
def State.migReq (s : State) (fc : Nat) (a : Word) : Bool × State :=
  let fail (s : State) (st : Nat) : Bool × State := (true, s.setFw fc { s.fw fc with migOf := 0, mig := some st })
  match s.fcRecord fc a 32 with
  | (.later, s) => (false, s)
  | (.bad, s) => fail s 3
  | (.ok v, s) =>
    let d : BitVec 256 := BitVec.ofNat 256 v
    let pasid := fld d 63 44
    let va := fld d 191 128
    match s.leafOf pasid va with
    | (none, s) => fail s 1
    | (some (leaf, dpa, huge), s) =>
      if leafLoc leaf ≥ 2 then fail s 1
      else if leafMig leaf then fail s 2
      else if !s.newFrameOk (fld d 255 192) (fld d 7 5) (fld d 4 3) huge || s.tierCopyHeld (fld d 255 192) huge then fail s 3
      else
        let s := s.storeWord dpa 8 (putBit leaf 54 true).toNat false
        let (k, s) := s.newId
        let (old, s) := s.oldQueue (leafFrame leaf)
        let m : Migration := { stage := 1, pasid := pasid, va := va, huge := huge, leafDpa := dpa, oldFrame := leafFrame leaf,
                               newFrame := fld d 255 192, nhome := fld d 7 5, nloc := fld d 4 3, fc := fc,
                               queued := old }
        (true, ({ s with migrations := Tbl.put s.migrations k m } : State).setFw fc { s.fw fc with migOf := k, mig := none })

/-- MIG_REQ (R122): value `v` written by firmware core `n`. -/
def execMigReq (s : State) : Host.Outcome State Fault Refusal :=
  event (fun s => if s.inp.n < 16 then some (s.migReq s.inp.n s.inp.v).2 else none) s

/-- A frame streamed to another in address order, poison with it (R123 step 2), and poison made of what a failed port holds (R35); full/empty bits where
the new frame keeps them. -/
def State.copyFrame (s : State) (a b n : Nat) : State :=
  let s := (s.hard.filter fun e => a ≤ e.1 * 8 && e.1 * 8 < a + n).foldl (fun s e => s.checkWord e.1) s
  let dead := (List.range (n / 4096)).filter fun i => s.portFailed (a + 4096 * i)
  let r := s.clearRange b (b + n)
  let r := { r with
    mem := (cellsIn s.mem a (a + n)).foldl (fun m c => Memory.set m (c.1 - a + b) c.2) r.mem
    poison := (flagsIn s.poison a (a + n)).foldl (fun m c => Tbl.set false m (c.1 - a / 8 + b / 8) c.2) r.poison
    empty := if isHbm b then (flagsIn s.empty a (a + n)).foldl (fun m c => Tbl.set false m (c.1 - a / 8 + b / 8) c.2) r.empty else r.empty }
  let r := dead.foldl (fun r i => (List.range 512).foldl (fun r j => r.poisonWord ((b + 4096 * i) / 8 + j)) r) r
  (List.range (n / 65536)).foldl (fun r i => r.touchFrame (b + 65536 * i)) r

/-- The leaf that a migration leaves (R123 step 3). -/
def Migration.leaf (m : Migration) (e : Word) : Word :=
  putBits (putBits (putBits (putBit e 54 false) 16 36 (w64 (m.newFrame >>> 16))) 52 2 (w64 m.nloc)) 55 3 (w64 m.nhome)

/-- A full/empty bit that an access waits on moves with its word to the new frame. -/
def Await.moved (m : Migration) (a : Await) : Await :=
  let at_ (k : Nat) : Nat := if m.oldFrame ≤ k * 8 && k * 8 < m.oldFrame + m.size then k - m.oldFrame / 8 + m.newFrame / 8 else k
  match a with
  | .full k => .full (at_ k)
  | .empty k => .empty (at_ k)
  | a => a

/-- MIGRATION_STREAM_END (R123 steps 2 to 5) of migration `n`. (DEDUCED, assumption 69) -/
def State.streamEnd (s : State) : Option State :=
  match Tbl.find s.migrations s.inp.n with
  | none => none
  | some m =>
    if m.stage ≠ 1 || 16 ≤ s.sdCount then none
    else
      let s := s.copyFrame m.oldFrame m.newFrame m.size
      let s := s.storeWord m.leafDpa 8 (m.leaf (s.wordAt (m.leafDpa / 8))).toNat false
      let s : State := { s with
        migrations := Tbl.put s.migrations s.inp.n { m with stage := 2 }
        ctxs := s.ctxs.map fun (e : Nat × Ctx) => (e.1, { e.2 with await := e.2.await.moved m })
        waiters := s.waiters.map fun (e : Nat × Await) => (e.1, e.2.moved m) }
      let n := s.inp.n
      let (k, s) := s.newId
      some (s.startSd k { pasid := m.pasid, va := m.va / 65536 * 65536, npages := 1, mig := some n })

/-- MIGRATION_STREAM_END (R123). -/
def execMigrationStreamEnd (s : State) : Host.Outcome State Fault Refusal := event State.streamEnd s

/-- REDIRECT_NOTICE (R123 step 5, R124): agent `m` takes the new leaf of migration `n` into its cached translation. (DEDUCED, assumption 69) -/
def State.redirect (s : State) : Option State :=
  match Tbl.find s.migrations s.inp.n with
  | some m =>
    let hit (e : Tlb) : Bool := e.agent = s.inp.m && e.leafDpa = m.leafDpa && leafFrame e.leaf = m.oldFrame
    if m.stage = 2 && s.tlb.any hit then
      some { s with tlb := s.tlb.map fun e => if hit e then { e with leaf := m.leaf e.leaf } else e }
    else none
  | none => none

/-- REDIRECT_NOTICE (R124). -/
def execRedirectNotice (s : State) : Host.Outcome State Fault Refusal := event State.redirect s

/-- QUEUE_SPACE_NOTICE (R123) of migration `n`: the agent refused longest retries, once the home's queue has room. -/
def State.queueSpace (s : State) : Option State :=
  match Tbl.find s.migrations s.inp.n with
  | some m =>
    match m.refused with
    | _ :: r =>
      if m.stage ≠ 1 || (m.queued.filter s.accessLive).length < 256 then
        some { s with migrations := Tbl.put s.migrations s.inp.n { m with refused := r, queued := m.queued.filter s.accessLive } }
      else none
    | [] => none
  | none => none

/-- QUEUE_SPACE_NOTICE (R123). -/
def execQueueSpaceNotice (s : State) : Host.Outcome State Fault Refusal := event State.queueSpace s

/-- A migration whose stream a failed tier port ends (R122 status 4, R123): the page stays, `MIG` 0, and its queue is applied there. -/
def State.migGiveUp (s : State) (k : Nat) : State :=
  match Tbl.find s.migrations k with
  | some m =>
    let s := s.storeWord m.leafDpa 8 (putBit (s.wordAt (m.leafDpa / 8)) 54 false).toNat false
    ({ s with migrations := Tbl.put s.migrations k { m with stage := 3, refused := [] } } : State).migStatus m.fc k 4
  | none => s

end Sys2Proof.Machine
end

