-- ==== Sys2Proof/Machine/Firmware.lean ====
section
/-! DEFINITION. The firmware complex (R76 to R83): events handed to cores, ordering locks, timers, the watchdog; and the slot commands (R88,
R89). -/

namespace Sys2Proof.Machine

/-- Held events enter the queue as space frees, oldest first (R82). -/
def State.drainHeld (s : State) : State :=
  match s.evHeld with
  | e :: r => if s.evq.length < 4096 then { s with evHeld := r, evq := s.evq ++ [{ e with seq := s.evSeq.toNat }], evSeq := s.evSeq + 1 } else s
  | [] => s

/-- Word `i` of an event record (R79). -/
def Event.word (e : Event) (i : Nat) : Word :=
  match i with
  | 0 => w64 (e.seq % 2 ^ 32 ||| (match e.qid with
      | some q => 1 <<< 43 ||| q <<< 44
      | none => 0) ||| e.etype <<< 56)
  | 1 => e.arg0
  | 2 => e.arg1
  | _ => e.arg2

/-- Whether a firmware core holds the ordering lock of a queue (R83). -/
def State.locked (s : State) (q : Nat) : Bool := s.fws.any fun e => e.2.locks.contains q

/-- The end of a handler (R78, R83): the core's ordering locks are released. -/
def State.evqDone (s : State) (fc : Nat) : State := s.setFw fc { s.fw fc with handling := false, locks := [] }

/-- A read of `EVQ_TAKE` begins (R78): the handler ends, and the core is idle until an event is handed to it. -/
def State.evqTake (s : State) (fc : Nat) : State := (s.evqDone fc).setFw fc { (s.evqDone fc).fw fc with taking := true }

/-- EVQ_TAKE (R78): firmware core `n` begins to wait for an event. -/
def execEvqTake (s : State) : Host.Outcome State Fault Refusal :=
  event (fun s => if s.inp.n < 16 && (s.fw s.inp.n).up && !(s.fw s.inp.n).taking then some (s.evqTake s.inp.n) else none) s

/-- EVQ_DONE (R78): firmware core `n` ends its handler. -/
def execEvqDone (s : State) : Host.Outcome State Fault Refusal :=
  event (fun s => if s.inp.n < 16 then some (s.evqDone s.inp.n) else none) s

/-- Whether an event may be handed out (R82). -/
def State.eventFree (s : State) (e : Event) : Bool :=
  match e.qid with
  | some q => !s.locked q
  | none => true

/-- EVENT_HANDOFF (R82, R83): the lowest-numbered idle core takes the oldest event whose queue no core has locked, and its lock. -/
def State.handoff (s : State) : Option State :=
  match leastBelow (fun n => (s.fw n).up && (s.fw n).taking) 16, s.evq.find? s.eventFree with
  | some fc, some e =>
    let s := { s with evq := s.evq.erase e }
    let s := s.setFw fc { s.fw fc with taking := false, ev := some e, handling := true, ageing := none, takenAt := s.now, locks := e.qid.toList }
    some s.drainHeld
  | _, _ => none

/-- EVENT_HANDOFF (R82). -/
def execEventHandoff (s : State) : Host.Outcome State Fault Refusal := event State.handoff s

/-- A write of `QLOCK_REQ` (R78, R83, R97). -/
def State.qlockReq (s : State) (fc : Nat) (v : Word) : State :=
  let f := s.fw fc
  let q := bits v 11 0
  if f.locks.contains q then s.setFw fc { f with qlockStat := true }
  else if 2 ≤ f.locks.length || s.locked q then s.setFw fc { f with qlockStat := false }
  else s.setFw fc { f with qlockStat := true, locks := f.locks ++ [q] }

/-- QLOCK_REQ (R83): value `v` written by firmware core `n`. -/
def execQlockReq (s : State) : Host.Outcome State Fault Refusal :=
  event (fun s => if s.inp.n < 16 then some (s.qlockReq s.inp.n s.inp.v) else none) s

-- Slots

/-- `SLOT` of a slot command (R88). -/
def cmdSlot (v : Word) : Nat := bits v 9 4

/-- A slot command of a firmware core: `SLOT_STAT` is no longer that of a `SAVE` before it (R78). -/
def State.newSlotCmd (s : State) (fc : Nat) (st : Option Nat) : State :=
  let s : State := { s with slots := s.slots.map fun (e : Nat × Slot) => (e.1, if e.2.saver = some fc then { e.2 with saver := none } else e.2) }
  s.setFw fc { s.fw fc with slotStat := st }

/-- A slot command ends at once with a status (R88). -/
def State.slotStatus (s : State) (fc st : Nat) : State := s.newSlotCmd fc (some st)

/-- `MAP` (R88, R89): the slot passes state 1 and becomes active with the queue, in one step. (DESIGN CHOICE, assumption 2) -/
def State.map (s : State) (fc : Nat) (v : Word) : State :=
  let n := cmdSlot v
  let q := bits v 21 10
  let d := s.qdirOf q
  let u := s.queue q
  if (s.slot n).st ≠ 0 then s.slotStatus fc 1
  else if !bit d 8 || bit d 1 || u.state = 0 || u.state = 3 then s.slotStatus fc 2
  else if !(s.fw fc).locks.contains q then s.slotStatus fc 4
  else
    let s := s.setSlot n { st := 2, qid := q, eprio := bits u.sched 1 0, mappedTick := s.tick }
    let s := s.setQdir q ((d &&& 0xFFFFFFFFFFFFFF00) ||| w64 (n <<< 2 ||| 2))
    s.slotStatus fc 0

/-- `SAVE` (R88, R89): the queue leaves its slot at once, or where it has a fetch in flight, as soon as that is captured. -/
def State.save (s : State) (fc : Nat) (v : Word) : State :=
  let n := cmdSlot v
  let q := (s.slot n).qid
  let u := s.queue q
  if (s.slot n).st ≠ 2 then s.slotStatus fc 3
  else if !(s.fw fc).locks.contains q then s.slotStatus fc 4
  else
    let s := s.newSlotCmd fc none
    let s := s.setSlot n { s.slot n with st := 3, saver := some fc }
    if u.fetching then s else s.endSave n

/-- `SETPRIO` (R88). -/
def State.setPrio (s : State) (fc : Nat) (v : Word) : State :=
  let n := cmdSlot v
  if (s.slot n).st ≠ 2 then s.slotStatus fc 3
  else (s.setSlot n { s.slot n with eprio := bits v 23 22 }).slotStatus fc 0

/-- A write of `SLOT_CMD` (R88). -/
def State.slotCmd (s : State) (fc : Nat) (v : Word) : State :=
  match bits v 3 0 with
  | 1 => s.map fc v
  | 2 => s.save fc v
  | 3 => s.setPrio fc v
  | _ => s.slotStatus fc 5

/-- MAP (R88): command `v` of firmware core `n`. -/
def execMap (s : State) : Host.Outcome State Fault Refusal :=
  event (fun s => if s.inp.n < 16 then some (s.map s.inp.n s.inp.v) else none) s

/-- SAVE (R88): command `v` of firmware core `n`. -/
def execSave (s : State) : Host.Outcome State Fault Refusal :=
  event (fun s => if s.inp.n < 16 then some (s.save s.inp.n s.inp.v) else none) s

/-- SETPRIO (R88): command `v` of firmware core `n`. -/
def execSetprio (s : State) : Host.Outcome State Fault Refusal :=
  event (fun s => if s.inp.n < 16 then some (s.setPrio s.inp.n s.inp.v) else none) s

-- Timers and the watchdog

/-- A write of `TIMER_SET` (R78). -/
def State.timerSet (s : State) (fc : Nat) (v : Word) : State :=
  let f := s.fw fc
  let n := bits v 3 0
  let p := bits v 35 4
  s.setFw fc { f with timers := if p = 0 then Tbl.del f.timers n else Tbl.put f.timers n { period := p, since := s.us } }

/-- TIMER_SET (R78): value `v` written by firmware core `n`. -/
def execTimerSet (s : State) : Host.Outcome State Fault Refusal :=
  event (fun s => if s.inp.n < 16 then some (s.timerSet s.inp.n s.inp.v) else none) s

/-- TIMER (R78, R80): timer `m` of firmware core `n` is due. -/
def State.timerDue (s : State) : Option State :=
  let f := s.fw s.inp.n
  match Tbl.find f.timers s.inp.m with
  | some t =>
    if t.since + t.period ≤ s.us then
      some ((s.setFw s.inp.n { f with timers := Tbl.put f.timers s.inp.m { t with since := t.since + t.period } }).raiseEvent 5 none
        (w64 s.inp.m) (w64 s.inp.n) 0)
    else none
  | none => none

/-- TIMER (R80). -/
def execTimer (s : State) : Host.Outcome State Fault Refusal := event State.timerDue s

/-- WATCHDOG_EXPIRY (R77): the handler of firmware core `n` has run for 2^24 cycles. -/
def State.watchdog (s : State) : Option State :=
  let f := s.fw s.inp.n
  if f.up && f.handling && f.takenAt + 2 ^ 24 ≤ s.now then some ((s.resetFw s.inp.n).raiseError 3 (w64 s.inp.n) 0) else none

/-- WATCHDOG_EXPIRY (R77). -/
def execWatchdogExpiry (s : State) : Host.Outcome State Fault Refusal := event State.watchdog s

end Sys2Proof.Machine
end

