-- ==== Sys2Proof/Machine/Mgmt.lean ====
section
/-! DEFINITION. Management commands (R95, R96) as the firmware executes them on the captured request of a command slot: queues (R37, R56, R59,
R60), PASIDs, control cores (R201, R221), on-ramps (R128), remote windows (R19), the debugger (R316), attestation, counters, updates. -/

namespace Sys2Proof.Machine

-- Command slots

/-- Word `i` of the captured request. -/
def CmdSlot.word (c : CmdSlot) (i : Nat) : Word := Tbl.get 0 c.cap i

/-- The command code. -/
def CmdSlot.code (c : CmdSlot) : Nat := bits (c.word 0) 15 0

/-- The firmware writes reply words: the status in word 0, then the given ones. -/
def State.reply (s : State) (k st : Nat) (ws : List Word) : State :=
  let c := s.cmd k
  let rsp := (ws.zip (List.range ws.length)).foldl (fun (m : Tbl Word) e => Tbl.set 0 m (e.2 + 1) e.1) (Tbl.set 0 c.rsp 0 (w64 st))
  s.setCmd k { c with rsp := rsp, served := true, begun := false, ticket := none, failed := [] }

/-- Whether a reserved bit is set in words 0, 1, 2, … of a request, whose defined bits from word 1 on the masks give (R95). -/
def CmdSlot.reserved (c : CmdSlot) (masks : List Word) : Bool :=
  c.word 0 >>> 17 ≠ 0 || ((masks.zip (List.range masks.length)).any fun e => c.word (e.2 + 1) &&& ~~~ e.1 ≠ 0)

/-- A command of slot `n` with its code and masks: done once, on the captured request, while the firmware runs. A body that answers none
waits. A value that 254 names comes before every status of R96. (DESIGN CHOICE, assumption 106) -/
def State.command (s : State) (code : Nat) (masks : List Word) (body : State → Nat → CmdSlot → Option State) : Option State :=
  let k := s.inp.n
  let c := s.cmd k
  if 64 ≤ k || c.st ≠ 1 || c.served || c.code ≠ code || !(s.serving || (s.service = .badImage && code = 0x52)) then none
  else if c.reserved masks then some (s.reply k 254 [])
  else body s k c

/-- MGO (R95) of slot `n`: the request is captured and a MGMT event raised; ignored while the slot is busy, and after a failed signature check
for every command but `FWUPDATE` (R29). -/
def State.mgo (s : State) (k : Nat) : Option State :=
  let c := s.cmd k
  if 64 ≤ k || c.st = 1 || !(s.serving || (s.service = .badImage && bits (Tbl.get 0 c.req 0) 15 0 = 0x52)) then none
  else some ((s.setCmd k { c with cap := c.req, st := 1, seq := c.seq + 1, served := false }).raiseEvent 8 none (w64 k) 0 0)

/-- MGO (R95). -/
def execMgo (s : State) : Host.Outcome State Fault Refusal := anyEvent (fun s => s.mgo s.inp.n) s

/-- A write of `MG_DONE` (R95). -/
def State.mgDone (s : State) (v : Word) : State :=
  let k := bits v 5 0
  let c := s.cmd k
  if c.st ≠ 1 then s
  else
    let s := s.setCmd k { c with st := 2 }
    if bit (c.word 0) 16 then s.raiseMsix s.mgmtVec.toNat else s

/-- MG_DONE (R95): value `v`. -/
def execMgDone (s : State) : Host.Outcome State Fault Refusal :=
  anyEvent (fun s => if (s.serving || s.service = .badImage) && (s.cmd (bits s.inp.v 5 0)).st = 1 then some (s.mgDone s.inp.v) else none) s

/-- Whether a PASID is enabled, and not being torn down (R37, R96). (DEDUCED, assumption 46) -/
def State.enabled (s : State) (p : Nat) : Bool := s.pasids.contains p && !s.dying.contains p

/-- An address inside host memory as a request without a PASID names it (R95): bytes read and written. -/
def State.hostBytes (s : State) (a : Word) (n : Nat) : List Byte := (List.range n).map fun i => s.byte (hostKey (a.toNat + i))
def State.putHost (s : State) (a : Word) (l : List Byte) : State :=
  { s with mem := (l.zip (List.range l.length)).foldl (fun m e => Memory.set m (hostKey (a.toNat + e.2)) e.1) s.mem }

-- Queues

/-- The record of a `QREG` (R36). -/
def CmdSlot.record (c : CmdSlot) : BitVec 256 := BitVec.ofNat 256 (joinWords [c.word 1, c.word 2, c.word 3, c.word 4])

/-- The refusal code of R37 for a record, 0 for none; of several, the lowest. (DESIGN CHOICE, assumption 81) -/
def State.qregCode (s : State) (u : UQueue) : Nat :=
  if u.cpl % 16 ≠ 0 || u.ridxWb % 8 ≠ 0 || u.ring % 64 ≠ 0 || fld u.record 43 39 < 6 || 16 < fld u.record 43 39 || !Config.vectorEnabled u.vec then 1
  else if (leastBelow (fun q => (s.queue q).state = 0) 4096).isNone then 2
  else if !s.enabled u.pasid then 3
  else 0

/-- QREG (R37): the lowest free queue id, with its control block at an address of the firmware's own choosing and its directory entry. (DESIGN CHOICE, assumption 50) -/
def State.qreg (s : State) : Option State :=
  s.command 0x01 [0xFFFFFFFFFC000000] fun s k c =>
    let u : UQueue := { record := c.record }
    let r := s.qregCode u
    if r ≠ 0 then some (s.reply k r [])
    else
      let q := (leastBelow (fun q => (s.queue q).state = 0) 4096).getD 0
      let g := Tbl.get 0 s.gens q + 1
      let (a, s) := s.freeWord
      let s := s.setQueue q { u with state := 1, gen := g, sched := w64 (u.prio <<< 2 ||| u.prio) }
      let s := { s with gens := Tbl.set 0 s.gens q g }
      some ((s.setQdir q (w64 (bits a 55 12 <<< 12 ||| 0x100))).reply k 0 [w64 q])

/-- QREG (R37). -/
def execQreg (s : State) : Host.Outcome State Fault Refusal := event State.qreg s

/-- Whether a launch belongs to a queue: a packet of it started it, or a launch of such origin did (R60, R401). -/
def Launch.ofQueue (l : Launch) (q : Nat) : Bool :=
  match l.origin with
  | .packet p _ => p = q
  | .tile _ _ p _ => p = some q
  | .port _ _ _ _ _ _ => false

/-- Whether a copy belongs to a queue. -/
def Copy.ofQueue (c : Copy) (q : Nat) : Bool :=
  match c.origin with
  | .packet p _ => p = q
  | _ => false

/-- A launch that will write no completion word (R401). -/
def Launch.mute (l : Launch) : Launch :=
  match l.origin with
  | .tile t i q _ => { l with origin := .tile t i q 0 }
  | _ => l

/-- Launches discarded with status 6 (R60); when their memory is gone or their queue is, no completion word is written. -/
def State.discardAll (s : State) (p : Launch → Bool) (mute : Bool) : State :=
  (s.launches.filter fun e => p e.2).foldl (fun s e =>
    let s := if mute then s.setLaunch e.1 (s.launch e.1).mute else s
    s.discardLaunch e.1 6) s

/-- The work that a queue has started is aborted (R60). (DEDUCED, assumption 45) -/
def State.abortQueue (s : State) (q : Nat) (mute : Bool) : State :=
  (s.discardAll (fun l => l.ofQueue q) mute).abortCopies (fun c => c.ofQueue q) 6

/-- Whether work that a queue has started goes on. (DEDUCED, assumption 45) -/
def State.queueWorks (s : State) (q : Nat) : Bool :=
  (s.launches.any fun e => e.2.ofQueue q) || (s.copies.any fun e => e.2.ofQueue q && e.2.st ≠ .ended && e.2.st ≠ .aborted) ||
    (s.queue q).win.any fun e => e.2.launched

/-- QDEREG (R37, R60): the queue's work aborts, and once it has ended its slot and its id are released. (DEDUCED, assumption 45) -/
def State.qdereg (s : State) : Option State :=
  s.command 0x02 [0xFFF] fun s k c =>
    let q := bits (c.word 1) 11 0
    let u := s.queue q
    if u.state = 0 then some (s.reply k 1 [])
    else if s.queueWorks q then
      if (s.launches.any fun e => e.2.ofQueue q && e.2.st ≠ .faulted) ||
          (s.copies.any fun e => e.2.ofQueue q && e.2.st ≠ .ended && e.2.st ≠ .aborted && e.2.st ≠ .aborting) || u.state = 1 then
        some ((s.stopQueue q 6).abortQueue q true)
      else none
    else
      let s := if s.mapped q then s.freeSlot (s.slotNo q) else s
      let s := s.setQdir q 0
      some ((s.setQueue q {}).reply k 0 [])

/-- QDEREG (R37). -/
def execQdereg (s : State) : Host.Outcome State Fault Refusal := event State.qdereg s

/-- QSTOP (R56, R60). -/
def State.qstop (s : State) : Option State :=
  s.command 0x03 [0xFFF] fun s k c =>
    let q := bits (c.word 1) 11 0
    let u := s.queue q
    if u.state = 0 then some (s.reply k 1 [])
    else if u.state ≠ 1 then some (s.reply k 2 [])
    else some (((s.stopQueue q 6).abortQueue q false).reply k 0 [])

/-- QSTOP (R56). -/
def execQstop (s : State) : Host.Outcome State Fault Refusal := event State.qstop s

/-- QRESUME (R56). -/
def State.qresume (s : State) : Option State :=
  s.command 0x04 [0xFFF] fun s k c =>
    let q := bits (c.word 1) 11 0
    let u := s.queue q
    if u.state = 0 then some (s.reply k 1 [])
    else if u.state ≠ 2 then some (s.reply k 2 [])
    else
      let s := s.setQueue q { u with state := 1, err := 0 }
      let s := if !s.mapped q && (u.widx ≠ u.ridx || u.win.any fun e => !e.2.launched) then s.setPend q else s
      some (s.reply k 0 [])

/-- QRESUME (R56). -/
def execQresume (s : State) : Host.Outcome State Fault Refusal := event State.qresume s

/-- QBUDGET (R92, R96). (DESIGN CHOICE, assumption 106) -/
def State.qbudget (s : State) : Option State :=
  s.command 0x05 [0xFFFFF, 0x7F] fun s k c =>
    let p := bits (c.word 1) 19 0
    let b := bits (c.word 2) 6 0
    if b < 1 || 64 < b then some (s.reply k 254 [])
    else if !s.enabled p then some (s.reply k 1 [])
    else some ({ s with budgets := Tbl.put s.budgets p b }.reply k 0 [])

/-- QBUDGET (R92). -/
def execQbudget (s : State) : Host.Outcome State Fault Refusal := event State.qbudget s

-- Frames

/-- Whether two ranges of bytes share one; a range without bytes shares none. -/
def meetRange (a n b m : Nat) : Bool := 0 < n && 0 < m && a < b + m && b < a + n

/-- A number rounded up to a multiple of 2^`lg`. -/
def roundUp (a lg : Nat) : Nat := (a + 2 ^ lg - 1) / 2 ^ lg * 2 ^ lg

/-- What the tables of a PASID hold from a node on (R104 to R106): the ranges of addresses with an entry, valid or evicted, and the frames of
leaves and nodes. -/
def State.tableGo (s : State) (va node : Nat) : List (Nat × Nat × Nat) → List (Nat × Nat) × List (Nat × Nat)
  | [] => ([], [])
  | (lo, n, lvl) :: rest =>
    let ixs := ((s.mem.filter fun c => node ≤ c.1 && c.1 < node + nodeBytes lvl).map fun c => (c.1 - node) / 8 % 2 ^ n).eraseDups
    ixs.foldl (fun r i =>
      let e := s.wordAt (node / 8 + i)
      let a := va + i <<< lo
      let d := if bit e 0 && !bit e 11 && lvl ≠ 0 then s.tableGo a (bits e 51 12 <<< 12) rest
        else ([(a, 2 ^ lo)], if bit e 0 && leafLoc e ≠ 2 then [(leafFrame e, 2 ^ lo)] else [])
      (r.1 ++ d.1, r.2 ++ d.2)) ([], [(node, nodeBytes lvl)])

/-- What the tables of a PASID hold. -/
def State.tables (s : State) (pasid : Nat) : List (Nat × Nat) × List (Nat × Nat) :=
  let root := s.wordAt ((s.ptabBase.toNat + 8 * pasid) / 8)
  if bit root 0 then s.tableGo 0 (bits root 51 12 <<< 12) walkLevels else ([], [])

/-- Ranges of memory in use: the PASID table, the nodes and frames of every PASID, and the frames of migrations. -/
def State.framesHeld (s : State) : List (Nat × Nat) :=
  (s.ptabBase.toNat, 2 ^ 23) :: ((0 :: s.pasids).flatMap fun p => (s.tables p).2) ++
    s.migrations.flatMap fun (e : Nat × Migration) => [(e.2.oldFrame, if e.2.huge then 2 ^ 25 else 2 ^ 16), (e.2.newFrame, if e.2.huge then 2 ^ 25 else 2 ^ 16)]

/-- `n` bytes of HBM in no use, at the first place of 64 KiB from one of the firmware's own choosing, from the end of a range in use, or from the start
of a stack. (DESIGN CHOICE, assumption 7) -/
def State.freeFrame (s : State) (n : Nat) : Nat × State :=
  let (a, s) := s.freeWord
  let held := s.framesHeld
  let first := a.toNat % 16 * 2 ^ 37 + a.toNat / 16 % 1220607 * 65536
  let free (f : Nat) : Bool := f < 2 ^ 41 && f % 2 ^ 37 + n ≤ 1220607 * 65536 && !held.any fun (r : Nat × Nat) => meetRange f n r.1 r.2
  (((first :: held.map (fun (r : Nat × Nat) => roundUp (r.1 + r.2) 16) ++ (List.range 16).map (· * 2 ^ 37)).find? free).getD first, s)

-- PASIDs

/-- An empty root for a PASID (R103): a node without valid entries at a place of the firmware's own choosing, and its table entry. -/
def State.emptyRoot (s : State) (p : Nat) : State :=
  let (root, s) := s.freeFrame 4096
  let s := s.clearRange root (root + 4096)
  let base := s.ptabBase.toNat + 8 * p
  if s.hasMemory base then s.store8 base (w64 (root ||| 1)) else s

/-- PASID_EN (R96, R103). -/
def State.pasidEn (s : State) : Option State :=
  s.command 0x06 [0xFFFFF] fun s k c =>
    let p := bits (c.word 1) 19 0
    if s.pasids.contains p then some (s.reply k 1 [])
    else if p = 0 then some (s.reply k 2 [])
    else
      let s := s.emptyRoot p
      some ({ s with pasids := p :: s.pasids }.reply k 0 [])

/-- PASID_EN (R96). -/
def execPasidEn (s : State) : Host.Outcome State Fault Refusal := event State.pasidEn s

/-- A control core stops at an instruction or bytecode boundary (R201). -/
def State.stopCc (s : State) (n : Nat) : State :=
  let k := ctxKey (.cc n) 0
  let s := { s with waiters := s.waiters.filter fun e => e.1 ≠ k }
  let v := s.ctx k
  let s := s.setCore (.cc n) { s.core (.cc n) with halted := none }
  (s.setCtx k { v.settled with st := .running, cyc := v.cyc + (s.ccNow - v.cycFrom), cycFrom := s.ccNow }).setCc n
    { s.cc n with on := false }

/-- A queue dies (R59): `STATE` 3, `ERR` 6, the next generation, and no fetch goes on. -/
def UQueue.die (u : UQueue) : UQueue := { u with state := 3, err := 6, gen := u.gen + 1, ticket := none }

/-- A channel without a binding (R129). -/
def Streamer.unbind (v : Streamer) : Streamer := { v with bound := false, pasid := 0, tbase := 0, tcount := 0 }

/-- PASID_REL (R59, R60, R93, R201): the PASID's control cores stop, its queues die and lose their slots, its launches and copies abort, and its
tickets fail. The reply follows at its completion. (DEDUCED, assumption 46) -/
def State.pasidRel (s : State) : Option State :=
  s.command 0x07 [0xFFFFF] fun s k c =>
    let p := bits (c.word 1) 19 0
    if c.begun then none
    else if !s.enabled p then some (s.reply k 1 [])
    else
      let s := (List.range 64).foldl (fun s n => if (s.cc n).on && (s.cc n).pasid = p then s.stopCc n else s) s
      let qs := s.queues.filter fun e => e.2.pasid = p && (e.2.state = 1 || e.2.state = 2)
      let s := qs.foldl (fun s e =>
        let s := s.setQueue e.1 (s.queue e.1).die
        let s := { s with gens := Tbl.set 0 s.gens e.1 (s.queue e.1).gen }
        if s.mapped e.1 then (s.freeSlot (s.slotNo e.1)).setQdir e.1 (s.qdirOf e.1 &&& 0xFFFFFFFFFFFFFFFD) else s) s
      let s := (s.discardAll (fun l => l.pasid = p) true).abortCopies (fun c => c.pasid = p) 6
      let s := (s.tickets.filter fun e => e.2.pasid = p).foldl (fun s e => s.ticketFail e.1) s
      let s := { s with
        ats := s.ats.filter fun e => e.2.pasid ≠ p
        dying := p :: s.dying
        rwins := s.rwins.filter fun e => e.2.pasid ≠ p
        streamers := s.streamers.map fun (e : Nat × Streamer) => if e.2.bound && e.2.pasid = p then (e.1, e.2.unbind) else e }
      let c := s.cmd k
      some (s.setCmd k { c with rsp := Tbl.set 0 c.rsp 1 (w64 qs.length), begun := true })

/-- PASID_REL (R59). -/
def execPasidRel (s : State) : Host.Outcome State Fault Refusal := event State.pasidRel s

/-- PASID_REL_COMPLETE (R60): the module can no longer make any access under the PASID. (DEDUCED, assumption 46) -/
def State.pasidRelComplete (s : State) : Option State :=
  let k := s.inp.n
  let c := s.cmd k
  let p := bits (c.word 1) 19 0
  if 64 ≤ k || !c.begun || (s.launches.any fun e => e.2.pasid = p) ||
      (s.copies.any fun e => e.2.pasid = p && e.2.st ≠ .ended && e.2.st ≠ .aborted) || (s.atsInv.any fun e => e.2.pasid = p) ||
      (s.queues.any fun e => e.2.pasid = p && e.2.state = 3 && e.2.win.any fun w => w.2.launched) then none
  else
    let s := { s with
      pasids := s.pasids.filter (· ≠ p)
      dying := s.dying.filter (· ≠ p)
      budgets := Tbl.del s.budgets p
      tlb := s.tlb.filter fun e => e.pasid ≠ p
      nodes := s.nodes.filter fun e => e.uses.all fun u => u.1 ≠ p
      tickets := s.tickets.filter fun e => e.2.pasid ≠ p }
    some (s.reply k 0 [])

/-- PASID_REL_COMPLETE (R60). -/
def execPasidRelComplete (s : State) : Host.Outcome State Fault Refusal := event State.pasidRelComplete s

/-- OUNLOAD (R75, R96): the handle is released once no launch names a template of it; it is unknown from the command on. (DESIGN CHOICE, assumption 107) -/
def State.ounload (s : State) : Option State :=
  s.command 0x11 [] fun s k c =>
    if s.handles.any fun h => h.handle = c.word 1 && !h.unloading then
      let s := { s with handles := s.handles.map fun (h : Handle) => if h.handle = c.word 1 then { h with unloading := true } else h }
      some (s.releaseHandles.reply k 0 [])
    else some (s.reply k 1 [])

/-- OUNLOAD (R75). -/
def execOunload (s : State) : Host.Outcome State Fault Refusal := event State.ounload s

-- Control cores

/-- The launches of a control core's port that are outstanding. -/
def State.portLaunches (s : State) (n : Nat) : List Nat :=
  (s.launches.filter fun e => match e.2.origin with
    | .port c _ _ _ _ _ => c = n
    | _ => false).map Prod.fst

/-- A control core starts (R201, R221): bound to a PASID, in bytecode mode at `VPC` or in native mode at PC with only g14 live. -/
def State.startCc (s : State) (n p : Nat) (native : Bool) (pc nsp : Word) : State :=
  let v := s.cc n
  let old := s.ctx (ctxKey (.cc n) 0)
  let s := s.setCc n { v with on := true, bytecode := !native, pasid := p, vpc := if native then v.vpc else pc, nsp := nsp, rqidx := 0, seq := 0,
                              uncounted := s.portLaunches n }
  let s := s.setCore (.cc n) { s.core (.cc n) with halted := none }
  s.setCtx (ctxKey (.cc n) 0) { old.settled with
    st := .running, pc := if native then pc else old.pc, g := if native then Tbl.set 0 [] 14 nsp else [], live := if native then 0x4000 else 0
    cyc := 0, cycFrom := s.ccNow }

/-- CCSTART (R96, R201, R221); it waits while a restore that failed keeps the module stopped (R28). -/
def State.ccstart (s : State) : Option State :=
  s.command 0x20 [0x13F, 0xFFFFF] fun s k c =>
    let n := bits (c.word 1) 5 0
    let p := bits (c.word 2) 19 0
    if (s.cc n).on then some (s.reply k 1 [])
    else if !s.enabled p then some (s.reply k 2 [])
    else if (c.word 3).toNat % 8 ≠ 0 then some (s.reply k 3 [])
    else if s.service = .reduced && 8 ≤ n then some (s.reply k 4 [])
    else if s.ckpt.stopped then none
    else some ((s.startCc n p (bit (c.word 1) 8) (c.word 3) (c.word 4)).reply k 0 [])

/-- CCSTART (R201). -/
def execCcstart (s : State) : Host.Outcome State Fault Refusal := event State.ccstart s

/-- CCSTOP (R96, R201): the reply names where the core stopped and its mode. -/
def State.ccstop (s : State) : Option State :=
  s.command 0x21 [0x3F] fun s k c =>
    let n := bits (c.word 1) 5 0
    let v := s.cc n
    if !v.on then some (s.reply k 1 [])
    else some ((s.stopCc n).reply k 0 [if v.bytecode then v.vpc else (s.ctx (ctxKey (.cc n) 0)).pc, ofBool (!v.bytecode)])

/-- CCSTOP (R201). -/
def execCcstop (s : State) : Host.Outcome State Fault Refusal := event State.ccstop s

-- On-ramps and remote windows

/-- ONRBIND that binds (R96, R128); a misaligned or too long template table lies outside its range. (DEDUCED, assumption 47) -/
def State.onrBind (s : State) : Option State :=
  s.command 0x30 [0x11F, 0xFFFFF, 0xFFFFFFFFFFFFFFFF, 0xFFFFFFFFFFFFFFFF] fun s k c =>
    let n := bits (c.word 1) 4 0
    let p := bits (c.word 2) 19 0
    let v := s.streamer n
    if bit (c.word 1) 8 then none
    else if (c.word 3).toNat % 64 ≠ 0 || 65536 < (c.word 4).toNat then some (s.reply k 254 [])
    else if !s.enabled p then some (s.reply k 1 [])
    else if v.bound && v.pasid ≠ p then some (s.reply k 2 [])
    else some ((s.setStreamer n { v with bound := true, pasid := p, tbase := c.word 3, tcount := (c.word 4).toNat }).reply k 0 [])

/-- ONRBIND_BIND (R96). -/
def execOnrbindBind (s : State) : Host.Outcome State Fault Refusal := event State.onrBind s

/-- ONRBIND that unbinds (R96): it waits until the start queue is empty and the running copy has ended. -/
def State.onrUnbind (s : State) : Option State :=
  s.command 0x30 [0x11F, 0xFFFFF, 0xFFFFFFFFFFFFFFFF, 0xFFFFFFFFFFFFFFFF] fun s k c =>
    let n := bits (c.word 1) 4 0
    let p := bits (c.word 2) 19 0
    let v := s.streamer n
    if !bit (c.word 1) 8 then none
    else if !s.enabled p then some (s.reply k 1 [])
    else if v.bound && v.pasid ≠ p then some (s.reply k 2 [])
    else if !s.idle n then none
    else some ((s.setStreamer n v.unbind).reply k 0 [])

/-- ONRBIND_UNBIND (R96). -/
def execOnrbindUnbind (s : State) : Host.Outcome State Fault Refusal := event State.onrUnbind s

/-- The defined bits of an `RWSET` request from word 1 on. -/
def rwsetMasks : List Word := [0x1FFFF, 0xFFFFF, 0xFFFFFFFFFFFFFFFF, 0xFFFFFFFFFFFFFFFF, 0x1FFFFF]

/-- RWSET that defines a window (R19, R96). -/
def State.rwDefine (s : State) : Option State :=
  s.command 0x31 rwsetMasks fun s k c =>
    let w := bits (c.word 1) 15 0
    let p := bits (c.word 2) 19 0
    let n := (c.word 4).toNat
    if bit (c.word 1) 16 then none
    else if (c.word 3).toNat % 65536 ≠ 0 || n % 65536 ≠ 0 || n = 0 || 2 ^ 40 < n then some (s.reply k 254 [])
    else if !s.enabled p then some (s.reply k 1 [])
    else if (Tbl.find s.rwins w).isSome then some (s.reply k 2 [])
    else
      let r : RWin := { pasid := p, base := (c.word 3).toNat, len := n, put := bit (c.word 5) 0, get := bit (c.word 5) 1, any := bit (c.word 5) 2,
                        modId := bits (c.word 5) 20 3 }
      some ({ s with rwins := Tbl.put s.rwins w r }.reply k 0 [])

/-- RWSET_DEFINE (R19). -/
def execRwsetDefine (s : State) : Host.Outcome State Fault Refusal := event State.rwDefine s

/-- Whether an incoming copy that has not ended names a window (R19). -/
def State.windowUsed (s : State) (w : Nat) : Bool :=
  s.copies.any fun e => e.2.st ≠ .ended && e.2.st ≠ .aborted && (match e.2.remote with
    | some r => (r.kind = .inPut || r.kind = .inGet) && r.window = w
    | none => false)

/-- RWSET that deletes a window (R19): it waits until every copy that names it has ended. (DEDUCED, assumption 47) -/
def State.rwDelete (s : State) : Option State :=
  s.command 0x31 rwsetMasks fun s k c =>
    let w := bits (c.word 1) 15 0
    if !bit (c.word 1) 16 then none
    else if (Tbl.find s.rwins w).isNone then some (s.reply k 3 [])
    else if s.windowUsed w then none
    else some ({ s with rwins := Tbl.del s.rwins w }.reply k 0 [])

/-- RWSET_DELETE (R19). -/
def execRwsetDelete (s : State) : Host.Outcome State Fault Refusal := event State.rwDelete s

-- The debugger

/-- The core that an agent id and a core bit name, if they name one (R101). -/
def debugCore (a : Nat) (c : Bool) : Option Core :=
  if a < 0x1000 then some (if c then .c a else .a a) else if 0x1040 ≤ a && a < 0x1080 then some (.cc (a - 0x1040)) else none

/-- A halted core resumed (R316): its strand goes on at NPC. (DESIGN CHOICE, assumption 48) -/
def State.resumeCore (s : State) (c : Core) : State :=
  match (s.core c).halted with
  | some x =>
    let v := s.ctx (ctxKey c x)
    (s.setCore c { s.core c with halted := none }).setCtx (ctxKey c x) { v with pc := v.pc + 8 }
  | none => s

/-- DBGCTL (R96, R316) whose lowest bit that asks for something is `which`. (DESIGN CHOICE, assumption 48) -/
def State.dbgctl (s : State) (which : Nat) : Option State :=
  s.command 0x40 [0x1FFFF, 7] fun s k c =>
    let v := c.word 2
    let low := if bit v 0 then 0 else if bit v 1 then 1 else if bit v 2 then 2 else 0
    if low ≠ which then none
    else
      match debugCore (bits (c.word 1) 15 0) (bit (c.word 1) 16) with
      | none => some (s.reply k 1 [])
      | some r =>
        let s := if bit v 0 then s.setCore r { s.core r with haltOn := true } else s
        let s := if bit v 1 then s.setCore r { s.core r with haltOn := false } else s
        let s := if bit v 2 then s.resumeCore r else s
        some (s.reply k 0 [])

/-- DBGCTL_SET_HALT (R316). -/
def execDbgctlSetHalt (s : State) : Host.Outcome State Fault Refusal := event (fun s => s.dbgctl 0) s

/-- DBGCTL_CLEAR_HALT (R316). -/
def execDbgctlClearHalt (s : State) : Host.Outcome State Fault Refusal := event (fun s => s.dbgctl 1) s

/-- DBGCTL_RESUME (R316). -/
def execDbgctlResume (s : State) : Host.Outcome State Fault Refusal := event (fun s => s.dbgctl 2) s

-- Identity, counters, updates

/-- A setting of the configuration record in force (R33): of the first one, or of a replacement given as its bytes. -/
def State.recorded {α : Type} (s : State) (first : α) (image : List Byte → α) : α :=
  match s.cfgRecord with
  | some b => image b
  | none => first

/-- The settings of the record in force (R33): module id, version, serial number, tier region and the checkpoint slots' first address. -/
def State.moduleId (s : State) : BitVec 18 := s.recorded Config.moduleId Config.imageModuleId
def State.recordVersion (s : State) : Nat := s.recorded Config.recordVersion Config.imageVersion
def State.serialNumber (s : State) : Nat := s.recorded Config.serialNumber Config.imageSerial
def State.tierRegion (s : State) : Nat × Nat := s.recorded Config.tierRegion Config.imageTierRegion
def State.checkpointBase (s : State) : Nat := s.recorded Config.checkpointBase Config.imageCheckpointBase

/-- The scale-out ports of the lane layout in the record in force (R16, R33): 8, 16 or 32. -/
def State.scaleOutPorts (s : State) : Nat := 8 * 2 ^ (s.recorded Config.laneLayout Config.imageLaneLayout % 3)

/-- The 64-byte digest of signed content (R34). -/
def digest (b : List Byte) : List Byte := shake256 b 64

/-- The digests of the image and the record in force (R34). -/
def State.imageDigest (s : State) : List Byte :=
  digest (match s.fwImage with
    | some b => Config.imageContent b
    | none => Config.firmwareContent)
def State.recordDigest (s : State) : List Byte := digest (s.recorded Config.recordContent Config.imageContent)

/-- The first 168 bytes of an attestation report (R34, R96). -/
def State.report (s : State) (nonce : List Byte) : List Byte := s.imageDigest ++ s.recordDigest ++ bytesOf s.moduleId.toNat 8 ++ nonce

/-- The signature of content under the identity key (R32, R34). -/
def signed (b : List Byte) : List Byte := edSign (bytesOf Config.identityKey.toNat 57) (digest b)

/-- Whether the signature that an image or record carries is that of its content under the key that signs them (R33, R34). -/
def signatureChecks (b : List Byte) : Bool :=
  edCheck (bytesOf Config.vendorKey.toNat 57) (digest (Config.imageContent b)) (Config.imageSignature b)

/-- ATTEST (R34, R96). -/
def State.attest (s : State) : Option State :=
  s.command 0x50 [] fun s k c =>
    let r := s.report (s.hostBytes (c.word 1) 32)
    some ((s.putHost (c.word 2) (r ++ signed r ++ List.replicate 230 0)).reply k 0 [])

/-- ATTEST (R34). -/
def execAttest (s : State) : Host.Outcome State Fault Refusal := event State.attest s

/-- The bytes that `CTRREAD` reports. -/
def ctrBytes : Nat := 1049352

/-- Word `i` of the report of `CTRREAD` (R96): the version, the length, and the counters kept in flash (R35). (DEDUCED, assumption 49) -/
def Counters.word (c : Counters) (i : Nat) : Nat :=
  if i = 0 then 1
  else if i = 1 then ctrBytes
  else if i < 131074 then Tbl.get 0 c.sram (i - 2)
  else if i < 131090 then Tbl.get 0 c.hbm (i - 131074)
  else if i < 131091 then c.poisoned
  else if i < 131097 then Tbl.get 0 c.tierRetry (i - 131091)
  else if i < 131129 then Tbl.get 0 c.soRetry (i - 131097)
  else if i < 131154 then Tbl.get 0 c.temp (i - 131129)
  else Tbl.get 0 c.droop (i - 131154)

/-- CTRREAD (R35, R96). (DEDUCED, assumption 49) -/
def State.ctrread (s : State) : Option State :=
  s.command 0x51 [] fun s k c =>
    if (c.word 2).toNat < ctrBytes then some (s.reply k 1 [])
    else
      let b := (List.range (ctrBytes / 8)).flatMap fun i => bytesOf (s.flash.word i) 8
      some ((s.putHost (c.word 1) b).reply k 0 [w64 ctrBytes])

/-- CTRREAD (R35). -/
def execCtrread (s : State) : Host.Outcome State Fault Refusal := event State.ctrread s

/-- FWUPDATE (R29, R33, R96): the image or record takes effect at the next power-on; the installed record is the one in force.
(DESIGN CHOICE, assumption 80) -/
def State.fwupdate (s : State) : Option State :=
  s.command 0x52 [0xFFFFFFFFFFFFFFFF, 0xFFFFFFFFFFFFFFFF, 1] fun s k c =>
    let b := s.hostBytes (c.word 1) (c.word 2).toNat
    if !signatureChecks b then some (s.reply k 1 [])
    else if bit (c.word 3) 0 then
      if Config.imageVersion b < s.recordVersion then some (s.reply k 2 []) else some ({ s with nextRecord := some b }.reply k 0 [])
    else some ({ s with nextImage := some b }.reply k 0 [])

/-- FWUPDATE (R29). -/
def execFwupdate (s : State) : Host.Outcome State Fault Refusal := anyEvent State.fwupdate s

end Sys2Proof.Machine
end

