-- ==== Sys2Proof/Machine/Power.lean ====
section
/-! DEFINITION. Power profiles, temperature and the clock (R20 to R23), tier ports (R13), checkpoints and restores (R25 to R28), bring-up (R29 to
R31), and the lifetime counters (R35). -/

namespace Sys2Proof.Machine

-- The clock

/-- The profile in force (R22): the one of lowest power among `SEL`, `MAXP`, and P-eco while `THERM` is 1. -/
def Power.inForce (p : Power) : Nat := max p.sel (max p.maxp (if p.therm then 2 else 0))

/-- The clock of a profile in units of 0.1 GHz (R20). -/
def profileClock (p : Nat) : Nat := if p = 0 then 16 else if p = 1 then 14 else 11

/-- The profile takes effect (R21, R22): `CUR` and, outside reduced service, `CLK` change. (DEDUCED, assumption 51) -/
def State.applyProfile (s : State) : State :=
  let p := s.power
  let cur := p.inForce
  { s with power := { p with cur := cur, lowered := if cur = p.cur then p.lowered else 0, pending := false,
                             clk := if s.service = .full then profileClock cur - (if cur = p.cur then p.lowered else 0) else 8 } }

/-- A write of `PWR_CTL` (R21, R22): `SEL`, which a 3 leaves unchanged. -/
def State.writePower (s : State) (v : Word) : State :=
  if bits v 1 0 = 3 then s else { s with power := { s.power with sel := bits v 1 0, pending := true } }

/-- PWR_CTL_SEL (R21): the host writes `v`. -/
def execPwrCtlSel (s : State) : Host.Outcome State Fault Refusal := event (fun s => some (s.writePower s.inp.v)) s

/-- PROFILE_CHANGE (R21). -/
def State.profileChange (s : State) : Option State := if s.power.pending then some s.applyProfile else none

/-- PROFILE_CHANGE (R21). -/
def execProfileChange (s : State) : Host.Outcome State Fault Refusal := event State.profileChange s

/-- POWER_LIMIT_WINDOW (R23): the average power of a window lay above the limit (`flag`) or allows a higher clock; the clock moves by one step of
0.1 GHz, and not below one. During reduced service it stays at 0.8 GHz. (DESIGN CHOICE, assumption 78) -/
def State.powerWindow (s : State) : Option State :=
  let p := s.power
  if s.service ≠ .full then none
  else if s.inp.flag then
    if 1 < p.clk then some { s with power := { p with lowered := p.lowered + 1, clk := p.clk - 1 } } else none
  else if 0 < p.lowered then some { s with power := { p with lowered := p.lowered - 1, clk := p.clk + 1 } }
  else none

/-- POWER_LIMIT_WINDOW (R23). -/
def execPowerLimitWindow (s : State) : Host.Outcome State Fault Refusal := event State.powerWindow s

/-- THERMAL_THROTTLE (R23): the hottest junction reaches 105 °C. -/
def State.throttle (s : State) : State := { s with power := { s.power with therm := true } }.applyProfile

/-- THERMAL_THROTTLE (R23). -/
def execThermalThrottle (s : State) : Host.Outcome State Fault Refusal :=
  event (fun s => if s.power.therm then none else some s.throttle) s

/-- THERMAL_RECOVER (R23): the hottest junction falls below 95 °C. -/
def State.recover (s : State) : State := { s with power := { s.power with therm := false } }.applyProfile

/-- THERMAL_RECOVER (R23). -/
def execThermalRecover (s : State) : Host.Outcome State Fault Refusal :=
  event (fun s => if s.power.therm then some s.recover else none) s

/-- THERMAL_TRIP (R23): at 115 °C every die, the firmware complex and every engine stop, and the host is told. -/
def State.trip (s : State) : State :=
  { s with service := .tripped, power := { s.power with trip := true } }.raiseMsix s.mgmtVec.toNat

/-- THERMAL_TRIP (R23). -/
def execThermalTrip (s : State) : Host.Outcome State Fault Refusal := event (fun s => some s.trip) s

-- HBM as a checkpoint holds it

/-- Uncorrectable words of [lo, hi) found as they are read (R11). -/
def State.checkHard (s : State) (lo hi : Nat) : State :=
  (s.hard.filter fun e => lo ≤ e.1 * 8 && e.1 * 8 < hi).foldl (fun s e => s.checkWord e.1) s

/-- A frame of HBM takes what a tier copy holds, with its poison (R25, R28); no tier port has failed then. -/
def State.takeTierCopy (s : State) (f t : Nat) : State :=
  let s := s.checkHard (t * 65536) (t * 65536 + 65536)
  { s with
    mem := (cellsIn s.mem (t * 65536) (t * 65536 + 65536)).foldl (fun m c => Memory.set m (c.1 - t * 65536 + f * 65536) c.2) s.mem
    poison := (flagsIn s.poison (t * 65536) (t * 65536 + 65536)).foldl (fun m c => Tbl.set false m (c.1 - t * 8192 + f * 8192) c.2) s.poison }

/-- HBM below a key takes the contents of a checkpoint (R28): what the region holds, and the tier copies that it refers to. -/
def State.restoreHbm (s : State) (g : CkptImage) (hi : Nat) : State :=
  let here (k : Nat) : Bool := isHbm k && k < hi
  let s : State := { s with
    mem := (g.cells.filter fun e => here e.1).foldl (fun m e => Memory.set m e.1 e.2) (s.mem.filter fun e => !here e.1)
    poison := (g.poison.filter fun e => here (e.1 * 8)).foldl (fun m e => Tbl.set false m e.1 e.2) (s.poison.filter fun e => !here (e.1 * 8))
    empty := (g.empty.filter fun e => here (e.1 * 8)).foldl (fun m e => Tbl.set false m e.1 e.2) (s.empty.filter fun e => !here (e.1 * 8))
    soft := s.soft.filter fun e => !here (e.1 * 8)
    hard := s.hard.filter fun e => !here (e.1 * 8) }
  (g.refs.filter fun e => here (e.1 * 65536)).foldl (fun s e => s.takeTierCopy e.1 e.2) s

/-- A checkpoint or restore that ends early (R28): what a restore has written, in address order, is what stands below `hi`; in reduced service it has
written nothing (R30). (DEDUCED, assumption 43) -/
def State.ckptFail (s : State) (status hi : Nat) : State :=
  if s.ckpt.status = 1 || s.ckpt.status = 2 then { s with ckpt := { s.ckpt with status := status } }
  else if s.ckpt.status = 7 then
    let s := if s.ckpt.restored || s.service = .reduced then s else s.restoreHbm s.goodImage hi
    { s with ckpt := { s.ckpt with status := status, stopped := true } }
  else s

/-- Whether a checkpoint or a restore is in progress (R26). -/
def State.ckptRuns (s : State) : Bool := s.ckpt.status = 1 || s.ckpt.status = 2 || s.ckpt.status = 7

/-- A write of 1 to `START` (R25, R26). (DEDUCED, assumption 43) -/
def State.ckptStart (s : State) : State :=
  if s.ckptRuns then s else { s with ckpt := { s.ckpt with status := 1, backed := [], drained := [] } }.ckptDrain

/-- CKPT_START (R25). -/
def execCkptStart (s : State) : Host.Outcome State Fault Refusal := event (fun s => if s.ckptRuns then none else some s.ckptStart) s

/-- A write of 1 to `RESTORE` (R28). -/
def State.ckptRestore (s : State) : State :=
  let work := (s.launches.any fun e => e.2.st ≠ .saved && e.2.st ≠ .waiting) || (s.slots.any fun e => e.2.st ≠ 0) || s.ccs.any fun e => e.2.on
  let st := if work then 10 else if s.ckpt.seq = 0 then 9 else 7
  if s.ckptRuns then s else { s with ckpt := { s.ckpt with status := st, restored := false } }

/-- CKPT_RESTORE (R28). -/
def execCkptRestore (s : State) : Host.Outcome State Fault Refusal := event (fun s => if s.ckptRuns then none else some s.ckptRestore) s

/-- CKPT_ABORT (R26, R28); a restore has come as far as key `u`. -/
def execCkptAbort (s : State) : Host.Outcome State Fault Refusal :=
  event (fun s => if s.ckptRuns then some (s.ckptFail 6 s.inp.u.toNat) else none) s

/-- A write of `CKPT_CTL` (R26): `ABORT`, `RESTORE` and `START` in this order. (DEDUCED, assumption 43) -/
def State.writeCkpt (s : State) (v : Word) : State :=
  let s := if bit v 2 then s.ckptFail 6 s.inp.u.toNat else s
  let s := if bit v 1 then s.ckptRestore else s
  if bit v 0 then s.ckptStart else s

/-- Whether the good checkpoint's own copy of an HBM frame stands for the frame (R25): one that it holds in the region, and that has not been written
since. -/
def State.byRef (s : State) (f : Nat) : Bool :=
  s.ckpt.seq ≠ 0 && !s.ckpt.written.contains f && !s.goodImage.refs.any fun e => e.1 = f

/-- What a checkpoint holds (R25): the pages with a tier copy by reference, the unwritten ones as the good checkpoint holds them, the others as they
stand. -/
def State.ckptImage (s : State) : CkptImage :=
  let o := s.goodImage
  let held (k : Nat) : Bool := isHbm k && !(s.ckpt.backed.any fun e => e.1 = k / 65536)
  let now (k : Nat) : Bool := held k && !s.byRef (k / 65536)
  let old (k : Nat) : Bool := held k && s.byRef (k / 65536)
  { cells := ((o.cells.filter fun e => old e.1).foldl (fun m e => Memory.set m e.1 e.2) (s.mem.filter fun e => now e.1))
    poison := (o.poison.filter fun e => old (e.1 * 8)).foldl (fun m e => Tbl.set false m e.1 e.2) (s.poison.filter fun e => now (e.1 * 8))
    empty := (o.empty.filter fun e => old (e.1 * 8)).foldl (fun m e => Tbl.set false m e.1 e.2) (s.empty.filter fun e => isHbm (e.1 * 8) && !old (e.1 * 8))
    refs := s.ckpt.backed
    launches := s.launches.filter fun e => e.2.st = .saved, saved := s.saved, drained := s.ckpt.drained }

/-- CHECKPOINT_COMPLETE (R25): the checkpoint becomes the good one. It has read the HBM that it writes, whose uncorrectable beats were found as any read
finds them (R11); pages with a tier copy are recorded by reference. With a tier port failed it ends with status 4. (DEDUCED, assumption 43) -/
def State.ckptComplete (s : State) : Option State :=
  if s.ckpt.status ≠ 2 then none
  else if s.tierFailed ≠ [] then some (s.ckptFail 4 0)
  else
    let s := (s.hard.filter fun e => isHbm (e.1 * 8) && !s.byRef (e.1 / 8192)).foldl (fun s e => s.checkWord e.1) s
    let g := if s.ckpt.seq = 0 then false else !s.ckpt.good
    some { s with ckpt := { s.ckpt with seq := s.ckpt.seq + 1, status := 3, good := g, written := [],
                                        images := Tbl.put s.ckpt.images (if g then 1 else 0) s.ckptImage } }

/-- CHECKPOINT_COMPLETE (R25). -/
def execCheckpointComplete (s : State) : Host.Outcome State Fault Refusal := event State.ckptComplete s

/-- A launch that the checkpoint drained resumes, where its save area and its rectangle pass the checks of R173; it stays saved where they do not.
(DEDUCED, assumption 43) -/
def State.resumeDrained (s : State) (u : Nat) : State :=
  let l := s.launch u
  if l.st = .saved && s.areaIntact u && s.rectFree l.tilesOf l.producer (some (tmplPart l.tmpl)) then
    (s.takeTiles u).setLaunch u { l with st := .resuming, resumeFc := 16 }
  else s

/-- HBM takes the contents of the good checkpoint, and the launches that it drained begin to resume, a producer before its dependent (R28). -/
def State.restoreBegin (s : State) : State :=
  let g := s.goodImage
  let s := s.restoreHbm g (2 ^ 41)
  let s : State := { s with
    launches := g.launches.foldl (fun (m : Tbl Launch) (e : Nat × Launch) => Tbl.put m e.1 e.2) s.launches
    saved := g.saved.foldl (fun (m : Tbl Saved) (e : Nat × Saved) => Tbl.put m e.1 e.2) s.saved
    fresh := g.launches.foldl (fun (n : Nat) (e : Nat × Launch) => max n (e.1 + 1)) s.fresh
    ckpt := { s.ckpt with restored := true, written := [] } }
  let first := g.drained.filter fun u => !g.drained.any fun p => (s.launch u).producer = some p
  (first ++ g.drained.filter fun u => !first.contains u).foldl State.resumeDrained s

/-- RESTORE_COMPLETE (R28): HBM holds the checkpoint, and then its launches run again, each once its saved writes are performed (R363); with the last of
them the restore has ended. It ends with status 4 where a tier port has failed. (DEDUCED, assumption 43) -/
def State.restoreComplete (s : State) : Option State :=
  if s.ckpt.status ≠ 7 || s.service = .reduced then none
  else if !s.ckpt.restored && s.tierFailed ≠ [] then some (s.ckptFail 4 0)
  else
    let s := if s.ckpt.restored then s else s.restoreBegin
    let due (e : Nat × Launch) : Bool := e.2.st = .resuming && e.2.resumeFc = 16
    let s := (s.launches.filter due).foldl (fun s e =>
      let s := s.resumeWrites e.1
      if s.savedWrites e.1 then s else s.resumeLaunch e.1) s
    some (if s.launches.any due then s else { s with ckpt := { s.ckpt with status := 8, stopped := false, restored := false } })

/-- RESTORE_COMPLETE (R28). -/
def execRestoreComplete (s : State) : Host.Outcome State Fault Refusal := event State.restoreComplete s

-- Tier ports

/-- A tier port fails (R13, R81, R123, R28); `down` says that its link went down, otherwise its retry limit was passed. -/
def State.tierFail (s : State) (p : Nat) (down : Bool) : State :=
  if s.tierFailed.contains p then s
  else
    let s := { s with tierFailed := p :: s.tierFailed }.raiseError 9 (w64 p) (ofBool down)
    let s := (s.migrations.filter fun e => e.2.stage = 1 && (isTier e.2.oldFrame || isTier e.2.newFrame)).foldl (fun s e => s.migGiveUp e.1) s
    s.ckptFail 4 s.inp.u.toNat

/-- TIER_PORT_FAIL (R13) of port `n`; `flag` says that the link went down. -/
def execTierPortFail (s : State) : Host.Outcome State Fault Refusal :=
  event (fun s => if s.inp.n < 6 && !s.tierFailed.contains s.inp.n then some (s.tierFail s.inp.n s.inp.flag) else none) s

/-- LINK_RETRY (R35, R13) of tier port `n` (`flag`) or scale-out port `n`; a tier port that `m` says has passed its limit fails. -/
def State.linkRetry (s : State) : Option State :=
  let n := s.inp.n
  let c := s.counters
  if s.inp.flag then
    if 6 ≤ n then none
    else
      let s := { s with counters := { c with tierRetry := Tbl.set 0 c.tierRetry n (Tbl.get 0 c.tierRetry n + 1) } }
      some (if s.inp.m = 0 then s else s.tierFail n false)
  else if s.scaleOutPorts ≤ n then none
  else some { s with counters := { c with soRetry := Tbl.set 0 c.soRetry n (Tbl.get 0 c.soRetry n + 1) } }

/-- LINK_RETRY (R35). -/
def execLinkRetry (s : State) : Host.Outcome State Fault Refusal := event State.linkRetry s

-- Counters

/-- Counts added to the bins of a histogram. -/
def addBins (m : Tbl Nat) : Nat → List Word → Tbl Nat
  | _, [] => m
  | i, w :: r => addBins (Tbl.set 0 m i (Tbl.get 0 m i + w.toNat)) (i + 1) r

/-- The counters written to flash (R35), with the junction temperatures and voltage droops that the sensors have seen since the last update: the
first 25 words of `data`, and the 15 after them. (DEDUCED, assumption 49) -/
def State.updateCounters (s : State) : State :=
  let c := s.counters
  let c := { c with temp := addBins c.temp 0 (s.inp.data.take 25), droop := addBins c.droop 0 ((s.inp.data.drop 25).take 15) }
  { s with counters := c, flash := c }

/-- 10 minutes in microseconds (R35). -/
def flashPeriod : Nat := 600000000

/-- COUNTER_UPDATE (R35), 10 minutes after the last. -/
def execCounterUpdate (s : State) : Host.Outcome State Fault Refusal :=
  event (fun s => if s.us < s.flashedAt + flashPeriod then none else some { s.updateCounters with flashedAt := s.us }) s

-- Bring-up and power

/-- What outlasts a loss of power: flash, the tier and the host's memory, and the checkpoints; every register has its reset value. (DEDUCED, assumption 51) -/
def State.powerDown (s : State) : State :=
  let keep (k : Nat) : Bool := isTier k || 2 ^ 64 ≤ k
  { State.reset with
    agenda := s.agenda, inp := s.inp, now := s.now, ccNow := s.ccNow, us := s.us, free := s.free, fresh := s.fresh
    flash := s.flash, counters := s.flash, flashedAt := s.us, nextImage := s.nextImage, nextRecord := s.nextRecord, fwImage := s.fwImage, cfgRecord := s.cfgRecord
    ckpt := { seq := s.ckpt.seq, good := s.ckpt.good, images := s.ckpt.images }
    mem := s.mem.filter fun e => keep e.1
    poison := s.poison.filter fun e => keep (e.1 * 8)
    hard := s.hard.filter fun e => keep (e.1 * 8)
    soft := s.soft.filter fun e => keep (e.1 * 8) }

/-- `MAXP` of the record in force (R22, R33). -/
def State.maxProfile (s : State) : Nat := min 2 (s.recorded Config.maxProfile Config.imageMaxProfile)

/-- POWER_ON (R29): a replacement image or record takes effect, and the module reaches reduced service on CD0, its firmware cores at their entry
point and timer 0 of the shipped firmware at 1 ms (R92). A signature that does not check (`flag`) stops it there; the bits of `v` name tier
ports whose links do not train. (DEDUCED, assumption 51) -/
def State.powerOn (s : State) : State :=
  let s := s.powerDown
  let s := { s with
    fwImage := if s.nextImage.isSome then s.nextImage else s.fwImage, nextImage := none
    cfgRecord := if s.nextRecord.isSome then s.nextRecord else s.cfgRecord, nextRecord := none }
  if s.inp.flag then { s with service := .badImage }
  else
    let s := { s with service := .reduced, power := { maxp := s.maxProfile, pending := true } }
    let s := (List.range 16).foldl (fun s n => (s.setFw n { up := true }).resetFw n) s
    let s := s.setFw 0 { s.fw 0 with timers := [(0, { period := 1000, since := s.us })] }
    (List.range 6).foldl (fun s p => if bit s.inp.v p then s.tierFail p true else s) s

/-- POWER_ON (R29). -/
def execPowerOn (s : State) : Host.Outcome State Fault Refusal := anyEvent (fun s => some s.powerOn) s

/-- FULL_SERVICE (R31): every die is open to new launches, and the clock moves to the profile clock; a checkpoint that waits for HBM
begins its drains. -/
def State.fullService (s : State) : Option State :=
  if s.service = .reduced then some { s with service := .full }.applyProfile.ckptDrain else none

/-- FULL_SERVICE (R31). -/
def execFullService (s : State) : Host.Outcome State Fault Refusal := event State.fullService s

/-- POWER_LOSS (R35): counts since the last update are lost. -/
def execPowerLoss (s : State) : Host.Outcome State Fault Refusal := anyEvent (fun s => some s.powerDown) s

/-- ORDERLY_SHUTDOWN (R35): the counters are written to flash first. -/
def execOrderlyShutdown (s : State) : Host.Outcome State Fault Refusal := event (fun s => some s.updateCounters.powerDown) s

/-- SRAM_SCRUB (R232) of tile `n`, 2^26 cycles after the last: every word of its powered banks is checked. (DESIGN CHOICE, assumption 65) -/
def State.sramScrub (s : State) : Option State :=
  let t := s.inp.n
  if 4096 ≤ t || s.now < Tbl.get 0 s.scrubbed t + 2 ^ 26 then none
  else
    let here (e : Nat × Bool) : Bool := poolKey t 0 ≤ e.1 * 8 && e.1 * 8 < poolKey (t + 1) 0
    let ks := ((s.hard.filter here) ++ (s.soft.filter here)).map Prod.fst
    let s := ks.foldl (fun s k => s.checkWord k) s
    some { s with scrubbed := Tbl.set 0 s.scrubbed t s.now }

/-- SRAM_SCRUB (R232). -/
def execSramScrub (s : State) : Host.Outcome State Fault Refusal := event State.sramScrub s

end Sys2Proof.Machine
end

