-- ==== Sys2Proof/Machine/Window.lean ====
section
/-! DEFINITION. The registers that software reaches by address: the firmware cores' control window (R78, R88, R95, R103, R117, R172, R179, R180,
R183, R186) and BAR0 (R15, R22, R26, R38, R95, R128). -/

namespace Sys2Proof.Machine

-- The control window

/-- `SLOT_n` (R88). -/
def Slot.word (v : Slot) : Word := w64 (v.eprio <<< 22 ||| v.qid <<< 10 ||| v.st.toNat)

/-- The report of a layby (R186). -/
def Layby.word (v : Layby) : Word :=
  w64 ((if v.bound then 2 ^ 31 else 0) ||| (if v.rel then 2 ^ 30 else 0) ||| v.entry <<< 16 ||| v.recs.length)

/-- What a read of the control window gives: a value, or a wait for a completion. -/
abbrev CwRead := Option Word × State

/-- A completion that a register reports once it is there. -/
def waited (v : Option Nat) (s : State) : CwRead := (v.map w64, s)

/-- A read of `EVQ_TAKE` (R78): the first attempt ends the handler; the core then waits until an event has been handed to it. -/
def State.readTake (s : State) (fc : Nat) (again : Bool) : CwRead :=
  if !again then (none, s.evqTake fc)
  else if (s.fw fc).taking then (none, s)
  else
    match (s.fw fc).ev with
    | some e => (some (e.word 0), s)
    | none => (none, s)

/-- An aligned 8-byte read of the control window by firmware core `fc`; `again` says that the read has waited. -/
def State.cwRead (s : State) (fc off : Nat) (again : Bool) : CwRead :=
  let f := s.fw fc
  let ev (i : Nat) : Word := match f.ev with
    | some e => e.word i
    | none => 0
  if off = 0x000 then s.readTake fc again
  else if off = 0x008 then (some (ev 1), s)
  else if off = 0x010 then (some (ev 2), s)
  else if off = 0x018 then (some (ev 3), s)
  else if off = 0x030 then (some (ofBool f.qlockStat), s)
  else if off = 0x040 then waited f.slotStat s
  else if off = 0x060 then waited (f.sdResult.map fun r => f.sd ||| r <<< 16) s
  else if off = 0x070 then waited f.mig s
  else if off = 0x080 then waited f.drain s
  else if off = 0x090 then waited f.resume s
  else if off = 0x098 then (some f.xarg, s)
  else if off = 0x0A8 then (some (w64 f.xstat), s)
  else if off = 0x1000 then (some s.qdirBase, s)
  else if off = 0x1008 then (some (w64 (s.evq.length ||| s.evLost.toNat <<< 32)), s)
  else if 0x1100 ≤ off && off < 0x1300 then (some (s.slot ((off - 0x1100) / 8)).word, s)
  else if off = 0x1400 then (some s.ptabBase, s)
  else if off = 0x1418 then (some (w64 s.xstrm.toNat), s)
  else if 0x20000 ≤ off && off < 0x40000 then (some (s.onrampRead ((off - 0x20000) / 0x1000) (off % 0x1000)), s)
  else if 0x100000 ≤ off && off < 0x200000 then (some (w64 ((s.entry ((off - 0x100000) / 64)).toNat >>> (8 * (off % 64)))), s)
  else if 0x200000 ≤ off && off < 0x201000 then (some (s.layby ((off - 0x200000) / 8)).word, s)
  else if 0x300000 ≤ off && off < 0x304000 then
    let c := s.cmd ((off - 0x300000) / 0x100)
    let r := off % 0x100
    (some (if r < 0x40 then c.word (r / 8) else if r < 0x80 then Tbl.get 0 c.rsp ((r - 0x40) / 8) else 0), s)
  else (some 0, s)

/-- A write of `XSTRM` (R180). -/
def State.writeXstrm (s : State) (v : Word) : State := if v.setWidth 16 = 0 then s else { s with xstrm := v.setWidth 16 }

/-- A reply word written by the firmware (R95); bits [63:8] of the first are reserved and read as zero. -/
def State.writeReply (s : State) (k i : Nat) (v : Word) : State :=
  let c := s.cmd k
  s.setCmd k { c with rsp := Tbl.set 0 c.rsp i (if i = 0 then v &&& 0xFF else v) }

/-- An aligned 8-byte write of the control window by firmware core `fc`: false while it stalls or waits for what it names. -/
def State.cwWrite (s : State) (fc off : Nat) (v : Word) : Bool × State :=
  if off = 0x020 then (true, s.evqDone fc)
  else if off = 0x028 then (true, s.qlockReq fc v)
  else if off = 0x038 then (true, s.slotCmd fc v)
  else if off = 0x048 then (true, s.xfDone v)
  else if off = 0x050 then (true, s.timerSet fc v)
  else if off = 0x058 then s.sdReq fc v
  else if off = 0x068 then s.migReq fc v
  else if off = 0x078 then s.drainReq fc v
  else if off = 0x088 then s.resumeReq fc v
  else if off = 0x098 then (true, s.setFw fc { s.fw fc with xarg := v })
  else if off = 0x0A0 then s.xcmd fc v
  else if off = 0x0B0 then (true, s.mgDone v)
  else if off = 0x1000 then (true, s.moveDir fc v)
  else if off = 0x1400 then (true, { s with ptabBase := v })
  else if off = 0x1408 then (true, s.sdRetry v)
  else if off = 0x1410 then (true, s.sdForce v)
  else if off = 0x1418 then (true, s.writeXstrm v)
  else if 0x20000 ≤ off && off < 0x40000 then (true, s.onrampWrite ((off - 0x20000) / 0x1000) (off % 0x1000) v)
  else if 0x300000 ≤ off && off < 0x304000 && 0x40 ≤ off % 0x100 && off % 0x100 < 0x80 then
    (true, s.writeReply ((off - 0x300000) / 0x100) ((off % 0x100 - 0x40) / 8) v)
  else (true, s)

/-- The number of the executing firmware core. -/
def State.myFc (s : State) : Nat :=
  match s.cur with
  | .fc n => n
  | _ => 0

/-- A load of `n` bytes by a firmware core from its control window (R78): narrower reads give zero without a side effect. -/
def cwLoad (off n : Nat) : M Word := do
  let s ← get
  if n ≠ 8 then pure 0
  else
    match s.cwRead s.myFc off (s.me.await = .window) with
    | (some v, t) => do
      set t
      pure v
    | (none, t) => do
      set t
      waitM .window

/-- A store of `n` bytes by a firmware core to its control window (R78): narrower writes are ignored; a stalled one waits (R117). -/
def cwStore (off n : Nat) (v : Word) : M Unit := do
  let s ← get
  if n ≠ 8 then pure ()
  else
    match s.cwWrite s.myFc off v with
    | (true, t) => set t
    | (false, t) => do
      set t
      waitM .hold

-- BAR0

/-- `PWR_CTL` (R22). -/
def Power.word (p : Power) : Word :=
  w64 (p.clk <<< 32 ||| p.maxp <<< 10 ||| (if p.therm then 2 ^ 9 else 0) ||| (if p.trip then 2 ^ 6 else 0) ||| p.cur <<< 4 ||| p.sel)

/-- `CKPT_CTL` (R26). -/
def Ckpt.word (c : Ckpt) : Word := w64 (c.seq.toNat <<< 16 ||| c.status <<< 8 ||| (if c.good then 8 else 0))

/-- A register of a command slot as the host reads it (R95). -/
def CmdSlot.reg (c : CmdSlot) (r : Nat) : Word :=
  if r < 0x40 then Tbl.get 0 c.req (r / 8)
  else if r < 0x80 then Tbl.get 0 c.rsp ((r - 0x40) / 8)
  else if r = 0x88 then w64 (c.seq.toNat <<< 32 ||| c.st.toNat)
  else 0

/-- A register of BAR0 (R15); after a thermal trip only three answer (R23). (DEDUCED, assumption 42) -/
def State.bar0Reg (s : State) (off : Nat) : Word :=
  if off = 0x0000 then w64 s.moduleId.toNat
  else if off = 0x1000 then s.power.word
  else if off = 0x1008 then s.ckpt.word
  else if s.service = .tripped then 0
  else if off = 0x1010 then w64 s.mgmtVec.toNat
  else if 0x10000 ≤ off && off < 0x14000 then (s.cmd ((off - 0x10000) / 0x100)).reg (off % 0x100)
  else if 0x1000000 ≤ off && off < 0x2000000 then
    let q := (off - 0x1000000) / 0x1000
    match off % 0x1000 with
    | 0x018 => (s.queue q).wm
    | 0x020 => if (s.queue q).state = 0 then w64 ((Tbl.get 0 s.gens q).toNat <<< 8) else (s.queue q).stat
    | _ => 0
  else if 0x2000000 ≤ off && off < 0x2020000 then s.onrampRead ((off - 0x2000000) / 0x1000) (off % 0x1000)
  else 0

/-- A read of `n` bytes of BAR0 by the host (R15, R38): one that is not of 8 aligned bytes gives zero. The `QSTAT` of an id without a queue shows its last
generation. (DESIGN CHOICE, assumption 83) -/
def State.bar0Read (s : State) (off n : Nat) : Word := if n = 8 && off % 8 = 0 then s.bar0Reg off else 0

/-- The write of a command slot's register (R95). -/
def State.slotWrite (s : State) (k r : Nat) (v : Word) : State :=
  let c := s.cmd k
  if r < 0x40 then s.setCmd k { c with req := Tbl.set 0 c.req (r / 8) v }
  else if r = 0x80 then (s.mgo k).getD s
  else s

/-- An aligned 8-byte write of BAR0 by the host (R15): after a failed signature check only the command slots take writes (R29), and none where the
module is off or has tripped (R23). -/
def State.bar0Write (s : State) (off : Nat) (v : Word) : State :=
  if s.service = .off || s.service = .tripped then s
  else if 0x10000 ≤ off && off < 0x14000 then s.slotWrite ((off - 0x10000) / 0x100) (off % 0x100) v
  else if s.service = .badImage then s
  else if off = 0x1000 then s.writePower v
  else if off = 0x1008 then s.writeCkpt v
  else if off = 0x1010 then { s with mgmtVec := v.setWidth 11 }
  else if 0x1000000 ≤ off && off < 0x2000000 then
    let q := (off - 0x1000000) / 0x1000
    match off % 0x1000 with
    | 0x000 => s.doorbell q v
    | 0x008 => s.wmSet q v
    | 0x010 => s.wmClr q v
    | _ => s
  else if 0x2000000 ≤ off && off < 0x2020000 then s.onrampWrite ((off - 0x2000000) / 0x1000) (off % 0x1000) v
  else s

/-- REGISTER_WRITE (R15, R78): `v` written with `m` bytes at offset `n` of BAR0 by the host, or of the control window by a firmware core;
narrower and misaligned writes are ignored (R4 for the reserved fields). (DESIGN CHOICE, assumption 72) -/
def State.registerWrite (s : State) : Option State :=
  if s.inp.m ≠ 8 || s.inp.n % 8 ≠ 0 then none
  else
    match s.inp.space with
    | .bar0 => some (s.bar0Write s.inp.n s.inp.v)
    | .control fc => if fc < 16 && s.serving then some (s.cwWrite fc s.inp.n s.inp.v).2 else none

/-- REGISTER_WRITE (R15). -/
def execRegisterWrite (s : State) : Host.Outcome State Fault Refusal := anyEvent State.registerWrite s

end Sys2Proof.Machine
end

