-- ==== Sys2Proof/Machine/LoadStore.lean ====
section
/-! DEFINITION. Scalar loads and stores (R321 to R327): plain, sync and consuming, over every window, page format and register window. -/

namespace Sys2Proof.Machine

/-- The register value of a load of `n` bytes (R323): a decoded element widened, raw bytes extended. -/
def loadValue (pfmt : Option Nat) (n v : Nat) (signed : Bool) : Word :=
  if elemSize pfmt = some n then
    if pfmt = some 7 then sext (w64 v) 8
    else if signed then (laneOf pfmt n v).signExtend 64
    else (laneOf pfmt n v).setWidth 64
  else if signed then sext (w64 v) (8 * n)
  else w64 v

/-- The bytes that a store of `n` bytes writes (R324), with the flags it raises. -/
def storeValue (pfmt : Option Nat) (n : Nat) (m : Rnd) (v : Word) (p : Fp) : Nat × Fp :=
  if elemSize pfmt = some n && pfmt = some 7 then
    let r := satByte v.toInt
    (r.1, p.raise r.2)
  else if elemSize pfmt = some n then laneBytes pfmt n m (v.setWidth 32) p
  else (v.toNat % 256 ^ n, p)

/-- An access waits until the word of a key is full or empty, behind those that reached it before (R325). -/
def syncWait (a : Await) (ready : Bool) : M Unit := do
  let s ← get
  if ready && !s.behindAny a then pure () else waitM a

/-- A load by the executing core of `n` bytes at `ea` (R322, R323, R325): `sync` waits for the word to be full, `consume` empties it. A channel that is not
bound to the core's PASID reads as zero (R216). (DEDUCED, assumption 41) (DEDUCED, assumption 89) -/
def loadScalar (ea : Word) (n : Nat) (signed sync consume : Bool) : M Word := do
  checkAddr ea n
  let s ← get
  match s.ovlAt ea with
  | some o => do
    match ← ovlPlace ea n .read with
    | none => trapKeep tcPoison ea
    | some k => do
      let kept := hasFullBit k
      if consume && !kept then trapM tcAperture ea
      else do
        let s ← get
        if sync && kept then syncWait (.full (k / 8)) (!s.isEmpty (k / 8)) else pure ()
        let v ← ovlLoad o ea n k
        if consume then upd fun s => s.setEmpty (k / 8) true else pure ()
        pure (loadValue none n v signed)
  | none =>
  match ← place ea n .read with
  | .key k f => do
    let s ← get
    let kept := hasFullBit k
    if consume && !kept then trapM tcAperture ea
    else do
      if sync && kept then syncWait (.full (k / 8)) (!s.isEmpty (k / 8)) else pure ()
      let (v, p) ← run fun s => s.load k n
      if p then trapKeep tcPoison ea
      else do
        if consume then upd fun s => s.setEmpty (k / 8) true else pure ()
        pure (loadValue f n v signed)
  | .bad => trapKeep tcPoison ea
  | .remoteBad t off => do
    upd fun s => s.remoteError t off s.cur.agent
    trapKeep tcPoison ea
  | .ctl off => if sync then trapM tcAperture ea else cwLoad off n
  | .onr ch off =>
    if sync then trapM tcAperture ea
    else
      let v := s.streamer ch
      pure (if n = 8 && v.bound && v.pasid = s.myPasid then s.onrampRead ch off else 0)

/-- A store by the executing core of `n` bytes at `ea` (R322, R324, R325): `sync` waits for the word to be empty. (DEDUCED, assumption 89) -/
def storeScalar (ea : Word) (n : Nat) (v : Word) (sync : Bool) : M Unit := do
  checkAddr ea n
  let s ← get
  match s.ovlAt ea with
  | some o => do
    match ← ovlPlace ea n .write with
    | none => pure ()
    | some k => do
      let s ← get
      if sync && !hasFullBit k then trapM tcAperture ea
      else do
        if sync then syncWait (.empty (k / 8)) (s.isEmpty (k / 8)) else pure ()
        ovlPut o ea n v.toNat k
  | none =>
  match ← place ea n .write with
  | .key k f => do
    let s ← get
    if sync && !hasFullBit k then trapM tcAperture ea
    else do
      if sync then syncWait (.empty (k / 8)) (s.isEmpty (k / 8)) else pure ()
      let r ← withLaneFp (fun q => storeValue f n (rndMode 0 s.me.rm.toNat) v q)
      upd fun s => s.store k n r false
  | .bad => if s.cur.isFc then pure () else trapKeep tcPoison ea
  | .remoteBad t off => upd fun s => s.remoteError t off s.cur.agent
  | .ctl off => if sync then trapM tcAperture ea else cwStore off n v
  | .onr ch off =>
    if sync then trapM tcAperture ea
    else
      let r := s.streamer ch
      if n = 8 && (!r.bound || r.pasid = s.myPasid) then upd fun s => s.onrampWrite ch off v else pure ()

/-- `ld`, `lds` and `ldc` (R321, R323, R325). -/
def ldBody (x : FmtM) (signed consume : Bool) : M Unit := do
  let s ← get
  let v ← loadScalar (memAddr x s) (2 ^ x.size.toNat) signed (x.ord = 3) consume
  writeS x.dr v

/-- `st` (R321, R324, R325); with `ORD` 2 or 3 it is a release (R266). -/
def stBody (x : FmtM) : M Unit := do
  let s ← get
  let a := memAddr x s
  let v ← readS x.dr
  checkAddr a (2 ^ x.size.toNat)
  if 2 ≤ x.ord.toNat then releaseM else pure ()
  storeScalar a (2 ^ x.size.toNat) v (x.ord = 3)

/-- `ld` (R323). -/
def execLd (x : FmtM) (s : State) : Host.Outcome State Fault Refusal := native (.ld x) (ldBody x false false) s

/-- `lds` (R323). -/
def execLds (x : FmtM) (s : State) : Host.Outcome State Fault Refusal := native (.lds x) (ldBody x true false) s

/-- `ldc` (R325). -/
def execLdc (x : FmtM) (s : State) : Host.Outcome State Fault Refusal := native (.ldc x) (ldBody x false true) s

/-- `st` (R324). -/
def execSt (x : FmtM) (s : State) : Host.Outcome State Fault Refusal := native (.st x) (stBody x) s

end Sys2Proof.Machine
end

