-- ==== Sys2Proof/Machine/Runtime.lean ====
section
/-! DEFINITION. The Rilvis runtime of a control core (R204 to R219, R417 to R427): values, objects and their counts, the release queue, site
records and the inline cache, the launch port, native detours, and the runtime instructions. -/

namespace Sys2Proof.Machine

-- Values

/-- The kind of a value (R204, R420): 0 pointer, 1 integer, 2 special, 3 FP32, 4 reserved or broken. -/
def valueKind (v : Word) : Nat :=
  match v.toNat % 8 with
  | 0 => if v ≠ 0 && v.toNat % 16 = 0 && v.toNat >>> 56 = 0 then 0 else 4
  | 1 => 1
  | 2 => if v.toNat / 8 ≤ 2 then 2 else 4
  | 3 => 3
  | _ => 4

/-- Whether a value names an object. -/
def isPtr (v : Word) : Bool := valueKind v = 0

/-- The payload of an integer value (R204). -/
def intOf (v : Word) : Int := (v.extractLsb' 3 61).toInt

/-- An integer value. -/
def mkInt (n : Int) : Word := BitVec.ofInt 61 n ++ 1#3

/-- The special value none (R204). -/
def vNone : Word := 0x02

/-- The number of the executing control core. -/
def State.ccNo (s : State) : Nat :=
  match s.cur with
  | .cc n => n
  | _ => 0

/-- The executing control core. -/
def State.myCc (s : State) : CtlCore := s.cc s.ccNo
def State.setMyCc (s : State) (v : CtlCore) : State := s.setCc s.ccNo v

/-- A plain 8-byte load (R402). -/
def rd8 (a : Word) : M Word := loadScalar a 8 false false false

/-- Consecutive words loaded. -/
def rdWords (a : Word) : Nat → M (List Word)
  | 0 => pure []
  | n + 1 => do
    let v ← rd8 a
    let r ← rdWords (a + 8) n
    pure (v :: r)

-- Headers (R205)

/-- Fields of header word 0: `SHAPE_ID`, `SIZE`, `FLAGS.TENSOR`. -/
def hdrShape (w : Word) : Nat := bits w 31 0
def hdrSlots (w : Word) : Nat := 2 * bits w 47 32 - 2
def hdrTensor (w : Word) : Bool := bit w 48

/-- The address of slot `i` of an object. -/
def slotOf (o : Word) (i : Nat) : Word := o + 16 + w64 (8 * i)

/-- Whether a value is a pointer to a tensor. -/
def isTensor (v : Word) : M Bool := if isPtr v then do pure (hdrTensor (← rd8 v)) else pure false

-- Writes

/-- The writes of a bytecode or of a runtime instruction: a store, an exchange of a slot (R409, R421), a word stored and left empty
(R210), one more `PIN` of a descriptor (R209), a count up or down (R206), an entry of the release queue (R207); a guard hit (R213), and the
issue of a launch with its sequence number and the room that its buffer takes (R214). -/
inductive Want where
  | put (a v : Word)
  | xchg (a v : Word)
  | pend (a v : Word)
  | pin (d : Word)
  | count (p : Word) (up : Bool)
  | enq (a p : Word)
  | hit (a : Word) (j : Nat)
  | issue (l : Launch) (q : BitVec 16) (room : Nat)
  deriving DecidableEq, Repr

/-- One count step on a header (R206): what it becomes, and whether the object enters the release queue. (DEDUCED, assumption 57) -/
def countStep (w0 w1 : Word) (up : Bool) : Word × Word × Bool :=
  if bit w0 49 then (w0, w1, false)
  else
    let rc := bits w1 31 0
    if up then
      if rc = 2 ^ 32 - 1 then (putBit w0 49 true, w1, false) else (w0, putBits w1 0 32 (w64 (rc + 1)), false)
    else if rc = 0 then (putBit w0 51 true, w1, false)
    else if rc = 1 then (putBit w0 50 true, putBits w1 0 32 0, true)
    else (w0, putBits w1 0 32 (w64 (rc - 1)), false)

/-- An atomic step on `n` bytes at `a` (R328, R330): the key, with poison trapped. (DEDUCED, assumption 13) -/
def atomPlace (a : Word) (n : Nat) : M Nat := do
  checkAddr a n
  match ← place a n .atomic with
  | .key k _ => do
    let (_, p) ← run fun s => s.load k 8
    if p then trapKeep tcPoison a
    else if n = 8 then pure k
    else do
      let (_, q) ← run fun s => s.load (k + 8) 8
      if q then trapKeep tcPoison (a + 8) else pure k
  | .bad => trapKeep tcPoison a
  | _ => trapM tcAperture a

/-- A guard hit counted in the cache (R212, R213). -/
def State.addHit (s : State) (a : Word) (j : Nat) : State :=
  let v := s.myCc
  s.setMyCc { v with sites := v.sites.map fun r =>
    if r.pasid = v.pasid && r.addr = a.toNat then { r with hits := Tbl.put r.hits j (Tbl.get 0 r.hits j + 1) } else r }

/-- A launch of the executing core's port issued (R214): `OBJP`, `BUFP`, the sequence number and an argument slot go with it. -/
def State.issueLaunch (s : State) (l : Launch) (q : BitVec 16) (room : Nat) : State :=
  let u := s.fresh
  let v := s.myCc
  (s.newId.2.setLaunch u l).setMyCc { v with
    objp := v.objp + 0x90, bufp := v.bufp + w64 room, seq := q + 1, argSlots := v.argSlots ++ [q.toNat % 32] }

/-- One write performed; a count that falls to 0 is followed by the entry of its release queue. -/
def Want.perform : Want → M (List Want)
  | .put a v => do
    storeScalar a 8 v false
    pure []
  | .xchg a v => do
    let k ← atomPlace a 8
    upd fun s => s.store8 k v
    pure []
  | .pend a v => do
    checkAddr a 8
    match ← place a 8 .write with
    | .key k _ => upd fun s => let s := s.store8 k v; if hasFullBit k then s.setEmpty (k / 8) true else s
    | .bad => trapKeep tcPoison a
    | _ => trapM tcAperture a
    pure []
  | .pin d => do
    let k ← atomPlace (d + 16) 8
    upd fun s => s.store8 k (putBits (s.wordAt (k / 8)) 0 32 (s.wordAt (k / 8) + 1))
    pure []
  | .count p up => do
    let k ← atomPlace p 16
    let s ← get
    let (w0, w1, q) := countStep (s.wordAt (k / 8)) (s.wordAt (k / 8 + 1)) up
    if w0 = s.wordAt (k / 8) && w1 = s.wordAt (k / 8 + 1) then pure []
    else do
      upd fun s => (s.store8 k w0).store8 (k + 8) w1
      pure (if q then [.enq (w64 (s.rqAddr s.ccNo)) p] else [])
  | .enq a p => do
    storeScalar a 8 p false
    upd fun s => s.setMyCc s.myCc.rqNext
    pure []
  | .hit a j => do
    upd fun s => s.addHit a j
    pure []
  | .issue l q room => do
    upd fun s => s.issueLaunch l q room
    pure []

/-- Writes in order (R403): one that must wait leaves none of them made, one that traps leaves those before it. `s0` is the state before the
first. -/
def commitGo (s0 : State) : Nat → List Want → M Unit
  | _, [] => pure ()
  | 0, _ => pure ()
  | fuel + 1, w :: r => fun s =>
    match w.perform s with
    | .ok (more, k) => commitGo s0 fuel (more ++ r) k
    | .error (.trap c a none) => .error (.trap c a (some s))
    | .error (.wait _ _) =>
      match w.perform s0 with
      | .error (.wait a k) => .error (.wait a k)
      | _ => .error (.wait .hold s0)
    | .error e => .error e

/-- The writes of a bytecode. -/
def commit (ws : List Want) : M Unit := fun s => commitGo s (2 * ws.length) ws s

/-- The writes of a runtime instruction: a trap leaves none made (R417). -/
def commitWhole (ws : List Want) : M Unit := fun s =>
  match commit ws s with
  | .error (.trap c a _) => .error (.trap c a none)
  | r => r

/-- The count of a pointer value raised or lowered; another value has none. -/
def countOf (v : Word) (up : Bool) : List Want := if isPtr v then [.count v up] else []

-- Site records (R211, R212)

/-- `STATE`, `NENT` and `SKIND` of a record's first word. -/
def siteState (ws : List Word) : Nat := bits (ws.getD 0 0) 1 0
def siteNent (ws : List Word) : Nat := bits (ws.getD 0 0) 4 2
def siteKind (ws : List Word) : Nat := bits (ws.getD 0 0) 15 8

/-- The entry in use whose `KEY` is this key. -/
def siteEntry (ws : List Word) (key : Word) : Option Nat := leastBelow (fun j => ws.getD (4 + 3 * j) 0 = key) (min 4 (siteNent ws))

/-- The entry that a guard matches (R213). -/
def siteMatch (ws : List Word) (key : Word) : Option Nat :=
  if siteState ws = 1 || siteState ws = 2 then siteEntry ws key else none

/-- `HITS` with more hits, saturating (R211). -/
def addHits (w : Word) (n : Nat) : Word := putBits w 0 32 (w64 (min (2 ^ 32 - 1) (bits w 31 0 + n)))

/-- Hits written back at an address of a PASID; one whose page does not translate is lost, and one whose page moves, or whose new home
has a forwarded queue still to apply (R123), stays with the core.
(DEDUCED, assumption 56) -/
def State.hitBack (s : State) (c : Nat) (e : Nat × Nat × Nat) : State :=
  match s.translate (0x1040 + c) e.1 e.2.1 .write with
  | (.ok t, s) =>
    let k := t.key e.2.1
    let moved := match s.migAt k false with
      | some (_, m) => m.queued.any s.accessLive
      | none => false
    if (s.migAt k true).isSome || moved then s.setCc c { s.cc c with lateHits := (s.cc c).lateHits ++ [e] }
    else s.store8 k (addHits (s.wordAt (k / 8)) e.2.2)
  | (_, s) => s

/-- Hit counts that a cached record holds are written back, behind those that have waited (R212). -/
def State.siteFlush (s : State) (c : Nat) (r : Site) : State :=
  ((s.cc c).lateHits ++ r.hits.map fun (e : Nat × Nat) => (r.pasid, r.addr + 48 + 24 * e.1, e.2)).foldl (fun s e => s.hitBack c e)
    (s.setCc c { s.cc c with lateHits := [] })

/-- Records beyond 512 leave the cache, the least recently used first (R212). (DEDUCED, assumption 56) -/
def State.siteEvict (s : State) (c : Nat) : State :=
  let l := (s.cc c).sites
  (l.drop 512).foldl (fun s r => s.siteFlush c r) (s.setCc c { s.cc c with sites := l.take 512 })

/-- The record at an address through the core's inline cache, filled from memory on a miss (R212). -/
def siteRead (a : Word) : M (List Word) := do
  let s ← get
  let v := s.myCc
  let mine (r : Site) : Bool := r.pasid = v.pasid && r.addr = a.toNat
  match v.sites.find? mine with
  | some r => do
    upd fun s => s.setMyCc { s.myCc with sites := r :: s.myCc.sites.filter fun e => !mine e }
    pure r.words
  | none => do
    let ws ← rdWords a 16
    upd fun s => (s.setMyCc { s.myCc with sites := { pasid := v.pasid, addr := a.toNat, words := ws } :: s.myCc.sites }).siteEvict s.ccNo
    pure ws

/-- Every control core's inline cache drops the record at an address of a PASID, its hit counts written back first (R212). (DEDUCED, assumption 56) -/
def State.dropSite (s : State) (pasid : Nat) (a : Word) : State :=
  s.ccs.foldl (fun s e =>
    let hit (r : Site) : Bool := r.pasid = pasid && r.addr = a.toNat
    let s := (e.2.sites.filter hit).foldl (fun s r => s.siteFlush e.1 r) (s.siteFlush e.1 { pasid := pasid, addr := a.toNat, words := [] })
    s.setCc e.1 { s.cc e.1 with sites := (s.cc e.1).sites.filter fun r => !hit r }) s

/-- `icl` on a record (R212). -/
def siteClear (ws : List Word) : List Word :=
  (putBits (ws.getD 0 0) 0 5 0 :: (ws.drop 1).take 3) ++ List.replicate 12 0

/-- `icu` on a record (R212): the status and the record. -/
def siteUpdate (ws : List Word) (key target : Word) : Nat × List Word :=
  let n := siteNent ws
  let put (j : Nat) (h : Word) : List Word := ((ws.set (4 + 3 * j) key).set (5 + 3 * j) target).set (6 + 3 * j) h
  if bit target 63 && (siteKind ws = 2 || siteKind ws = 3) then (3, ws)
  else if siteState ws = 3 then (2, ws)
  else
    match siteEntry ws key with
    | some j => (0, put j (putBits (ws.getD (6 + 3 * j) 0) 0 32 0))
    | none =>
      if 4 ≤ n then (1, ws.set 0 (putBits (ws.getD 0 0) 0 2 3))
      else (0, (put n 0).set 0 (putBits (ws.getD 0 0) 0 5 (w64 ((n + 1) <<< 2 ||| (if n = 0 then 1 else 2)))))

/-- The words of a record stored from a key, each that changes. -/
def State.putSite (s : State) (k : Nat) : List Word → State
  | [] => s
  | w :: r => (if s.wordAt (k / 8) = w then s else s.store8 k w).putSite (k + 8) r

/-- A site record read and written as one step at its home (R212), every inline cache having dropped it. -/
def siteStep (a : Word) (f : List Word → Nat × List Word) : M Nat := do
  match ← place a 128 .atomic with
  | .key k _ => do
    let _ ← run fun s => s.load k 128
    let s ← get
    match leastBelow (fun i => s.isPoison (k / 8 + i)) 16 with
    | some i => trapKeep tcPoison (a + w64 (8 * i))
    | none => do
      upd fun s => s.dropSite s.myPasid a
      let s ← get
      let (n, ws) := f ((List.range 16).map fun i => s.wordAt (k / 8 + i))
      upd fun s => s.putSite k ws
      pure n
  | .bad => trapM tcPoison a
  | _ => trapM tcAperture a

-- The launch port (R214)

/-- A launch that the port has planned: the writes of R214 in order with the issue after them, and the result tensor. -/
structure PortPlan where
  wants : List Want
  result : Word

/-- A tensor operand: its address, its descriptor, and `ADDR` of the buffer. -/
structure PortOp where
  obj : Word
  bd : Word
  addr : Word
  deriving DecidableEq, Repr

/-- The tensor behind an operand, if it is one. -/
def portOp (v : Word) : M (Option PortOp) := do
  if ← isTensor v then do
    let bd ← rd8 (v + 0x58)
    let a ← rd8 bd
    pure (some { obj := v, bd := bd, addr := a })
  else pure none

/-- The live launch that an operand's empty `PEND` names (R214 step 3). (DEDUCED, assumption 55) -/
def portWait (o : PortOp) : M (List Nat) := do
  match ← place (o.obj + 0x60) 8 .read with
  | .key k _ => do
    let s ← get
    if hasFullBit k && s.isEmpty (k / 8) then
      pure ((s.liveLaunch s.myPasid (bits (s.wordAt (k / 8)) 63 32)).toList)
    else pure []
  | _ => pure []

/-- The first sequence number at or after `q` whose id names no live launch of the PASID (R214 step 5). -/
def State.portSeq (s : State) (c pasid : Nat) : Nat → BitVec 16 → BitVec 16
  | 0, q => q
  | fuel + 1, q => if (s.liveLaunch pasid (0xC0000000 + c * 0x10000 + q.toNat)).isSome then s.portSeq c pasid fuel (q + 1) else q

/-- The launch of R214, its checks made: `fail` is what a receiver that is no tensor, and too little room, do. (DEDUCED, assumption 55) -/
def portPlan (notTensor noRoom : M PortPlan) (tmpl o1 : Word) (o2 : Option Word) : M PortPlan := do
  if !(← isTensor o1) then notTensor
  else do
    let bd ← rd8 (o1 + 0x58)
    let nb ← rd8 (bd + 8)
    let s ← get
    let v := s.myCc
    let c := s.ccNo
    let room := (nb.toNat + 63) / 64 * 64
    if v.obje.toNat < v.objp.toNat + 0x90 || v.bufe.toNat < v.bufp.toNat + room then noRoom
    else if 32 ≤ s.portCount c then waitM .port
    else do
      let ws ← rdWords o1 11
      let p1 : PortOp := { obj := o1, bd := bd, addr := ← rd8 bd }
      let p2 ← match o2 with
        | some v => portOp v
        | none => pure none
      let ops := p1 :: p2.toList
      let waits ← ops.mapM portWait
      let s ← get
      let q := s.portSeq c v.pasid (s.launches.length + 1) v.seq
      let id := 0xC0000000 + c * 0x10000 + q.toNat
      let r := v.objp
      let d := v.objp + 0x70
      let arg := v.argbase + w64 (64 * (q.toNat % 32))
      let w (i : Nat) : Word := ws.getD i 0
      let head : Word := putBits (w 0) 48 16 1
      let dims := (List.range (min 4 (bits (w 2) 10 8))).foldl (fun (m : Word) i => m * w (3 + i)) 1
      let res := [head, putBits (w 1) 0 32 1, w 2, w 3, w 4, w 5, w 6, w 7, w 8, w 9, w 10, d]
      let args := [o1, o2.getD 0, r, p1.addr, (p2.map PortOp.addr).getD 0, v.bufp, dims, 0]
      let puts (a : Word) (l : List Word) : List Want := l.mapIdx fun i x => .put (a + w64 (8 * i)) x
      let l : Launch := { id := BitVec.ofNat 32 id, pasid := v.pasid, x0 := bits v.lrect 7 0, y0 := bits v.lrect 15 8, w := bits v.lrect 23 16,
                          h := bits v.lrect 31 24, args := arg, tmplAddr := tmpl,
                          origin := .port c (q.toNat % 32) r (ops.map PortOp.bd ++ [d]) waits.flatten (bits v.lrect 33 32) }
      let l := if rectOk l.x0 l.y0 l.w l.h then l else { l with st := .faulted, status := 2 }
      pure {
        wants := puts r res ++ [.put (r + 0x68) 0] ++ puts d [v.bufp, nb, 1, 0] ++ ops.map (fun o => .pin o.bd) ++
          [.pend (r + 0x60) (w64 (id <<< 32))] ++ puts arg args ++ [.issue l q room]
        result := r }

-- Native detours (R424)

/-- A native detour: a jump to word r of the `DTVEC` table. -/
def nativeDetour (i : Instr) (r : Nat) (op : Word) : M Unit := do
  let s ← get
  let h ← rd8 (s.myCc.dtvec + w64 (8 * r))
  fun s =>
    let s := s.finish i
    let c := s.me
    let c := { c with live := c.live &&& 0x5C, pc := h }
    .error (.done (s.setMe (((((c.setG 0 (w64 r)).setG 1 op).setG 5 0).setG 7 0).setG 14 s.myCc.nsp)))

-- The runtime instructions (R417)

/-- The record that an instruction names: 128-byte aligned (R418). -/
def siteArg (a : Word) : M Unit := checkAddr a 128

/-- `icl` (R418). -/
def iclBody (x : FmtR) : M Unit := do
  let s ← get
  let a := s.gReg x.a.toNat
  siteArg a
  let _ ← siteStep a fun ws => (0, siteClear ws)
  pure ()

/-- `icl` (R418). -/
def execIcl (x : FmtR) (s : State) : Host.Outcome State Fault Refusal := native (.icl x) (iclBody x) s

/-- `icu` (R418). -/
def icuBody (x : FmtR) : M Unit := do
  let s ← get
  let a := s.gReg x.a.toNat
  let t := s.gReg x.c.toNat
  siteArg a
  need (bits t 62 56 = 0) tcEngerr 1
  need (bits t 55 0 % (if bit t 63 then 64 else 8) = 0) tcMisalign t
  let n ← siteStep a fun ws => siteUpdate ws (s.gReg x.b.toNat) t
  writeS x.d (w64 n)

/-- `icu` (R418). -/
def execIcu (x : FmtR) (s : State) : Host.Outcome State Fault Refusal := native (.icu x) (icuBody x) s

/-- `guard` (R419). -/
def guardBody (x : FmtR) : M Unit := do
  let s ← get
  let a := s.gReg x.a.toNat
  siteArg a
  let ws ← siteRead a
  writeS x.d (match siteMatch ws (s.gReg x.b.toNat) with
    | some j => w64 j
    | none => BitVec.allOnes 64)

/-- `guard` (R419). -/
def execGuard (x : FmtR) (s : State) : Host.Outcome State Fault Refusal := native (.guard x) (guardBody x) s

/-- `tagchk` (R420). -/
def execTagchk (x : FmtR) (s : State) : Host.Outcome State Fault Refusal :=
  native (.tagchk x) (do
    let s ← get
    writeS x.d (w64 (valueKind (s.gReg x.a.toNat)))) s

/-- The checks of a slot access (R421): the header's first word. -/
def slotChecks (o sel : Word) : M Word := do
  need (bits sel 31 16 = 0) tcEngerr 1
  need (isPtr o) tcEngerr 2
  let w ← rd8 o
  need (hdrShape w = bits sel 63 32) tcEngerr 3
  need (bits sel 15 0 < hdrSlots w) tcEngerr 6
  pure w

/-- `ldslot` (R421). -/
def ldslotBody (x : FmtR) : M Unit := do
  let s ← get
  let o := s.gReg x.a.toNat
  let sel := s.gReg x.b.toNat
  let _ ← slotChecks o sel
  let v ← rd8 (slotOf o (bits sel 15 0))
  writeS x.d v

/-- `ldslot` (R421). -/
def execLdslot (x : FmtR) (s : State) : Host.Outcome State Fault Refusal := native (.ldslot x) (ldslotBody x) s

/-- At least 4 entries of the release queue are free (R207, R417). -/
def roomOr4 : M Unit := do
  let s ← get
  need (4 ≤ s.rqFree s.ccNo) tcEngerr 4

/-- `stslot` (R421). A value that breaks R204 is no valid operand (R417). (DEDUCED, assumption 57) -/
def stslotBody (x : FmtR) : M Unit := do
  let s ← get
  let o := s.gReg x.a.toNat
  let sel := s.gReg x.b.toNat
  let v := s.gReg x.c.toNat
  let w ← slotChecks o sel
  need (!hdrTensor w && valueKind v ≠ 4) tcEngerr 2
  roomOr4
  let a := slotOf o (bits sel 15 0)
  let old ← rd8 a
  commitWhole (countOf v true ++ [.xchg a v] ++ countOf old false)

/-- `stslot` (R421). -/
def execStslot (x : FmtR) (s : State) : Host.Outcome State Fault Refusal := native (.stslot x) (stslotBody x) s

/-- `rcinc` (R422). -/
def execRcinc (x : FmtR) (s : State) : Host.Outcome State Fault Refusal :=
  native (.rcinc x) (do
    let s ← get
    let v := s.gReg x.a.toNat
    need (v.toNat % 8 ≠ 0 || isPtr v) tcEngerr 2
    commitWhole (countOf v true)) s

/-- `rcdec` (R422). -/
def execRcdec (x : FmtR) (s : State) : Host.Outcome State Fault Refusal :=
  native (.rcdec x) (do
    let s ← get
    let v := s.gReg x.a.toNat
    need (v.toNat % 8 ≠ 0 || isPtr v) tcEngerr 2
    if isPtr v then roomOr4
    commitWhole (countOf v false)) s

/-- `twait` (R423). -/
def twaitBody (x : FmtR) : M Unit := do
  let s ← get
  let v := s.gReg x.a.toNat
  need (← isTensor v) tcEngerr 2
  let e ← loadScalar (v + 0x60) 8 false true false
  if x.dt = 1 then writeS x.d (w64 (bits e 7 0))
  else if bits e 7 0 = 0 then pure ()
  else nativeDetour (.twait x) 8 v

/-- `twait` (R423). -/
def execTwait (x : FmtR) (s : State) : Host.Outcome State Fault Refusal := native (.twait x) (twaitBody x) s

/-- `detour` (R424). -/
def detourBody (x : FmtR) : M Unit := do
  let s ← get
  let r := bits (s.gReg x.a.toNat) 3 0
  need (3 ≤ r && r ≤ 8) tcEngerr 1
  nativeDetour (.detour x) r (s.gReg x.b.toNat)

/-- `detour` (R424). -/
def execDetour (x : FmtR) (s : State) : Host.Outcome State Fault Refusal := native (.detour x) (detourBody x) s

/-- `detret` (R217, R425). -/
def detretBody : M Unit := do
  let s ← get
  let c := s.me
  match [2, 3, 4, 14].find? fun n => !c.live.getLsbD n with
  | some n => trapM tcStale (w64 n)
  | none => do
    need ((c.gReg 2).toNat % 8 = 0) tcMisalign (c.gReg 2)
    need ((c.gReg 4).toNat % 8 = 0) tcMisalign (c.gReg 4)
    upd fun s =>
      let s := s.setMyCc { s.myCc with vpc := c.gReg 2, vsp := c.gReg 3, vfr := c.gReg 4, nsp := c.gReg 14, bytecode := true }
      s.setMe { s.me with g := [], live := 0 }

/-- `detret` (R425). -/
def execDetret (x : FmtR) (s : State) : Host.Outcome State Fault Refusal := native (.detret x) detretBody s

/-- `plaunch` (R427). -/
def plaunchBody (x : FmtR) : M Unit := do
  let s ← get
  let t := s.gReg x.a.toNat
  let o2 := s.gReg x.c.toNat
  need (t.toNat % 64 = 0) tcMisalign t
  let p ← portPlan (trapM tcEngerr 2) (trapM tcEngerr 5) t (s.gReg x.b.toNat) (if o2 = 0 then none else some o2)
  commitWhole p.wants
  writeS x.d p.result

/-- `plaunch` (R427). -/
def execPlaunch (x : FmtR) (s : State) : Host.Outcome State Fault Refusal := native (.plaunch x) (plaunchBody x) s

end Sys2Proof.Machine
end

