-- ==== Sys2Proof/Machine/Bytecode.lean ====
section
/-! DEFINITION. Rilvis bytecode (R220, R222, R402 to R416) and its detours (R217, R218), and the reserved opcodes. -/

namespace Sys2Proof.Machine

-- Detours (R217)

/-- The registers of a handler at its entry (R217). -/
def handlerRegs (v : CtlCore) (reason : Nat) (g1 site key : Word) : Tbl Word :=
  let put (m : Tbl Word) (e : Nat × Word) : Tbl Word := Tbl.set 0 m e.1 e.2
  [(0, w64 reason), (1, g1), (2, v.vpc), (3, v.vsp), (4, v.vfr), (5, site), (6, v.vpc + 8), (7, key), (14, v.nsp)].foldl put []

/-- The core enters native mode at a handler (R217). -/
def State.enterHandler (s : State) (h : Word) (reason : Nat) (g1 site key : Word) : State :=
  let s := s.unwait
  let s := s.setMe { s.me.settled with pc := h, g := handlerRegs s.myCc reason g1 site key, live := 0x40FF }
  s.setMyCc { s.myCc with bytecode := false }

/-- The address that holds a detour's handler: `DETOUR` of the site for reasons 1 and 2, else word r of `DTVEC` (R217). (DESIGN CHOICE, assumption 54) -/
def State.handlerAt (s : State) (reason : Nat) (site : Word) : Word :=
  if reason = 1 || reason = 2 then site + 8 else s.myCc.dtvec + w64 (8 * reason)

/-- A detour: `k` is the state it leaves, `s` the one before the bytecode, in which it waits when its handler's word does not translate. A
handler's word that cannot be read stops the core as a trap without a handler does (R202). (DESIGN CHOICE, assumption 54) -/
def State.detour (s k : State) (i : Option Instr) (reason : Nat) (g1 site key : Word) : State :=
  let a := k.handlerAt reason site
  match (if reason = 1 || reason = 2 then (siteRead site).map fun ws => ws.getD 1 0 else rd8 a) k with
  | .ok (h, k) => k.enterHandler h reason g1 site key
  | .error (.wait _ _) =>
    match rd8 a s with
    | .error (.wait w r) => r.blockAt i w
    | _ => s.blockAt i .hold
  | .error (.trap c _ _) => s.unwait.noHandler c
  | .error _ => s

/-- A bytecode as a step (R217, R218, R403): it completes, waits with none of its writes made, or detours. -/
def bytecode (i : Instr) (body : M Unit) (s : State) : Host.Outcome State Fault Refusal :=
  .next (
    if !i.wf then s.detour s (some i) 3 (encode i &&& 0xFF) 0 0
    else
      match body.run s with
      | .ok (_, k) => (k.setMe k.me.settled).unwait
      | .error (.wait a k) => k.block i a
      | .error (.detour r g1 site key k) => s.detour k (some i) r g1 site key
      | .error (.trap c _ k) => s.detour (k.getD s) (some i) 7 (w64 c) 0 0
      | .error (.trapNext _) => s
      | .error (.hold k) => k
      | .error (.done k) => k.unwait)

-- Pieces

def badOp {α : Type} (i : Instr) : M α := detourM 3 (encode i &&& 0xFF) 0 0
def badVal {α : Type} (v : Word) : M α := detourM 4 v 0 0

/-- At least `n` entries of the release queue are free (R207). (DEDUCED, assumption 53) -/
def relRoom (n : Nat) : M Unit := do
  let s ← get
  if s.rqFree s.ccNo < n then detourM 6 0 0 0 else pure ()

/-- A value that a bytecode must interpret (R204). (DEDUCED, assumption 52) -/
def checkVal (v : Word) : M Unit := if valueKind v = 4 then badVal v else pure ()

/-- The value s(n) of the operand stack (R402). -/
def stackAt (n : Nat) : M Word := do
  let s ← get
  rd8 (s.myCc.vsp - w64 (8 * (n + 1)))

def localAt (v : CtlCore) (n : Nat) : Word := v.vfr + w64 (8 * n)
def globalAt (v : CtlCore) (n : Nat) : Word := v.sitebase - w64 (8 * (n + 1))

/-- The bytecode completes with these writes: `VSP` moves by `d` bytes, `VPC` to the next bytecode (R403). -/
def finishBc (ws : List Want) (d : Int) : M Unit := do
  commit ws
  upd fun s => s.setMyCc { s.myCc with vsp := s.myCc.vsp + BitVec.ofInt 64 d, vpc := s.myCc.vpc + 8 }

/-- The target of a branch (R220). -/
def bcTarget (v : CtlCore) (off : BitVec 16) : Word := v.vpc + 8 + off.signExtend 64

/-- A bytecode without a write that branches or not, having moved `VSP`. -/
def branchBc (yes : Bool) (off : BitVec 16) (d : Int) : M Unit :=
  upd fun s => s.setMyCc { s.myCc with vsp := s.myCc.vsp + BitVec.ofInt 64 d, vpc := if yes then bcTarget s.myCc off else s.myCc.vpc + 8 }

/-- A value pushed (R402), a copy gaining its count. -/
def pushBc (v : Word) (copy : Bool) : M Unit := do
  let s ← get
  finishBc (.put s.myCc.vsp v :: (if copy then countOf v true else [])) 8

-- Stack, constants and locals (R408)

/-- The core stops with `VPC` here (R222). -/
def stopHere : M Unit := fun s => .error (.done (s.stopCc s.ccNo))

/-- `end` (R222). -/
def execBcEnd (s : State) : Host.Outcome State Fault Refusal := bytecode .bcEnd stopHere s

/-- `ldi` (R222). -/
def execBcLdi (x : BitVec 16) (s : State) : Host.Outcome State Fault Refusal := bytecode (.bcLdi x) (pushBc (mkInt x.toInt) false) s

/-- `ldsp` (R408). -/
def execBcLdsp (n : BitVec 8) (s : State) : Host.Outcome State Fault Refusal :=
  bytecode (.bcLdsp n) (if 2 < n.toNat then badOp (.bcLdsp n) else pushBc (w64 (n.toNat * 8 + 2)) false) s

/-- A copy of the value at an address is pushed. (DEDUCED, assumption 52) -/
def pushCopy (a : Word) : M Unit := do
  let v ← rd8 a
  checkVal v
  pushBc v true

/-- The popped value moves to an address; the value overwritten loses its count. -/
def popTo (a : Word) : M Unit := do
  relRoom 4
  let v ← stackAt 0
  let old ← rd8 a
  finishBc (.put a v :: countOf old false) (-8)

/-- `ldloc` (R222). -/
def execBcLdloc (n : BitVec 8) (s : State) : Host.Outcome State Fault Refusal :=
  bytecode (.bcLdloc n) (do pushCopy (localAt (← get).myCc n.toNat)) s

/-- `stloc` (R222). -/
def execBcStloc (n : BitVec 8) (s : State) : Host.Outcome State Fault Refusal :=
  bytecode (.bcStloc n) (do popTo (localAt (← get).myCc n.toNat)) s

/-- `ldglob` (R408, R407). -/
def execBcLdglob (n : BitVec 16) (s : State) : Host.Outcome State Fault Refusal :=
  bytecode (.bcLdglob n) (do pushCopy (globalAt (← get).myCc n.toNat)) s

/-- `stglob` (R408, R407). -/
def execBcStglob (n : BitVec 16) (s : State) : Host.Outcome State Fault Refusal :=
  bytecode (.bcStglob n) (do popTo (globalAt (← get).myCc n.toNat)) s

/-- `dup` (R408). -/
def execBcDup (s : State) : Host.Outcome State Fault Refusal :=
  bytecode .bcDup (do pushCopy ((← get).myCc.vsp - 8)) s

/-- `pop` (R408). -/
def execBcPop (s : State) : Host.Outcome State Fault Refusal :=
  bytecode .bcPop (do
    relRoom 4
    let v ← stackAt 0
    finishBc (countOf v false) (-8)) s

/-- `swap` (R408). -/
def execBcSwap (s : State) : Host.Outcome State Fault Refusal :=
  bytecode .bcSwap (do
    let p ← stackAt 0
    let q ← stackAt 1
    let v := (← get).myCc.vsp
    finishBc [.put (v - 8) q, .put (v - 16) p] 0) s

-- Slots and building (R409)

/-- An object operand whose slots include those below `n`: its first word, or BADVAL. (DEDUCED, assumption 52) (DEDUCED, assumption 53) -/
def needObj (o : Word) (n : Nat) : M Unit := do
  if !isPtr o then badVal o
  else do
    let w ← rd8 o
    if hdrTensor w || hdrSlots w < n then badVal o else pure ()

/-- `ldsl` (R409). -/
def execBcLdsl (n : BitVec 8) (s : State) : Host.Outcome State Fault Refusal :=
  bytecode (.bcLdsl n) (do
    relRoom 4
    let o ← stackAt 0
    needObj o (n.toNat + 1)
    let v ← rd8 (slotOf o n.toNat)
    checkVal v
    finishBc (.put ((← get).myCc.vsp - 8) v :: countOf v true ++ countOf o false) 0) s

/-- `stsl` (R409). -/
def execBcStsl (n : BitVec 8) (s : State) : Host.Outcome State Fault Refusal :=
  bytecode (.bcStsl n) (do
    relRoom 4
    let o ← stackAt 1
    let v ← stackAt 0
    needObj o (n.toNat + 1)
    let old ← rd8 (slotOf o n.toNat)
    finishBc (.xchg (slotOf o n.toNat) v :: countOf old false ++ countOf o false) (-16)) s

/-- `mkobj` (R409). -/
def execBcMkobj (m : BitVec 16) (n : BitVec 8) (s : State) : Host.Outcome State Fault Refusal :=
  bytecode (.bcMkobj m n) (do
    let k := n.toNat
    let size := 1 + (k + 1) / 2
    let v := (← get).myCc
    if v.obje.toNat < v.objp.toNat + 16 * size then detourM 5 0 0 0
    else do
      let vs ← (List.range k).mapM fun i => stackAt (k - 1 - i)
      let slots := if k % 2 = 1 then vs ++ [vNone] else vs
      finishBc (.put v.objp (w64 (m.toNat ||| size <<< 32)) :: .put (v.objp + 8) 1 ::
        slots.mapIdx (fun i x => .put (slotOf v.objp i) x) ++ [.put (v.vsp - w64 (8 * k)) v.objp]) (8 - 8 * k)
      upd fun s => s.setMyCc { s.myCc with objp := v.objp + w64 (16 * size) }) s

/-- `unpack` (R409). -/
def execBcUnpack (n : BitVec 8) (s : State) : Host.Outcome State Fault Refusal :=
  bytecode (.bcUnpack n) (do
    relRoom 4
    let o ← stackAt 0
    needObj o n.toNat
    let vs ← rdWords (slotOf o 0) n.toNat
    let _ ← vs.mapM checkVal
    let v := (← get).myCc.vsp
    finishBc (vs.mapIdx (fun i x => .put (v - 8 + w64 (8 * i)) x) ++ vs.flatMap (fun x => countOf x true) ++ countOf o false) (8 * n.toNat - 8)) s

-- Control flow (R410)

/-- A local that must hold an integer. -/
def intLocal (n : Nat) : M Int := do
  let v ← rd8 (localAt (← get).myCc n)
  if valueKind v = 1 then pure (intOf v) else badVal v

/-- `loopdec` (R222). -/
def execBcLoopdec (n : BitVec 8) (off : BitVec 16) (s : State) : Host.Outcome State Fault Refusal :=
  bytecode (.bcLoopdec n off) (do
    let p ← intLocal n.toNat
    let w := mkInt (p - 1)
    commit [.put (localAt (← get).myCc n.toNat) w]
    branchBc (w ≠ mkInt 0) off 0) s

/-- `br` (R410). -/
def execBcBr (off : BitVec 16) (s : State) : Host.Outcome State Fault Refusal := bytecode (.bcBr off) (branchBc true off 0) s

/-- The truth of a value (R410). -/
def truth (v : Word) : M Bool :=
  if v = 0x12 || (valueKind v = 1 && v ≠ mkInt 0) then pure true
  else if v = 0x0A || v = vNone || v = mkInt 0 then pure false
  else badVal v

/-- `brt` (R410). -/
def execBcBrt (off : BitVec 16) (s : State) : Host.Outcome State Fault Refusal :=
  bytecode (.bcBrt off) (do branchBc (← truth (← stackAt 0)) off (-8)) s

/-- `brf` (R410). -/
def execBcBrf (off : BitVec 16) (s : State) : Host.Outcome State Fault Refusal :=
  bytecode (.bcBrf off) (do branchBc (!(← truth (← stackAt 0))) off (-8)) s

/-- `forr` (R410). -/
def execBcForr (n : BitVec 8) (off : BitVec 16) (s : State) : Host.Outcome State Fault Refusal :=
  bytecode (.bcForr n off) (do
    let c ← intLocal n.toNat
    let l ← intLocal (n.toNat + 1)
    let v := (← get).myCc
    if c < l then finishBc [.put (localAt v n.toNat) (mkInt (c + 1)), .put v.vsp (mkInt c)] 8
    else branchBc true off 0) s

-- Sites (R411, R412)

/-- id, dt and sc of an operand (R213). -/
def keyParts (v : Word) : M (Nat × Nat × Nat) := do
  checkVal v
  if !isPtr v then pure (0xFFFFFF00 + v.toNat % 8, 0xF0 + v.toNat % 8, 0)
  else do
    let w ← rd8 v
    if !hdrTensor w then pure (hdrShape w, 0, 0)
    else do
      let d ← rd8 (v + 0x10)
      let dt := bits d 7 0
      if (1 ≤ dt && dt ≤ 14) || dt = 16 then do
        let a ← rd8 (v + 8)
        pure (hdrShape w, dt, bits a 47 32)
      else badVal v

/-- The guard key (R213). -/
def siteKey (o1 : Word) (o2 : Option Word) : M Word := do
  let (i, d1, sc) ← keyParts o1
  let d2 ← match o2 with
    | some v => do
      let (_, d, _) ← keyParts v
      pure d
    | none => pure 0xFF
  pure (w64 (i ||| d1 <<< 32 ||| d2 <<< 40 ||| sc <<< 48))

/-- The launch of a site or of `tlaunch`, and what then completes the bytecode: its result takes the place of the operands, which lose their
counts (R222, R412); `hit` counts the guard's match (R213). -/
def launchBc (tmpl o1 : Word) (o2 : Option Word) (hit : List Want) : M Unit := do
  let p ← portPlan (badVal o1) (detourM 5 0 0 0) tmpl o1 o2
  let n := if o2.isSome then 2 else 1
  let v := (← get).myCc.vsp
  commit (hit ++ p.wants ++ [.put (v - w64 (8 * n)) p.result] ++ countOf o1 false ++ (match o2 with
    | some x => countOf x false
    | none => []))
  upd fun s => s.setMyCc { s.myCc with vsp := s.myCc.vsp + 8 - w64 (8 * n), vpc := s.myCc.vpc + 8 }

/-- A site bytecode (R412): `n` names the site, `kind` is its `SKIND`, `o1` the place of operand 1 on the stack; operand 2, where the bytecode has
one, is s0. (DEDUCED, assumption 53) -/
def siteBody (i : Instr) (n : BitVec 16) (kind o1 : Nat) (two : Bool) : M Unit := do
  let v := (← get).myCc
  if v.siten.toNat ≤ n.toNat then badOp i
  else do
    let a := v.sitebase + w64 (128 * n.toNat)
    let ws ← siteRead a
    if siteKind ws ≠ kind then badOp i
    else do
      if kind ≤ 1 then relRoom 4 else pure ()
      let p ← stackAt o1
      let q ← if two then do pure (some (← stackAt 0)) else pure none
      let key ← siteKey p q
      if siteState ws = 3 then detourM 2 (w64 n.toNat) a key
      else
        match siteMatch ws key with
        | none => detourM 1 (w64 n.toNat) a key
        | some j =>
          let t := ws.getD (5 + 3 * j) 0
          if !bit t 63 then
            fun s => .error (.done ((s.addHit a j).enterHandler (t &&& 0x00FFFFFFFFFFFFFF) 0 (w64 n.toNat) a key))
          else if 1 < kind then badOp i
          else launchBc (t &&& 0x00FFFFFFFFFFFFFF) p q [.hit a j]

/-- `getattr.s` (R409). -/
def execBcGetattrS (n : BitVec 16) (s : State) : Host.Outcome State Fault Refusal :=
  bytecode (.bcGetattrS n) (siteBody (.bcGetattrS n) n 2 0 false) s

/-- `setattr.s` (R409): operand 2 is s0, and its dt enters the key. -/
def execBcSetattrS (n : BitVec 16) (s : State) : Host.Outcome State Fault Refusal :=
  bytecode (.bcSetattrS n) (siteBody (.bcSetattrS n) n 2 1 true) s

/-- `add.s` (R222). -/
def execBcAddS (n : BitVec 16) (s : State) : Host.Outcome State Fault Refusal := bytecode (.bcAddS n) (siteBody (.bcAddS n) n 1 1 true) s

/-- `sub.s` (R411). -/
def execBcSubS (n : BitVec 16) (s : State) : Host.Outcome State Fault Refusal := bytecode (.bcSubS n) (siteBody (.bcSubS n) n 1 1 true) s

/-- `mul.s` (R411). -/
def execBcMulS (n : BitVec 16) (s : State) : Host.Outcome State Fault Refusal := bytecode (.bcMulS n) (siteBody (.bcMulS n) n 1 1 true) s

/-- `div.s` (R411). -/
def execBcDivS (n : BitVec 16) (s : State) : Host.Outcome State Fault Refusal := bytecode (.bcDivS n) (siteBody (.bcDivS n) n 1 1 true) s

/-- `mm.s` (R411). -/
def execBcMmS (n : BitVec 16) (s : State) : Host.Outcome State Fault Refusal := bytecode (.bcMmS n) (siteBody (.bcMmS n) n 1 1 true) s

/-- `lt.s` (R411). -/
def execBcLtS (n : BitVec 16) (s : State) : Host.Outcome State Fault Refusal := bytecode (.bcLtS n) (siteBody (.bcLtS n) n 1 1 true) s

/-- `le.s` (R411). -/
def execBcLeS (n : BitVec 16) (s : State) : Host.Outcome State Fault Refusal := bytecode (.bcLeS n) (siteBody (.bcLeS n) n 1 1 true) s

/-- `eq.s` (R411). -/
def execBcEqS (n : BitVec 16) (s : State) : Host.Outcome State Fault Refusal := bytecode (.bcEqS n) (siteBody (.bcEqS n) n 1 1 true) s

/-- `neg.s` (R411). -/
def execBcNegS (n : BitVec 16) (s : State) : Host.Outcome State Fault Refusal := bytecode (.bcNegS n) (siteBody (.bcNegS n) n 0 0 false) s

/-- `call.s` (R411): the callee lies below its arguments. -/
def execBcCallS (n : BitVec 16) (m : BitVec 8) (s : State) : Host.Outcome State Fault Refusal :=
  bytecode (.bcCallS n m) (siteBody (.bcCallS n m) n 3 m.toNat false) s

-- Calls (R405, R406, R413, R414)

/-- A bytecode function object (R406): entry, `SITEBASE`, and slot 2's payload; none where it breaks the rule. (DEDUCED, assumption 57) -/
def funcOf (f : Word) : M (Option (Word × Word × Nat)) := do
  if !isPtr f then pure none
  else do
    let w ← rd8 f
    if hdrTensor w || hdrSlots w < 3 then pure none
    else do
      let a ← rd8 (slotOf f 0)
      let b ← rd8 (slotOf f 1)
      let c ← rd8 (slotOf f 2)
      let n := c.toNat / 8
      let entry := BitVec.ofInt 64 (intOf a)
      let site := BitVec.ofInt 64 (intOf b)
      if valueKind a = 1 && valueKind b = 1 && valueKind c = 1 && entry.toNat % 8 = 0 && site.toNat % 128 = 0 && n < 2 ^ 32 &&
          n >>> 24 ≤ (n >>> 16) % 256 then pure (some (entry, site, n))
      else pure none

/-- `callb` (R413). -/
def execBcCallb (m : BitVec 8) (s : State) : Host.Outcome State Fault Refusal :=
  bytecode (.bcCallb m) (do
    let n8 := m.toNat
    let f ← stackAt n8
    match ← funcOf f with
    | none => badVal f
    | some (entry, site, n) =>
      if n >>> 24 ≠ n8 then badVal f
      else do
        let v := (← get).myCc
        let nloc := (n >>> 16) % 256
        let args ← (List.range n8).mapM fun i => stackAt (n8 - 1 - i)
        let head := [v.vpc + 8, v.vsp - w64 (8 * (n8 + 1)), v.vfr, v.sitebase, w64 (nloc <<< 16 ||| bits v.siten 15 0), 0, 0, f]
        commit ((head ++ args ++ List.replicate (nloc - n8) vNone).mapIdx fun i x => .put (v.vsp + w64 (8 * i)) x)
        upd fun s => s.setMyCc { s.myCc with
          vfr := v.vsp + 64, vsp := v.vsp + 64 + w64 (8 * nloc), vpc := entry, sitebase := site, siten := w64 (n % 2 ^ 16) }) s

/-- `ret` (R414). -/
def execBcRet (s : State) : Host.Outcome State Fault Refusal :=
  bytecode .bcRet (do
    let v := (← get).myCc
    let rvpc ← rd8 (v.vfr - 64)
    if rvpc = 0 then stopHere
    else do
      let h ← rd8 (v.vfr - 32)
      let nloc := bits h 23 16
      if v.vsp ≠ v.vfr + w64 (8 * nloc) + 8 then badVal v.vsp
      else do
        relRoom (max 4 (nloc + 2))
        let rvsp ← rd8 (v.vfr - 56)
        let rvfr ← rd8 (v.vfr - 48)
        let rsb ← rd8 (v.vfr - 40)
        let x ← stackAt 0
        let ls ← rdWords v.vfr nloc
        let f ← rd8 (v.vfr - 8)
        commit (.put rvsp x :: (ls ++ [f]).flatMap fun w => countOf w false)
        upd fun s => s.setMyCc { s.myCc with
          vpc := rvpc, vfr := rvfr, sitebase := rsb, siten := w64 (bits h 15 0), vsp := rvsp + 8 }) s

-- Launches, waits and exceptions (R415)

/-- `tlaunch` (R415). -/
def execBcTlaunch (n : BitVec 16) (s : State) : Host.Outcome State Fault Refusal :=
  bytecode (.bcTlaunch n) (do
    relRoom 4
    let g ← rd8 (globalAt (← get).myCc n.toNat)
    let t := BitVec.ofInt 64 (intOf g)
    if valueKind g ≠ 1 || t.toNat % 64 ≠ 0 then badVal g
    else do
      let p ← stackAt 1
      let q ← stackAt 0
      checkVal q
      launchBc t p (some q) []) s

/-- `waitt` (R415). -/
def execBcWaitt (s : State) : Host.Outcome State Fault Refusal :=
  bytecode .bcWaitt (do
    let v ← stackAt 0
    checkVal v
    if ← isTensor v then do
      let e ← loadScalar (v + 0x60) 8 false true false
      if bits e 7 0 = 0 then finishBc [] 0 else detourM 8 v 0 0
    else finishBc [] 0) s

/-- `raise` (R415). -/
def execBcRaise (s : State) : Host.Outcome State Fault Refusal :=
  bytecode .bcRaise (do detourM 8 (← stackAt 0) 0 0) s

/-- `try` (R415). -/
def execBcTry (off : BitVec 16) (s : State) : Host.Outcome State Fault Refusal :=
  bytecode (.bcTry off) (do
    let v := (← get).myCc
    finishBc [.put (v.vfr - 24) (bcTarget v off), .put (v.vfr - 16) v.vsp] 0) s

/-- `untry` (R415). -/
def execBcUntry (s : State) : Host.Outcome State Fault Refusal :=
  bytecode .bcUntry (do finishBc [.put ((← get).myCc.vfr - 24) 0] 0) s

/-- An opcode byte that no rule assigns (R416). -/
def execUnassignedBytecode (b : Byte) (s : State) : Host.Outcome State Fault Refusal :=
  bytecode (.unassignedBytecode b) (badOp (.unassignedBytecode b)) s

/-- A native opcode that the opcode map reserves (R293): TC_ILLOP. -/
def execReservedOpcode (w : Word) (s : State) : Host.Outcome State Fault Refusal := .next (s.takeTrap tcIllop w s.me.pc)

end Sys2Proof.Machine
end

