-- ==== Sys2Proof/Machine/Loader.lean ====
section
/-! DEFINITION. The loader (R61 to R74): the management command `OLOAD`, which checks a container, places its sections, patches its buffer records
and templates, and reports what it skipped. -/

namespace Sys2Proof.Machine

/-- How a load ends early: it waits for a ticket, or it is refused with a code of R74. -/
inductive LdStop where
  | later (s : State)
  | refuse (code : Nat)

/-- The loader's work on the state. -/
abbrev Ld := StateT State (Except LdStop)

/-- A refusal (R74). -/
def ldRefuse {α : Type} (code : Nat) : Ld α := fun _ => .error (.refuse code)

/-- A refusal unless a condition holds. -/
def ldNeed (b : Bool) (code : Nat) : Ld Unit := if b then pure () else ldRefuse code

/-- What the loader works on: its command slot, the PASID, and the container's address. -/
structure LdCtx where
  slot : Nat
  pasid : Nat
  base : Nat

/-- The loader's accesses are those of FC0 under the request's PASID. -/
def ldAgent : Nat := 0x1080

/-- The work of a load, by its command slot. -/
def LdCtx.work (x : LdCtx) : Nat := workOf ldAgent x.slot

/-- One byte of process memory; one that cannot be read makes the container unusable (code 2). -/
def ldByte (x : LdCtx) (a : Nat) : Ld Byte := fun s =>
  let c := s.cmd x.slot
  if 2 ^ 56 ≤ a || c.failed.contains (a / 65536) then .error (.refuse 2)
  else
    match s.agentLoad x.work x.pasid a 1 with
    | (.error t, s) => .error (.later (s.setCmd x.slot { c with ticket := t }))
    | (.ok (v, p), s) => if p then .error (.refuse 2) else .ok (BitVec.ofNat 8 v, s)

/-- Bytes of process memory. -/
def ldBytes (x : LdCtx) (a : Nat) : Nat → Ld (List Byte)
  | 0 => pure []
  | n + 1 => do
    let b ← ldByte x a
    let r ← ldBytes x (a + 1) n
    pure (b :: r)

/-- A little-endian number of bytes. -/
def leBytes : List Byte → Nat
  | [] => 0
  | b :: r => b.toNat + 256 * leBytes r

/-- `n` bytes of the container as a number. -/
def ldNum (x : LdCtx) (off n : Nat) : Ld Nat := do pure (leBytes (← ldBytes x (x.base + off) n))

/-- Bits [hi:lo] of a number. -/
def nbits (v hi lo : Nat) : Nat := (v >>> lo) % 2 ^ (hi + 1 - lo)

-- Sections (R62 to R64)

/-- A section table entry. -/
structure Sect where
  ix : Nat
  stype : Nat
  align : Nat
  off : Nat
  len : Nat
  link : Nat
  deriving DecidableEq, Repr

/-- The entry of an index. `KEEP` is not held: the loader keeps the bytes of every section in the process image. (DESIGN CHOICE, assumption 86) -/
def sectOf (ix v : Nat) : Sect :=
  { ix := ix, stype := nbits v 15 0, align := nbits v 31 24, off := nbits v 127 64, len := nbits v 191 128, link := nbits v 223 192 }

/-- Section types that the loader knows (R63). -/
def Sect.known (e : Sect) : Bool := [0, 1, 2, 3, 0x10, 0x20, 0x21, 0x30, 0x40].contains e.stype

/-- Sections that the loader places: every known type but Null and Notes. -/
def Sect.placed (e : Sect) : Bool := e.known && e.stype ≠ 0 && e.stype ≠ 0x40

/-- The rules of R62 for the sections of a container of `size` bytes whose table lies at `tab`. (DEDUCED, assumption 58) -/
def sectsOk (size tab : Nat) (all : List Sect) : Bool :=
  let l := all.filter fun e => e.stype ≠ 0
  l.all (fun e => 3 ≤ e.align && e.align ≤ 16 && e.off % 2 ^ e.align = 0 && e.off + e.len ≤ size &&
    !meetRange e.off e.len 0 64 && !meetRange e.off e.len tab (32 * all.length) &&
    l.all fun f => e.ix = f.ix || !meetRange e.off e.len f.off f.len)

/-- The known section that a link or an index names, with this type (R64). -/
def sectNamed (l : List Sect) (ix stype : Nat) : Option Sect := l.find? fun e => e.ix = ix && e.stype = stype

-- Notes (R72, R73)

/-- The notes of a section: the types skipped, or a refusal, with 2 for a record that runs past the end before 6 for a note; the value of a
minimum-loader-version note is the first four bytes of its description, or all of a shorter one; `fuel` bounds the records. (DEDUCED, assumption 58) -/
def notesGo (b : List Byte) : Nat → Except Nat (List Nat)
  | 0 => .ok []
  | fuel + 1 =>
    if b = [] then .ok []
    else
      let h := leBytes (b.take 8)
      let size := nbits h 63 32
      let n := 8 + (size + 7) / 8 * 8
      if b.length < n then .error 2
      else
        let known := nbits h 15 0 = 1 || nbits h 15 0 = 2
        let refused := (nbits h 15 0 = 2 && 1 < leBytes ((b.drop 8).take (min 4 size))) || (!known && nbits h 16 16 = 1)
        match notesGo (b.drop n) fuel with
        | .ok r => if refused then .error 6 else .ok (if known then r else nbits h 15 0 :: r)
        | .error e => .error e

-- Templates (R68, R69, R229)

/-- The refusal of a template, if any: its class, its ranges, its partition, its floor. (DEDUCED, assumption 58) -/
def tmplRefusal (devclass : Nat) (t : BitVec 512) : Option Nat :=
  let p := tmplPart t
  let cls := tmplClass t
  let lg := tmplStackLg t
  if !(cls = 0 || cls = 7) || (devclass = 0 && cls = 7) then some 3
  else if !(8 ≤ lg && lg ≤ 16) || 64 < tmplNbar t || 8 < tmplNacc t || !(1 ≤ tmplNfreg t && tmplNfreg t ≤ 32) ||
      !(1 ≤ tmplNstrA t && tmplNstrA t ≤ 32) || !(1 ≤ tmplNstrC t && tmplNstrC t ≤ 32) then some 4
  else if p >>> 22 ≠ 0 || (p >>> 14) % 4 ≠ 0 || partAccb p % 2 = 1 || 16 < partAccb p || 32 < partNslice p ||
      32 < partSpb p + partAccb p + partRfb p + 1 then some 4
  else if partAccb p / 2 < tmplNacc t || partNslice p < max (tmplNstrA t) (tmplNstrC t) ||
      partSpb p * 0x8000 < 2 * partNslice p * 2 ^ lg then some 4
  else if cls = 0 && (16 < tmplNfreg t || 4 < tmplNacc t || 8 < tmplNbar t || 8 < partSpb p) then some 4
  else none

/-- `ASECT` and `CSECT` of a template. -/
def tmplAsect (t : BitVec 512) : Nat := fld t 343 328
def tmplCsect (t : BitVec 512) : Nat := fld t 359 344

/-- Whether a template's code sections are there, name each other, and hold its entries (R68). -/
def tmplLinked (l : List Sect) (t : BitVec 512) : Bool :=
  match sectNamed l (tmplAsect t) 1, sectNamed l (tmplCsect t) 2 with
  | some a, some c => a.link = c.ix && c.link = a.ix && (tmplAEntry t).toNat < a.len && (tmplCEntry t).toNat < c.len
  | _, _ => false

-- Buffer records (R65, R66)

/-- The patched `VALUE` of a record: `places` are the sections' device addresses, `ext` the external bases. -/
def patchRec (places : Tbl Nat) (ext : List Word) (r : Nat) : Option Nat :=
  let value := nbits r 63 0
  let base := nbits r 111 96
  match nbits r 127 124 with
  | 0 =>
    if base = 0xFFFF then some value
    else if 0x8000 ≤ base && base ≤ 0x80FF then (ext[base - 0x8000]?).map fun w => (w.toNat + value) % 2 ^ 64
    else (Tbl.find places base).map fun a => (a + value) % 2 ^ 64
  | 1 => if base = 0xFFFF && value < 2 ^ 20 then some value else none
  | _ => none

/-- A section's bytes with its 16-byte records patched. -/
def patchPool (places : Tbl Nat) (ext : List Word) (b : List Byte) : Nat → Option (List Byte)
  | 0 => some b
  | n + 1 =>
    match patchRec places ext (leBytes (b.take 16)), patchPool places ext (b.drop 16) n with
    | some v, some r => some (bytesOf v 8 ++ (b.take 16).drop 8 ++ r)
    | _, _ => none

/-- A section's bytes with its templates patched (R68): entries, pool and record count. -/
def patchTmpls (places : Tbl Nat) (pool : Sect) (b : List Byte) : Nat → List Byte
  | 0 => b
  | n + 1 =>
    let t : BitVec 512 := BitVec.ofNat 512 (leBytes (b.take 64))
    let at_ (ix : Nat) : Nat := Tbl.get 0 places ix
    let t := setFld t 63 0 (at_ (tmplAsect t) + (tmplAEntry t).toNat)
    let t := setFld t 127 64 (at_ (tmplCsect t) + (tmplCEntry t).toNat)
    let t := setFld (setFld t 191 128 (at_ pool.ix)) 223 192 (pool.len / 16)
    bytesOf t.toNat 64 ++ patchTmpls places pool (b.drop 64) n

-- Placement

/-- log2 of the alignment of a placed section: it has pages of its own, whatever `ALIGN` in [3, 16] asks for (R62, R67, R68).
(DESIGN CHOICE, assumption 59) (DESIGN CHOICE, assumption 88) -/
def placeLg : Nat := 16

/-- The bytes that a placed section takes up. -/
def Sect.span (e : Sect) : Nat := roundUp e.len placeLg

/-- The first aligned place from `a` on that is free: each range in the way is passed over once. -/
def firstFit (occ : List (Nat × Nat)) (n : Nat) : Nat → Nat → Nat
  | 0, a => a
  | fuel + 1, a =>
    match occ.find? fun r => meetRange a n r.1 r.2 with
    | none => a
    | some r => firstFit occ n fuel (roundUp (r.1 + r.2) placeLg)

/-- Device addresses of sections in table order (R62, R74), apart from each other and from the ranges `occ`, those that the PASID's handles hold (R75)
and those that its tables map: each at the first free place from one of the firmware's own choosing. (DESIGN CHOICE, assumption 59) -/
def placeAll (no : Nat) : List (Nat × Nat) → List Sect → Tbl Nat
  | _, [] => []
  | occ, e :: r =>
    let a := firstFit occ e.span (occ.length + 1) (roundUp (Config.placeAt no e.ix e.len % 2 ^ 56) placeLg)
    (e.ix, a) :: placeAll no (occ ++ [(a, e.span)]) r

/-- What the handles of a PASID hold, or of every one. -/
def State.loaded (s : State) (p : Handle → Bool) : List (Nat × Nat) := (s.handles.filter p).flatMap Handle.sections

/-- The page of an address mapped by the firmware (R103 to R106): nodes that are missing are made empty, and the leaf gets a frame and its
permission bits. (DESIGN CHOICE, assumption 59) -/
def State.mapGo (s : State) (va node perm : Nat) : List (Nat × Nat × Nat) → State
  | [] => s
  | (lo, n, lvl) :: rest =>
    let k := node + 8 * ((va >>> lo) % 2 ^ n)
    let e := s.wordAt (k / 8)
    if lvl = 0 then
      let (f, s) := s.freeFrame 65536
      s.store8 k (w64 (f ||| (f / 2 ^ 38) <<< 55 ||| 1 <<< 11 ||| perm <<< 1 ||| 1))
    else if bit e 0 then s.mapGo va (bits e 51 12 <<< 12) perm rest
    else
      let (f, s) := s.freeFrame 131072
      let s := s.clearRange f (f + 131072)
      (s.store8 k (w64 (f ||| 1))).mapGo va f perm rest

/-- The memory key of a byte of a placed section; at the section's first byte of a page that page is mapped, and allows what the section does (R67). (DESIGN CHOICE, assumption 59) -/
def State.placeKey (s : State) (pasid va perm : Nat) : Nat × State :=
  let key (leaf : Word) (huge : Bool) : Nat := leafFrame leaf + va % (if huge then 2 ^ 25 else 2 ^ 16)
  match s.walk ldAgent pasid va .read with
  | (some (leaf, _, huge), s) => (key leaf huge, s)
  | (none, s) =>
    let root := s.wordAt ((s.ptabBase.toNat + 8 * pasid) / 8)
    let s := s.mapGo va (bits root 51 12 <<< 12) perm walkLevels
    match s.walk ldAgent pasid va .read with
    | (some (leaf, _, huge), s) => (key leaf huge, s)
    | (none, s) => (va, s)

/-- Bytes written to a placed section. -/
def State.placeBytes (s : State) (pasid va perm : Nat) : List Byte → State
  | [] => s
  | b :: r =>
    let (k, s) := s.placeKey pasid va perm
    (s.store k 1 b.toNat false).placeBytes pasid (va + 1) perm r

/-- The permission bits [RD, WR, EX] of a placed section: code is executable, a pool is read-only (R67), a site table is written by `icu`. (DESIGN CHOICE, assumption 59) -/
def Sect.perm (e : Sect) : Nat := if e.stype ≤ 3 then 5 else if e.stype = 0x21 then 3 else 1

-- The command

/-- A byte of the report buffer written; a failed page discards it. -/
def ldPut (x : LdCtx) (a : Nat) (b : Byte) : Ld Unit := fun s =>
  let c := s.cmd x.slot
  if 2 ^ 56 ≤ a || c.failed.contains (a / 65536) then .ok ((), s)
  else
    match s.agentStore x.work x.pasid a 1 b.toNat with
    | (.later t, s) => .error (.later (s.setCmd x.slot { c with ticket := t }))
    | (_, s) => .ok ((), s)

/-- The report (R74, R96): the count, and up to 64 entries. -/
def ldReport (x : LdCtx) (buf : Nat) (items : List (Nat × Nat)) : Ld Unit := do
  let words := min 255 items.length :: (items.take 64).map fun e => e.1 ||| e.2 <<< 32
  let bs := words.flatMap fun w => bytesOf w 8
  let _ ← (bs.zip (List.range bs.length)).mapM fun e => ldPut x (buf + e.2) e.1
  pure ()

/-- Every check of a container, in the order of the codes of R74, and what is to be placed: sections with their device addresses and bytes,
the templates' addresses, and the report's entries. A tail shorter than a record or a template is placed as it is, and templates need no `ALIGN` of their
own. (DESIGN CHOICE, assumption 87) (DESIGN CHOICE, assumption 88) -/
def ldCheck (x : LdCtx) (ext : List Word) (no : Nat) : Ld (List (Sect × Nat × List Byte) × List Nat × List (Nat × Nat)) := do
  let h ← ldNum x 0 64
  ldNeed (nbits h 31 0 = 0x4C564C4F && nbits h 47 32 = 1) 1
  let size := nbits h 191 128
  let tab := nbits h 127 96
  let n := nbits h 95 80
  let dev := nbits h 71 64
  ldNeed (1 ≤ n && n ≤ 1024 && size % 64 = 0 && tab % 64 = 0 && 64 ≤ tab && tab + 32 * n ≤ size) 2
  let all ← (List.range n).mapM fun i => do pure (sectOf i (← ldNum x (tab + 32 * i) 32))
  ldNeed (sectsOk size tab all) 2
  let raw ← (all.filter fun e => e.placed || e.stype = 0x40).mapM fun e => do pure (e, ← ldBytes x (x.base + e.off) e.len)
  let notes ← raw.mapM fun e =>
    if e.1.stype = 0x40 then
      match notesGo e.2 (e.1.len + 1) with
      | .ok l => pure (e.1.ix, l)
      | .error 2 => ldRefuse 2
      | .error _ => pure (e.1.ix, [2 ^ 16])
    else pure (e.1.ix, [])
  ldNeed (dev = 0 || dev = 7) 3
  let secs := all.filter fun e => e.placed
  let tmpls := raw.flatMap fun e =>
    if e.1.stype = 0x20 then (List.range (e.1.len / 64)).map fun j => (e.1, BitVec.ofNat 512 (leBytes ((e.2.drop (64 * j)).take 64))) else []
  ldNeed (!tmpls.any fun t => tmplRefusal dev t.2 = some 3) 3
  ldNeed (!tmpls.any fun t => tmplRefusal dev t.2 = some 4 || !tmplLinked secs t.2) 4
  ldNeed ((secs.filter fun e => e.stype = 0x20).all fun e => (sectNamed secs e.link 0x30).isSome) 4
  let s ← get
  let places := placeAll no (s.loaded (fun h => h.pasid = x.pasid) ++ (s.tables x.pasid).1) secs
  let place (e : Sect) : Nat := Tbl.get 0 places e.ix
  let out ← (raw.filter fun e => e.1.placed).mapM fun e =>
    if e.1.stype = 0x30 then
      match patchPool places ext e.2 (e.1.len / 16) with
      | some b => pure (e.1, place e.1, b)
      | none => ldRefuse 5
    else if e.1.stype = 0x20 then
      match sectNamed secs e.1.link 0x30 with
      | some p => pure (e.1, place e.1, patchTmpls places p e.2 (e.1.len / 64))
      | none => ldRefuse 4
    else pure (e.1, place e.1, e.2)
  ldNeed (!notes.any fun e => e.2.contains (2 ^ 16)) 6
  ldNeed ((secs.all fun e => place e + e.span ≤ 2 ^ 56) && Config.loadFits no (s.loaded fun _ => true) (secs.map fun e => (place e, e.span))) 7
  let skipped := all.flatMap fun e =>
    if !e.known then [(e.ix, e.stype)]
    else if e.stype = 0x40 then (notes.filter fun r => r.1 = e.ix).flatMap fun r => r.2.map fun t => (0xFFFFFFFF, t)
    else []
  pure (out, (secs.filter fun e => e.stype = 0x20).flatMap fun e => (List.range (e.len / 64)).map fun j => place e + 64 * j, skipped)

/-- A load whole: the external bases, the checks, the report; what is to be placed, and the templates' addresses. (DEDUCED, assumption 58) -/
def ldAll (x : LdCtx) (ext cnt buf no : Nat) : Ld (List (Sect × Nat × List Byte) × List Nat) := do
  let bases ← (List.range cnt).mapM fun i => do pure (w64 (leBytes (← ldBytes x (ext + 8 * i) 8)))
  let r ← ldCheck x bases no
  ldReport x buf r.2.2
  pure (r.1, r.2.1)

/-- OLOAD (R74, R96) of slot `n`. -/
def State.oload (s : State) : Option State :=
  s.command 0x10 [0xFFFFFFFFFFFFFFFF, 0xFFFFF, 0xFFFFFFFFFFFFFFFF, 0x1FF] fun s k c =>
    let p := bits (c.word 2) 19 0
    let cnt := (c.word 4).toNat
    if c.ticket.isSome then none
    else if !s.enabled p || 256 < cnt || (c.word 1).toNat % 64 ≠ 0 then some (s.reply k 254 [])
    else
      let no := s.loads
      match (ldAll { slot := k, pasid := p, base := (c.word 1).toNat } (c.word 3).toNat cnt (c.word 5).toNat no).run s with
      | .error (.later s) => some s
      | .error (.refuse code) => some ({ s with loads := no + 1 }.reply k code [])
      | .ok ((secs, tmpls), s) =>
        let h := Config.loadHandle no
        let s := secs.foldl (fun s e => s.placeBytes p e.2.1 e.1.perm e.2.2) s
        let s : State := { s with
          loads := no + 1
          handles := s.handles ++ [{ handle := h, pasid := p, templates := tmpls, sections := secs.map fun e => (e.2.1, e.1.span) }] }
        some (s.reply k 0 [h])

/-- OLOAD (R74). -/
def execOload (s : State) : Host.Outcome State Fault Refusal := event State.oload s

end Sys2Proof.Machine
end

