-- ==== Sys2Proof/Machine/Scalar.lean ====
section
/-! DEFINITION. Integer arithmetic, bit operations, comparisons, selection, moves and immediate forms (R296 to R304). -/

namespace Sys2Proof.Machine

/-- The signed reading of a word as an integer. -/
def sInt (v : Word) : Int := v.toInt

/-- The operand of an arithmetic form in the type `DT` names (R297). -/
def typed (dt : BitVec 5) (v : Word) : Int := if dt = 1 then v.toInt else v.toNat

/-- The least and greatest value of the type `DT` names (R297). -/
def typeRange (dt : BitVec 5) : Int × Int := if dt = 1 then (-2 ^ 63, 2 ^ 63 - 1) else (0, 2 ^ 64 - 1)

/-- floor(r × 2^s). (DEDUCED, assumption 14) -/
def scaleInt (r s : Int) : Int := if 0 ≤ s then r * 2 ^ s.toNat else r / 2 ^ (-s).toNat

/-- The result of `add`, `sub` and `mul` from the exact one (R297): scaled, clamped when `CLAMP` is 11, with its flags. -/
def narrow (x : FmtR) (r : Int) : Word × BitVec 6 :=
  let r := scaleInt r (scaleOf x.scale)
  let (lo, hi) := typeRange x.dt
  let c := if x.clamp = 3 then max lo (min hi r) else r
  (BitVec.ofInt 64 c, satFlag (c ≠ r))

/-- `add`, `sub` and `mul`: an exact operation, narrowed (R297). -/
def exactOp (x : FmtR) (f : Int → Int → Int) : M Unit := do
  let a ← readSM x.a x.ma (x.dt = 1)
  let b ← readSM x.b x.mb (x.dt = 1)
  let r := narrow x (f (typed x.dt a) (typed x.dt b))
  raiseFlags r.2
  writeS x.d r.1

/-- A form of two scalar sources whose result and flags depend on their bits alone (R297, R301); `g` says that its function number makes them
signed, for Z. (DEDUCED, assumption 12) -/
def binaryOp (x : FmtR) (g : Bool) (f : Word → Word → Word × BitVec 6) : M Unit := do
  let a ← readSM x.a x.ma g
  let b ← readSM x.b x.mb g
  let r := f a b
  raiseFlags r.2
  writeS x.d r.1

/-- A result without flags. -/
def plainly (f : Word → Word → Word) (a b : Word) : Word × BitVec 6 := (f a b, 0)

/-- A division or remainder: all ones and `DIVZERO` when the divisor is 0 (R297). -/
def divided (f : Word → Word → Word) (a b : Word) : Word × BitVec 6 :=
  if b = 0 then (BitVec.allOnes 64, flDivzero) else (f a b, 0)

def mulhValue (a b : Word) : Word := BitVec.ofInt 64 (a.toInt * b.toInt / 2 ^ 64)
def mulhuValue (a b : Word) : Word := w64 (a.toNat * b.toNat / 2 ^ 64)
def divValue (a b : Word) : Word := BitVec.ofInt 64 (a.toInt.tdiv b.toInt)
def divuValue (a b : Word) : Word := w64 (a.toNat / b.toNat)
def remValue (a b : Word) : Word := BitVec.ofInt 64 (a.toInt.tmod b.toInt)
def remuValue (a b : Word) : Word := w64 (a.toNat % b.toNat)
def minValue (a b : Word) : Word := if a.toInt ≤ b.toInt then a else b
def maxValue (a b : Word) : Word := if a.toInt ≤ b.toInt then b else a
def minuValue (a b : Word) : Word := if a.toNat ≤ b.toNat then a else b
def maxuValue (a b : Word) : Word := if a.toNat ≤ b.toNat then b else a

/-- `add` (R297). -/
def execAdd (x : FmtR) (s : State) : Host.Outcome State Fault Refusal :=
  native (.add x) (exactOp x (· + ·)) s

/-- `sub` (R297). -/
def execSub (x : FmtR) (s : State) : Host.Outcome State Fault Refusal :=
  native (.sub x) (exactOp x (· - ·)) s

/-- `mul` (R297). -/
def execMul (x : FmtR) (s : State) : Host.Outcome State Fault Refusal :=
  native (.mul x) (exactOp x (· * ·)) s

/-- `mulh` (R297). -/
def execMulh (x : FmtR) (s : State) : Host.Outcome State Fault Refusal :=
  native (.mulh x) (binaryOp x true (plainly mulhValue)) s

/-- `mulhu` (R297). -/
def execMulhu (x : FmtR) (s : State) : Host.Outcome State Fault Refusal :=
  native (.mulhu x) (binaryOp x false (plainly mulhuValue)) s

/-- `min` (R297). -/
def execMin (x : FmtR) (s : State) : Host.Outcome State Fault Refusal :=
  native (.min x) (binaryOp x true (plainly minValue)) s

/-- `max` (R297). -/
def execMax (x : FmtR) (s : State) : Host.Outcome State Fault Refusal :=
  native (.max x) (binaryOp x true (plainly maxValue)) s

/-- `minu` (R297). -/
def execMinu (x : FmtR) (s : State) : Host.Outcome State Fault Refusal :=
  native (.minu x) (binaryOp x false (plainly minuValue)) s

/-- `maxu` (R297). -/
def execMaxu (x : FmtR) (s : State) : Host.Outcome State Fault Refusal :=
  native (.maxu x) (binaryOp x false (plainly maxuValue)) s

/-- `div` (R297). -/
def execDiv (x : FmtR) (s : State) : Host.Outcome State Fault Refusal :=
  native (.div x) (binaryOp x true (divided divValue)) s

/-- `divu` (R297). -/
def execDivu (x : FmtR) (s : State) : Host.Outcome State Fault Refusal :=
  native (.divu x) (binaryOp x false (divided divuValue)) s

/-- `rem` (R297). -/
def execRem (x : FmtR) (s : State) : Host.Outcome State Fault Refusal :=
  native (.rem x) (binaryOp x true (divided remValue)) s

/-- `remu` (R297). -/
def execRemu (x : FmtR) (s : State) : Host.Outcome State Fault Refusal :=
  native (.remu x) (binaryOp x false (divided remuValue)) s

/-- A bit operation on A alone (R299). -/
def bitUnary (x : FmtR) (f : Word → Word) : M Unit := do
  let a ← readS x.a
  writeS x.d (f a)

/-- A bit operation on A and B (R299). -/
def bitBinary (x : FmtR) (f : Word → Word → Word) : M Unit := do
  let a ← readS x.a
  let b ← readS x.b
  writeS x.d (f a b)

/-- A left shift by a whole register: 0 from 64 on (R299). -/
def shlValue (a n : Word) : Word := if n.toNat < 64 then a <<< n.toNat else 0
def shrValue (a n : Word) : Word := if n.toNat < 64 then a >>> n.toNat else 0
def sraValue (a n : Word) : Word := a.sshiftRight (min n.toNat 63)

/-- The number of leading zero bits among the low `n` (R299). -/
def clzGo (a : Word) : Nat → Nat
  | 0 => 0
  | n + 1 => if a.getLsbD n then 0 else 1 + clzGo a n

/-- Leading zero bits; 64 for 0. -/
def clzValue (a : Word) : Word := w64 (clzGo a 64)

/-- The number of trailing zero bits among bits [63 : 64 − n]. -/
def ctzGo (a : Word) : Nat → Nat
  | 0 => 0
  | n + 1 => if a.getLsbD (63 - n) then 0 else 1 + ctzGo a n

/-- Trailing zero bits; 64 for 0. -/
def ctzValue (a : Word) : Word := w64 (ctzGo a 64)

/-- One bits. -/
def popcValue (a : Word) : Word := w64 ((List.range 64).filter fun i => a.getLsbD i).length

/-- The lowest bit and the width of a control value of `bext` and `bins` (R299). -/
def bitField (c : Word) : Nat × Nat := (bits c 5 0, bits c 11 6 + 1)

/-- `bext`: the field, cut at bit 63 (R299). -/
def bextValue (a c : Word) : Word :=
  let (lo, w) := bitField c
  w64 (bits a (min (lo + w - 1) 63) lo)

/-- `bins`: `v` placed in the field, cut at bit 63 (R299). -/
def binsValue (a c v : Word) : Word :=
  let (lo, w) := bitField c
  let m : Word := w64 ((2 ^ w - 1) <<< lo)
  (a &&& ~~~ m) ||| ((v <<< lo) &&& m)

/-- `and` (R299). -/
def execAnd (x : FmtR) (s : State) : Host.Outcome State Fault Refusal :=
  native (.and x) (bitBinary x fun a b => a &&& b) s

/-- `or` (R299). -/
def execOr (x : FmtR) (s : State) : Host.Outcome State Fault Refusal :=
  native (.or x) (bitBinary x fun a b => a ||| b) s

/-- `xor` (R299). -/
def execXor (x : FmtR) (s : State) : Host.Outcome State Fault Refusal :=
  native (.xor x) (bitBinary x fun a b => a ^^^ b) s

/-- `shl` (R299). -/
def execShl (x : FmtR) (s : State) : Host.Outcome State Fault Refusal :=
  native (.shl x) (bitBinary x shlValue) s

/-- `shr` (R299). -/
def execShr (x : FmtR) (s : State) : Host.Outcome State Fault Refusal :=
  native (.shr x) (bitBinary x shrValue) s

/-- `sra` (R299). -/
def execSra (x : FmtR) (s : State) : Host.Outcome State Fault Refusal :=
  native (.sra x) (bitBinary x sraValue) s

/-- `bext` (R299). -/
def execBext (x : FmtR) (s : State) : Host.Outcome State Fault Refusal :=
  native (.bext x) (bitBinary x bextValue) s

/-- `clz` (R299). -/
def execClz (x : FmtR) (s : State) : Host.Outcome State Fault Refusal :=
  native (.clz x) (bitUnary x clzValue) s

/-- `ctz` (R299). -/
def execCtz (x : FmtR) (s : State) : Host.Outcome State Fault Refusal :=
  native (.ctz x) (bitUnary x ctzValue) s

/-- `popc` (R299). -/
def execPopc (x : FmtR) (s : State) : Host.Outcome State Fault Refusal :=
  native (.popc x) (bitUnary x popcValue) s

/-- Three sources, read in field order. -/
def binsBody (x : FmtR) : M Unit := do
  let a ← readS x.a
  let c ← readS x.b
  let v ← readS x.c
  writeS x.d (binsValue a c v)

/-- `bins` (R299). -/
def execBins (x : FmtR) (s : State) : Host.Outcome State Fault Refusal :=
  native (.bins x) (binsBody x) s

/-- `seq` (R301). -/
def execSeq (x : FmtR) (s : State) : Host.Outcome State Fault Refusal :=
  native (.seq x) (binaryOp x true (plainly fun a b => ofBool (decide (a = b)))) s

/-- `sne` (R301). -/
def execSne (x : FmtR) (s : State) : Host.Outcome State Fault Refusal :=
  native (.sne x) (binaryOp x true (plainly fun a b => ofBool (decide (a ≠ b)))) s

/-- `slt` (R301). -/
def execSlt (x : FmtR) (s : State) : Host.Outcome State Fault Refusal :=
  native (.slt x) (binaryOp x true (plainly fun a b => ofBool (decide (a.toInt < b.toInt)))) s

/-- `sltu` (R301). -/
def execSltu (x : FmtR) (s : State) : Host.Outcome State Fault Refusal :=
  native (.sltu x) (binaryOp x false (plainly fun a b => ofBool (decide (a.toNat < b.toNat)))) s

/-- `sle` (R301). -/
def execSle (x : FmtR) (s : State) : Host.Outcome State Fault Refusal :=
  native (.sle x) (binaryOp x true (plainly fun a b => ofBool (decide (a.toInt ≤ b.toInt)))) s

/-- `sleu` (R301). -/
def execSleu (x : FmtR) (s : State) : Host.Outcome State Fault Refusal :=
  native (.sleu x) (binaryOp x false (plainly fun a b => ofBool (decide (a.toNat ≤ b.toNat)))) s

/-- `sel` reads all three sources whichever it selects (R301). -/
def selBody (x : FmtR) : M Unit := do
  let a ← readSM x.a x.ma true
  let b ← readSM x.b x.mb true
  let c ← readS x.c
  writeS x.d (if c ≠ 0 then a else b)

/-- `sel` (R301). -/
def execSel (x : FmtR) (s : State) : Host.Outcome State Fault Refusal :=
  native (.sel x) (selBody x) s

/-- `mov` (R301). -/
def movBody (x : FmtR) : M Unit := do
  let a ← readSM x.a x.ma true
  writeS x.d a

/-- `mov` (R301). -/
def execMov (x : FmtR) (s : State) : Host.Outcome State Fault Refusal :=
  native (.mov x) (movBody x) s

/-- `movi`: the widened immediate, or every lane of an f-register (R303). -/
def moviBody (x : FmtI) : M Unit := strmCmd (.movi x) <|
  if 16 ≤ x.d.toNat && x.d.toNat < 48 then writeV x.d (BitVec.allOnes 64) (splat x.imm) else writeS x.d x.value

/-- An immediate form: a scalar source and the widened immediate (R303). -/
def immOp (x : FmtI) (f : Word → Word → Word) : M Unit := do
  let a ← readS x.a
  writeS x.d (f a x.value)

/-- `movi` (R303). -/
def execMovi (x : FmtI) (s : State) : Host.Outcome State Fault Refusal :=
  native (.movi x) (moviBody x) s

/-- `addi` (R303). -/
def execAddi (x : FmtI) (s : State) : Host.Outcome State Fault Refusal :=
  native (.addi x) (immOp x fun a v => a + v) s

/-- `andi` (R303). -/
def execAndi (x : FmtI) (s : State) : Host.Outcome State Fault Refusal :=
  native (.andi x) (immOp x fun a v => a &&& v) s

/-- `ori` (R303). -/
def execOri (x : FmtI) (s : State) : Host.Outcome State Fault Refusal :=
  native (.ori x) (immOp x fun a v => a ||| v) s

/-- `xori` (R303). -/
def execXori (x : FmtI) (s : State) : Host.Outcome State Fault Refusal :=
  native (.xori x) (immOp x fun a v => a ^^^ v) s

/-- `shli` (R303). -/
def execShli (x : FmtI) (s : State) : Host.Outcome State Fault Refusal :=
  native (.shli x) (immOp x fun a v => a <<< v.toNat) s

/-- `shri` (R303). -/
def execShri (x : FmtI) (s : State) : Host.Outcome State Fault Refusal :=
  native (.shri x) (immOp x fun a v => a >>> v.toNat) s

/-- `srai` (R303). -/
def execSrai (x : FmtI) (s : State) : Host.Outcome State Fault Refusal :=
  native (.srai x) (immOp x fun a v => a.sshiftRight v.toNat) s

/-- `slti` (R303). -/
def execSlti (x : FmtI) (s : State) : Host.Outcome State Fault Refusal :=
  native (.slti x) (immOp x fun a v => ofBool (decide (a.toInt < v.toInt))) s

/-- `sltui` (R303). -/
def execSltui (x : FmtI) (s : State) : Host.Outcome State Fault Refusal :=
  native (.sltui x) (immOp x fun a v => ofBool (decide (a.toNat < v.toNat))) s

/-- What `lrec` gives of a record's two words (R65, R304). -/
def lrecValue (it : Nat) (w0 w1 : Word) : Word :=
  if it = 1 then w64 (bits w1 31 0) else if bits w1 63 60 = 1 then 0xFF00000000000000 + w0 else w0

/-- `lrec` (R304): the record's `VALUE` or `LIMIT`, read as two loads of 8 bytes of the pool. -/
def lrecBody (x : FmtI) : M Unit := do
  let i := x.imm.toNat % 65536
  let s ← get
  need (i < tmplNrec s.myLaunch.tmpl) tcIllop (encode (.lrec x))
  let ws ← readWords (tmplPool s.myLaunch.tmpl + w64 (16 * i)) 2
  writeS x.d (lrecValue x.it.toNat (ws.getD 0 0) (ws.getD 1 0))

/-- `lrec` (R304). -/
def execLrec (x : FmtI) (s : State) : Host.Outcome State Fault Refusal :=
  native (.lrec x) (lrecBody x) s

end Sys2Proof.Machine
end

