-- ==== Sys2Proof/Machine/Serve.lean ====
section
/-! DEFINITION. The shipped firmware (R92 to R95): what a firmware core does with the event it has taken, as one step of the machine, after which it
reads `EVQ_TAKE` again. -/

namespace Sys2Proof.Machine

-- Scheduling (R92)

/-- `EPRIO`, `BPRIO` and `AGE` of a queue (R86). -/
def UQueue.eprio (u : UQueue) : Nat := bits u.sched 1 0
def UQueue.bprio (u : UQueue) : Nat := bits u.sched 3 2
def UQueue.age (u : UQueue) : Nat := bits u.sched 63 32

/-- `QCB.SCHED` written by the firmware. -/
def UQueue.setSched (u : UQueue) (age eprio : Nat) : UQueue := { u with sched := w64 (eprio % 4 ||| u.bprio <<< 2 ||| (age % 2 ^ 32) <<< 32) }

/-- Slots that a queue of a PASID holds, one that is being saved among them, or every slot in use. -/
def State.slotsOf (s : State) (pasid : Option Nat) : List Nat :=
  (List.range 64).filter fun n => (s.slot n).st ≠ 0 && (match pasid with
    | some p => (s.queue (s.slot n).qid).pasid = p
    | none => true)

/-- The victim among active slots: the lowest `EPRIO`, an idle queue first, then the one mapped longest. -/
def State.victim (s : State) (l : List Nat) : Option Nat :=
  minBy (fun n => ((s.slot n).eprio * 2 + (if (s.slot n).idleMark then 0 else 1)) * 2 ^ 64 + (s.slot n).mappedTick)
    (l.filter fun n => (s.slot n).st = 2)

/-- Whether a victim gives way to a queue of this `EPRIO`. -/
def State.yields (s : State) (n eprio : Nat) : Bool :=
  let v := s.slot n
  let held := s.tick - v.mappedTick
  1 ≤ held && (v.eprio < eprio || v.idleMark || (16 ≤ held && v.eprio = eprio))

/-- A slot command's word (R88). -/
def slotWord (cmd n q : Nat) : Word := w64 (q <<< 10 ||| n <<< 4 ||| cmd)

/-- A victim saved by core `fc`, its age and priority back at their base. -/
def State.saveVictim (s : State) (fc n : Nat) : State :=
  let q := (s.slot n).qid
  let s := s.save fc (slotWord 2 n q)
  s.setQueue q ((s.queue q).setSched 0 (s.queue q).bprio)

/-- The kick step for queue `q` by core `fc`, which holds its lock; where the victim's `SAVE` waits for a fetch, so does the step (R88).
(DESIGN CHOICE, assumption 50) (DEDUCED, assumption 60) -/
def State.kickStep (s : State) (fc q : Nat) : State :=
  let u := s.queue q
  if u.state ≠ 1 then s.setQdir q (s.qdirOf q &&& 0xFFFFFFFFFFFFFFFE)
  else if s.mapped q then s
  else
    let mine := s.slotsOf (some u.pasid)
    let full : Bool := decide (Tbl.get 64 s.budgets u.pasid ≤ mine.length)
    match leastBelow (fun n => (s.slot n).st = 0) 64, full with
    | some n, false => s.map fc (slotWord 1 n q)
    | _, _ =>
      match s.victim (if full then mine else s.slotsOf none) with
      | none => s
      | some n =>
        if !s.yields n u.eprio then s
        else
          let s := s.qlockReq fc (w64 (s.slot n).qid)
          if (s.fw fc).qlockStat then
            let s := s.saveVictim fc n
            if (s.fw fc).slotStat.isNone then s else s.map fc (slotWord 1 n q)
          else s

/-- The ageing tick: every pending, unmapped queue ages, and is then due a kick step, the highest `EPRIO` first. (DEDUCED, assumption 60) -/
def State.ageQueues (s : State) (fc : Nat) : State :=
  let s := { s with tick := s.tick + 1 }
  let l := (s.qdir.filter fun e => bit e.2 0 && !bit e.2 1 && bit e.2 8).map Prod.fst
  let s := l.foldl (fun s q =>
    let u := s.queue q
    let a := min (2 ^ 32 - 1) (u.age + 1)
    s.setQueue q (u.setSched a (min 3 (u.bprio + a / 4)))) s
  s.setFw fc { s.fw fc with ageing := some ([3, 2, 1, 0].flatMap fun p => l.filter fun q => (s.queue q).eprio = p) }

/-- The kick steps of the tick, each with its queue's lock; a step that waits comes first again at the core's next turn. -/
def State.kickAll (s : State) (fc : Nat) : List Nat → State
  | [] => s.evqTake fc
  | q :: rest =>
    let r := (s.evqDone fc).qlockReq fc (w64 q)
    let r := if (r.fw fc).qlockStat then r.kickStep fc q else r
    if (r.fw fc).slotStat.isNone then r.setFw fc { r.fw fc with handling := true, ageing := some (q :: rest) } else r.kickAll fc rest

-- Faults (R93, R125)

/-- The entry at which a walk of a page ends without a valid leaf: its DPA and its companion's. -/
def State.lastEntry (s : State) (va node : Nat) : List (Nat × Nat × Nat) → Option (Nat × Nat)
  | [] => none
  | (lo, n, lvl) :: rest =>
    let k := node + 8 * ((va >>> lo) % 2 ^ n)
    let e := s.wordAt (k / 8)
    if bit e 0 && !bit e 11 && lvl ≠ 0 then s.lastEntry va (bits e 51 12 <<< 12) rest
    else if !bit e 0 && lvl ≤ 1 then some (k, k + 8 * 2 ^ n)
    else none

/-- A page that the firmware finds evicted to the tier is valid again there (R125). -/
def State.pageIn (s : State) (pasid va : Nat) : Option State :=
  let root := s.wordAt ((s.ptabBase.toNat + 8 * pasid) / 8)
  if !bit root 0 then none
  else
    match s.lastEntry va (bits root 51 12 <<< 12) walkLevels with
    | some (k, c) =>
      let t := s.wordAt (c / 8)
      if bit t 0 then
        some (s.store8 k (putBits (putBits (putBit (s.wordAt (k / 8)) 0 true) 52 2 1) 16 36 (w64 (bits t 51 16))))
      else none
    | none => none

/-- The kind of access that a ticket stands for. -/
def Ticket.kind (t : Ticket) : AccKind :=
  if t.fetch then .fetch else if t.access = 1 then .write else if t.access = 2 then .atomic else .read

/-- Page requests outstanding at the host (R14). -/
def State.priCount (s : State) : Nat := (s.tickets.filter fun e => e.2.pri.isSome).length

/-- The service of an XFAULT (R93), and whether it has ended: it waits for the answer of ATS to a page of host memory, which it asks for again,
and while 1,024 page requests are outstanding (R14). (DEDUCED, assumption 60) -/
def State.serveFault (s : State) (n : Nat) : Bool × State :=
  match Tbl.find s.tickets n with
  | none => (true, s)
  | some t =>
    let va := t.page * 65536
    match s.walk t.agent t.pasid va t.kind with
    | (some (leaf, _, huge), s) =>
      if leafLoc leaf ≠ 2 || (s.tlbFind t.agent t.pasid va t.kind).isSome then (true, s.ticketRetry n)
      else if t.pri.isSome then (true, s)
      else
        match s.atsAsk t.agent t.pasid (pageBase va huge) with
        | (none, s) => (false, s)
        | (some (some _), s) => (true, s.ticketRetry n)
        | (some none, s) =>
          if 1024 ≤ s.priCount then (false, s)
          else (true, { s.dropAts t.agent t.pasid va with tickets := Tbl.put s.tickets n { t with pri := some s.us } })
    | (none, s) =>
      match s.pageIn t.pasid va with
      | some s => (true, s.ticketRetry n)
      | none => (true, s.ticketFail n)

-- Management commands (R95)

/-- The command of slot `k`, or the reply to an unknown code. -/
def State.serveCommand (s : State) (k : Nat) : State :=
  let old := s.inp
  let s : State := { s with inp := { n := k } }
  let c := s.cmd k
  let first (l : List (State → Option State)) : State := (l.findSome? fun f => f s).getD s
  let s := match c.code with
    | 0x01 => first [State.qreg]
    | 0x02 => first [State.qdereg]
    | 0x03 => first [State.qstop]
    | 0x04 => first [State.qresume]
    | 0x05 => first [State.qbudget]
    | 0x06 => first [State.pasidEn]
    | 0x07 => first [State.pasidRel, State.pasidRelComplete]
    | 0x10 => first [State.oload]
    | 0x11 => first [State.ounload]
    | 0x20 => first [State.ccstart]
    | 0x21 => first [State.ccstop]
    | 0x30 => first [State.onrBind, State.onrUnbind]
    | 0x31 => first [State.rwDefine, State.rwDelete]
    | 0x40 => first [fun s => s.dbgctl 0, fun s => s.dbgctl 1, fun s => s.dbgctl 2]
    | 0x50 => first [State.attest]
    | 0x51 => first [State.ctrread]
    | 0x52 => first [State.fwupdate]
    | _ => if c.st = 1 && !c.served then s.reply k 255 [] else s
  { s with inp := old }

-- The handler

/-- One turn of the shipped firmware on core `fc`: the event it has taken is handled and it reads `EVQ_TAKE` again. A management command that
waits leaves the core in its handler, and so do a `SAVE` that waits for a fetch and a page request that waits for its turn. (DEDUCED, assumption 60) -/
def State.serve (s : State) (fc : Nat) : State :=
  let f := s.fw fc
  if 16 ≤ fc || !f.up || f.taking || !(s.serving || s.service = .badImage) then s
  else if !f.handling then s.evqTake fc
  else
    match f.ev with
    | none => s.evqTake fc
    | some e =>
      match e.etype with
      | 1 =>
        if f.slotStat.isNone then s
        else
          let r := s.kickStep fc (e.qid.getD 0)
          if (r.fw fc).slotStat.isNone then r else r.evqTake fc
      | 2 =>
        match s.ticketNo e.arg1 with
        | some n =>
          let r := s.serveFault n
          if r.1 then r.2.evqTake fc else r.2
        | none => s.evqTake fc
      | 3 =>
        match s.sdById (bits e.arg0 15 0) with
        | some (_, d) => (if d.timeouts ≤ 1 then s.sdRetry e.arg0 else s.sdForce e.arg0).evqTake fc
        | none => s.evqTake fc
      | 4 =>
        let q := e.qid.getD 0
        (if s.mapped q then s.setSlot (s.slotNo q) { s.slot (s.slotNo q) with idleMark := e.arg0 = 1 } else s).evqTake fc
      | 5 =>
        if f.slotStat.isNone then s
        else if e.arg0 ≠ 0 then s.evqTake fc
        else
          let r := if f.ageing.isNone then s.ageQueues fc else s
          r.kickAll fc ((r.fw fc).ageing.getD [])
      | 8 =>
        let k := bits e.arg0 5 0
        let r := s.serveCommand k
        if (r.cmd k).served then (r.mgDone (w64 k)).evqTake fc
        else if (r.cmd k).st = 1 then r
        else r.evqTake fc
      | _ => s.evqTake fc

end Sys2Proof.Machine
end

