-- ==== Sys2Proof/Machine/Wake.lean ====
section
/-! DEFINITION. What wakes a Blocked context (R162): its instruction is tried again from its start, and once it ends the context is Ready. The
events BLOCKED_WAKE, BWAIT_WAKE, BWAIT_TIMEOUT, HELD_ACCESS_RELEASE, EXPERT_REPLY and STEAL_REPLY. -/

namespace Sys2Proof.Machine

/-- The meaning of an instruction that a context may wait at. (DEDUCED, assumption 68) -/
def retryInstr (i : Instr) (s : State) : Host.Outcome State Fault Refusal :=
  match i with
  | .add x => execAdd x s
  | .sub x => execSub x s
  | .mul x => execMul x s
  | .mulh x => execMulh x s
  | .mulhu x => execMulhu x s
  | .div x => execDiv x s
  | .divu x => execDivu x s
  | .rem x => execRem x s
  | .remu x => execRemu x s
  | .min x => execMin x s
  | .max x => execMax x s
  | .minu x => execMinu x s
  | .maxu x => execMaxu x s
  | .and x => execAnd x s
  | .or x => execOr x s
  | .xor x => execXor x s
  | .shl x => execShl x s
  | .shr x => execShr x s
  | .sra x => execSra x s
  | .clz x => execClz x s
  | .ctz x => execCtz x s
  | .popc x => execPopc x s
  | .bext x => execBext x s
  | .bins x => execBins x s
  | .seq x => execSeq x s
  | .sne x => execSne x s
  | .slt x => execSlt x s
  | .sltu x => execSltu x s
  | .sle x => execSle x s
  | .sleu x => execSleu x s
  | .sel x => execSel x s
  | .mov x => execMov x s
  | .movi x => execMovi x s
  | .addi x => execAddi x s
  | .andi x => execAndi x s
  | .ori x => execOri x s
  | .xori x => execXori x s
  | .shli x => execShli x s
  | .shri x => execShri x s
  | .srai x => execSrai x s
  | .slti x => execSlti x s
  | .sltui x => execSltui x s
  | .lrec x => execLrec x s
  | .br x => execBr x s
  | .bz x => execBz x s
  | .bnz x => execBnz x s
  | .call x => execCall x s
  | .bltz x => execBltz x s
  | .bgez x => execBgez x s
  | .loop x => execLoop x s
  | .jr x => execJr x s
  | .callr x => execCallr x s
  | .ret x => execRet x s
  | .nop x => execNop x s
  | .halt x => execHalt x s
  | .yield x => execYield x s
  | .hop x => execHop x s
  | .trap x => execTrap x s
  | .tret x => execTret x s
  | .bkpt x => execBkpt x s
  | .icinv x => execIcinv x s
  | .mfsr x => execMfsr x s
  | .mtsr x => execMtsr x s
  | .ld x => execLd x s
  | .lds x => execLds x s
  | .st x => execSt x s
  | .ldc x => execLdc x s
  | .vld x => execVld x s
  | .vst x => execVst x s
  | .amswap x => execAmswap x s
  | .amadd x => execAmadd x s
  | .amand x => execAmand x s
  | .amor x => execAmor x s
  | .amxor x => execAmxor x s
  | .ammin x => execAmmin x s
  | .ammax x => execAmmax x s
  | .amminu x => execAmminu x s
  | .ammaxu x => execAmmaxu x s
  | .amcas x => execAmcas x s
  | .fence x => execFence x s
  | .binit x => execBinit x s
  | .barrive x => execBarrive x s
  | .bexpect x => execBexpect x s
  | .bwait x => execBwait x s
  | .rclaim x => execRclaim x s
  | .rcommit x => execRcommit x s
  | .rtake x => execRtake x s
  | .rgive x => execRgive x s
  | .qstat x => execQstat x s
  | .sendm x => execSendm x s
  | .sendk x => execSendk x s
  | .mbarm x => execMbarm x s
  | .vadd x => execVadd x s
  | .vsub x => execVsub x s
  | .vmul x => execVmul x s
  | .vfma x => execVfma x s
  | .vmin x => execVmin x s
  | .vmax x => execVmax x s
  | .vdiv x => execVdiv x s
  | .vand x => execVand x s
  | .vor x => execVor x s
  | .vxor x => execVxor x s
  | .vshl x => execVshl x s
  | .vshr x => execVshr x s
  | .vsra x => execVsra x s
  | .vceq x => execVceq x s
  | .vcne x => execVcne x s
  | .vclt x => execVclt x s
  | .vcle x => execVcle x s
  | .vsel x => execVsel x s
  | .vcvt x => execVcvt x s
  | .vbcast x => execVbcast x s
  | .vins x => execVins x s
  | .vext x => execVext x s
  | .vmov x => execVmov x s
  | .kand x => execKand x s
  | .kor x => execKor x s
  | .kxor x => execKxor x s
  | .knot x => execKnot x s
  | .vredsum x => execVredsum x s
  | .vredmax x => execVredmax x s
  | .vredmin x => execVredmin x s
  | .vscan x => execVscan x s
  | .vperm x => execVperm x s
  | .vexp2 x => execVexp2 x s
  | .vlog2 x => execVlog2 x s
  | .vrcp x => execVrcp x s
  | .vrsqrt x => execVrsqrt x s
  | .vsqrt x => execVsqrt x s
  | .vgath x => execVgath x s
  | .vscat x => execVscat x s
  | .vgrant x => execVgrant x s
  | .sbind x => execSbind x s
  | .sunbind x => execSunbind x s
  | .sstat x => execSstat x s
  | .tld x => execTld x s
  | .tldx x => execTldx x s
  | .tst x => execTst x s
  | .mma x => execMma x s
  | .mmal x => execMmal x s
  | .accz x => execAccz x s
  | .accrd x => execAccrd x s
  | .accwb x => execAccwb x s
  | .accstat x => execAccstat x s
  | .accerr x => execAccerr x s
  | .cp x => execCp x s
  | .cpabort x => execCpabort x s
  | .cpstat x => execCpstat x s
  | .wmread x => execWmread x s
  | .cinval x => execCinval x s
  | .gath x => execGath x s
  | .scat x => execScat x s
  | .xlook x => execXlook x s
  | .xpark x => execXpark x s
  | .xrel x => execXrel x s
  | .dqpush x => execDqpush x s
  | .dqpop x => execDqpop x s
  | .ctrsnap x => execCtrsnap x s
  | .kmerge x => execKmerge x s
  | .rred x => execRred x s
  | .gbar x => execGbar x s
  | .launch x => execLaunch x s
  | .icl x => execIcl x s
  | .icu x => execIcu x s
  | .guard x => execGuard x s
  | .tagchk x => execTagchk x s
  | .ldslot x => execLdslot x s
  | .stslot x => execStslot x s
  | .rcinc x => execRcinc x s
  | .rcdec x => execRcdec x s
  | .twait x => execTwait x s
  | .detour x => execDetour x s
  | .detret x => execDetret x s
  | .plaunch x => execPlaunch x s
  | .bcEnd => execBcEnd s
  | .bcRet => execBcRet s
  | .bcLdi x0 => execBcLdi x0 s
  | .bcLdsp x0 => execBcLdsp x0 s
  | .bcLdloc x0 => execBcLdloc x0 s
  | .bcStloc x0 => execBcStloc x0 s
  | .bcLdglob x0 => execBcLdglob x0 s
  | .bcStglob x0 => execBcStglob x0 s
  | .bcDup => execBcDup s
  | .bcPop => execBcPop s
  | .bcSwap => execBcSwap s
  | .bcGetattrS x0 => execBcGetattrS x0 s
  | .bcSetattrS x0 => execBcSetattrS x0 s
  | .bcLdsl x0 => execBcLdsl x0 s
  | .bcStsl x0 => execBcStsl x0 s
  | .bcMkobj x0 x1 => execBcMkobj x0 x1 s
  | .bcUnpack x0 => execBcUnpack x0 s
  | .bcLoopdec x0 x1 => execBcLoopdec x0 x1 s
  | .bcBr x0 => execBcBr x0 s
  | .bcBrt x0 => execBcBrt x0 s
  | .bcBrf x0 => execBcBrf x0 s
  | .bcForr x0 x1 => execBcForr x0 x1 s
  | .bcAddS x0 => execBcAddS x0 s
  | .bcSubS x0 => execBcSubS x0 s
  | .bcMulS x0 => execBcMulS x0 s
  | .bcDivS x0 => execBcDivS x0 s
  | .bcMmS x0 => execBcMmS x0 s
  | .bcLtS x0 => execBcLtS x0 s
  | .bcLeS x0 => execBcLeS x0 s
  | .bcEqS x0 => execBcEqS x0 s
  | .bcNegS x0 => execBcNegS x0 s
  | .bcCallS x0 x1 => execBcCallS x0 x1 s
  | .bcCallb x0 => execBcCallb x0 s
  | .bcTlaunch x0 => execBcTlaunch x0 s
  | .bcWaitt => execBcWaitt s
  | .bcRaise => execBcRaise s
  | .bcTry x0 => execBcTry x0 s
  | .bcUntry => execBcUntry s
  | _ => .next s

/-- A Blocked context tries its instruction again, or its fetch: it stays Blocked, or goes on as Ready on a tile (R162), Running on a core with
one context. (DEDUCED, assumption 68) -/
def State.retry (s : State) (k : Nat) : Option State :=
  let v := s.ctx k
  let c := coreOfIx (k / 32)
  let x := k % 32
  if v.st ≠ .blocked then none
  else
    let s1 := { s with cur := c, curX := x }.setCtx k { v with st := .running }
    let ready (t : State) : State := if (t.ctx k).st = .running && c.isTile then t.enqueue c x else t
    let back (t : State) : State := { t with cur := s.cur, curX := s.curX }
    match v.waitAt with
    | some i =>
      match retryInstr i s1 with
      | .next t => some (back (ready t))
      | _ => none
    | none => some (back (ready (s1.setMe { s1.me with await := .none }).unwait))

/-- What a context waits for, while it is Blocked. -/
def State.awaits (s : State) (k : Nat) : Await := if (s.ctx k).st = .blocked then (s.ctx k).await else .none

/-- BLOCKED_WAKE (R162) of context `n`: every wait but those that another step ends. -/
def State.blockedWake (s : State) : Option State :=
  match s.awaits s.inp.n with
  | .none => none
  | .barrier _ _ => none
  | .expert _ none => none
  | .steal n => if n < 4 then none else s.retry s.inp.n
  | .ticket n => if (Tbl.find s.tickets n).isSome then none else s.retry s.inp.n
  | _ => s.retry s.inp.n

/-- BLOCKED_WAKE (R162). -/
def execBlockedWake (s : State) : Host.Outcome State Fault Refusal := event State.blockedWake s

/-- HELD_ACCESS_RELEASE (R137) of the access of context `n`, or of the release-queue entry that a control core's waiting descriptor writes (R209). -/
def State.heldRelease (s : State) : Option State :=
  if s.awaits s.inp.n = .hold then s.retry s.inp.n
  else
    match coreOfIx (s.inp.n / 32) with
    | .cc c => if (s.cc c).orphans.isEmpty then none else some (s.flushOrphans c)
    | _ => none

/-- HELD_ACCESS_RELEASE (R137). -/
def execHeldAccessRelease (s : State) : Host.Outcome State Fault Refusal := event State.heldRelease s

/-- Whether the barrier that a waiting `bwait` names has left its phase (R146); none for a context that waits for no barrier. -/
def State.phaseLeft (s : State) (k : Nat) : Option Bool :=
  match s.awaits k, (s.ctx k).waitAt with
  | .barrier b _, some (.bwait x) => some ((s.bar b).phase ≠ bits ((s.ctx k).gReg x.a.toNat) 3 0)
  | _, _ => none

/-- BWAIT_WAKE (R146) of context `n`. -/
def execBwaitWake (s : State) : Host.Outcome State Fault Refusal :=
  event (fun s => if s.phaseLeft s.inp.n = some true then s.retry s.inp.n else none) s

/-- BWAIT_TIMEOUT (R146) of context `n`: its bound has passed in the phase it waits in. -/
def State.bwaitTimeout (s : State) : Option State :=
  match s.awaits s.inp.n with
  | .barrier _ (some d) => if d ≤ s.now && s.phaseLeft s.inp.n = some false then s.retry s.inp.n else none
  | _ => none

/-- BWAIT_TIMEOUT (R146). -/
def execBwaitTimeout (s : State) : Host.Outcome State Fault Refusal := event State.bwaitTimeout s

/-- The context that sent an expert request. -/
def ExpertReq.key (r : ExpertReq) : Nat := ctxKey (if r.isA then .a r.tile else .c r.tile) r.ctx

/-- EXPERT_REPLY (R392) to request `n`: the strand takes its result, now or when it resumes. -/
def State.expertReply (s : State) : Option State :=
  match s.expert.find? fun e => e.1 = s.inp.n with
  | some (n, r) =>
    match r.reply with
    | some q =>
      let s := { s with expert := s.expert.filter fun e => e.1 ≠ n }
      let v := s.ctx r.key
      if v.await = .expert n none then
        let s := s.setCtx r.key { v with await := .expert n (some q) }
        some ((s.retry r.key).getD s)
      else some s
    | none => none
  | none => none

/-- EXPERT_REPLY (R392). -/
def execExpertReply (s : State) : Host.Outcome State Fault Refusal := event State.expertReply s

/-- STEAL_REPLY (R193) of request `n`: its reservation ends and the records go to the bottom of the thief's deque; the pop takes one, tries the
next direction, or ends its round. -/
def State.stealReply (s : State) : Option State :=
  match Tbl.find s.steals s.inp.n with
  | some v =>
    match v.reply with
    | some l =>
      let tl := s.tile v.thief
      let s := { s with steals := Tbl.del s.steals s.inp.n }.setTile v.thief { tl.dqFreed with stealRes := tl.stealRes - v.r, deque := tl.deque ++ l }
      let c := s.ctx v.ctx
      match c.await with
      | .steal i =>
        if (s.tile v.thief).deque.isEmpty && i < 3 then
          let (j, s) := s.sendSteal v.thief v.ctx (s.launch c.launch) v.dir (i + 1) (3 - i)
          let s := s.setCtx v.ctx { s.ctx v.ctx with await := .steal j }
          some (if j < 4 then s else (s.retry v.ctx).getD s)
        else
          let s := s.setCtx v.ctx { c with await := .steal 4 }
          some ((s.retry v.ctx).getD s)
      | _ => some s
    | none => none
  | none => none

/-- STEAL_REPLY (R193). -/
def execStealReply (s : State) : Host.Outcome State Fault Refusal := event State.stealReply s

end Sys2Proof.Machine
end

