-- ==== Sys2Proof/Machine/Dispatch.lean ====
section
/-! DEFINITION. One arm per row of the opcode table: the meaning of each instruction, called by name. -/

namespace Sys2Proof.Machine

/-- The effect of one instruction on the machine. -/
def exec (i : Instr) (s : State) : Host.Outcome State Fault Refusal :=
  match i with
  | .add x => Sys2Proof.Machine.execAdd x s
  | .sub x => Sys2Proof.Machine.execSub x s
  | .mul x => Sys2Proof.Machine.execMul x s
  | .mulh x => Sys2Proof.Machine.execMulh x s
  | .mulhu x => Sys2Proof.Machine.execMulhu x s
  | .div x => Sys2Proof.Machine.execDiv x s
  | .divu x => Sys2Proof.Machine.execDivu x s
  | .rem x => Sys2Proof.Machine.execRem x s
  | .remu x => Sys2Proof.Machine.execRemu x s
  | .min x => Sys2Proof.Machine.execMin x s
  | .max x => Sys2Proof.Machine.execMax x s
  | .minu x => Sys2Proof.Machine.execMinu x s
  | .maxu x => Sys2Proof.Machine.execMaxu x s
  | .and x => Sys2Proof.Machine.execAnd x s
  | .or x => Sys2Proof.Machine.execOr x s
  | .xor x => Sys2Proof.Machine.execXor x s
  | .shl x => Sys2Proof.Machine.execShl x s
  | .shr x => Sys2Proof.Machine.execShr x s
  | .sra x => Sys2Proof.Machine.execSra x s
  | .clz x => Sys2Proof.Machine.execClz x s
  | .ctz x => Sys2Proof.Machine.execCtz x s
  | .popc x => Sys2Proof.Machine.execPopc x s
  | .bext x => Sys2Proof.Machine.execBext x s
  | .bins x => Sys2Proof.Machine.execBins x s
  | .seq x => Sys2Proof.Machine.execSeq x s
  | .sne x => Sys2Proof.Machine.execSne x s
  | .slt x => Sys2Proof.Machine.execSlt x s
  | .sltu x => Sys2Proof.Machine.execSltu x s
  | .sle x => Sys2Proof.Machine.execSle x s
  | .sleu x => Sys2Proof.Machine.execSleu x s
  | .sel x => Sys2Proof.Machine.execSel x s
  | .mov x => Sys2Proof.Machine.execMov x s
  | .movi x => Sys2Proof.Machine.execMovi x s
  | .addi x => Sys2Proof.Machine.execAddi x s
  | .andi x => Sys2Proof.Machine.execAndi x s
  | .ori x => Sys2Proof.Machine.execOri x s
  | .xori x => Sys2Proof.Machine.execXori x s
  | .shli x => Sys2Proof.Machine.execShli x s
  | .shri x => Sys2Proof.Machine.execShri x s
  | .srai x => Sys2Proof.Machine.execSrai x s
  | .slti x => Sys2Proof.Machine.execSlti x s
  | .sltui x => Sys2Proof.Machine.execSltui x s
  | .lrec x => Sys2Proof.Machine.execLrec x s
  | .br x => Sys2Proof.Machine.execBr x s
  | .bz x => Sys2Proof.Machine.execBz x s
  | .bnz x => Sys2Proof.Machine.execBnz x s
  | .call x => Sys2Proof.Machine.execCall x s
  | .bltz x => Sys2Proof.Machine.execBltz x s
  | .bgez x => Sys2Proof.Machine.execBgez x s
  | .loop x => Sys2Proof.Machine.execLoop x s
  | .jr x => Sys2Proof.Machine.execJr x s
  | .callr x => Sys2Proof.Machine.execCallr x s
  | .ret x => Sys2Proof.Machine.execRet x s
  | .nop x => Sys2Proof.Machine.execNop x s
  | .halt x => Sys2Proof.Machine.execHalt x s
  | .yield x => Sys2Proof.Machine.execYield x s
  | .hop x => Sys2Proof.Machine.execHop x s
  | .trap x => Sys2Proof.Machine.execTrap x s
  | .tret x => Sys2Proof.Machine.execTret x s
  | .bkpt x => Sys2Proof.Machine.execBkpt x s
  | .icinv x => Sys2Proof.Machine.execIcinv x s
  | .mfsr x => Sys2Proof.Machine.execMfsr x s
  | .mtsr x => Sys2Proof.Machine.execMtsr x s
  | .ld x => Sys2Proof.Machine.execLd x s
  | .lds x => Sys2Proof.Machine.execLds x s
  | .st x => Sys2Proof.Machine.execSt x s
  | .ldc x => Sys2Proof.Machine.execLdc x s
  | .vld x => Sys2Proof.Machine.execVld x s
  | .vst x => Sys2Proof.Machine.execVst x s
  | .amswap x => Sys2Proof.Machine.execAmswap x s
  | .amadd x => Sys2Proof.Machine.execAmadd x s
  | .amand x => Sys2Proof.Machine.execAmand x s
  | .amor x => Sys2Proof.Machine.execAmor x s
  | .amxor x => Sys2Proof.Machine.execAmxor x s
  | .ammin x => Sys2Proof.Machine.execAmmin x s
  | .ammax x => Sys2Proof.Machine.execAmmax x s
  | .amminu x => Sys2Proof.Machine.execAmminu x s
  | .ammaxu x => Sys2Proof.Machine.execAmmaxu x s
  | .amcas x => Sys2Proof.Machine.execAmcas x s
  | .fence x => Sys2Proof.Machine.execFence x s
  | .binit x => Sys2Proof.Machine.execBinit x s
  | .barrive x => Sys2Proof.Machine.execBarrive x s
  | .bexpect x => Sys2Proof.Machine.execBexpect x s
  | .bwait x => Sys2Proof.Machine.execBwait x s
  | .rclaim x => Sys2Proof.Machine.execRclaim x s
  | .rcommit x => Sys2Proof.Machine.execRcommit x s
  | .rtake x => Sys2Proof.Machine.execRtake x s
  | .rgive x => Sys2Proof.Machine.execRgive x s
  | .qstat x => Sys2Proof.Machine.execQstat x s
  | .sendm x => Sys2Proof.Machine.execSendm x s
  | .sendk x => Sys2Proof.Machine.execSendk x s
  | .mbarm x => Sys2Proof.Machine.execMbarm x s
  | .vadd x => Sys2Proof.Machine.execVadd x s
  | .vsub x => Sys2Proof.Machine.execVsub x s
  | .vmul x => Sys2Proof.Machine.execVmul x s
  | .vfma x => Sys2Proof.Machine.execVfma x s
  | .vmin x => Sys2Proof.Machine.execVmin x s
  | .vmax x => Sys2Proof.Machine.execVmax x s
  | .vdiv x => Sys2Proof.Machine.execVdiv x s
  | .vand x => Sys2Proof.Machine.execVand x s
  | .vor x => Sys2Proof.Machine.execVor x s
  | .vxor x => Sys2Proof.Machine.execVxor x s
  | .vshl x => Sys2Proof.Machine.execVshl x s
  | .vshr x => Sys2Proof.Machine.execVshr x s
  | .vsra x => Sys2Proof.Machine.execVsra x s
  | .vceq x => Sys2Proof.Machine.execVceq x s
  | .vcne x => Sys2Proof.Machine.execVcne x s
  | .vclt x => Sys2Proof.Machine.execVclt x s
  | .vcle x => Sys2Proof.Machine.execVcle x s
  | .vsel x => Sys2Proof.Machine.execVsel x s
  | .vcvt x => Sys2Proof.Machine.execVcvt x s
  | .vbcast x => Sys2Proof.Machine.execVbcast x s
  | .vins x => Sys2Proof.Machine.execVins x s
  | .vext x => Sys2Proof.Machine.execVext x s
  | .vmov x => Sys2Proof.Machine.execVmov x s
  | .kand x => Sys2Proof.Machine.execKand x s
  | .kor x => Sys2Proof.Machine.execKor x s
  | .kxor x => Sys2Proof.Machine.execKxor x s
  | .knot x => Sys2Proof.Machine.execKnot x s
  | .vredsum x => Sys2Proof.Machine.execVredsum x s
  | .vredmax x => Sys2Proof.Machine.execVredmax x s
  | .vredmin x => Sys2Proof.Machine.execVredmin x s
  | .vscan x => Sys2Proof.Machine.execVscan x s
  | .vperm x => Sys2Proof.Machine.execVperm x s
  | .vexp2 x => Sys2Proof.Machine.execVexp2 x s
  | .vlog2 x => Sys2Proof.Machine.execVlog2 x s
  | .vrcp x => Sys2Proof.Machine.execVrcp x s
  | .vrsqrt x => Sys2Proof.Machine.execVrsqrt x s
  | .vsqrt x => Sys2Proof.Machine.execVsqrt x s
  | .vgath x => Sys2Proof.Machine.execVgath x s
  | .vscat x => Sys2Proof.Machine.execVscat x s
  | .vgrant x => Sys2Proof.Machine.execVgrant x s
  | .sbind x => Sys2Proof.Machine.execSbind x s
  | .sunbind x => Sys2Proof.Machine.execSunbind x s
  | .sstat x => Sys2Proof.Machine.execSstat x s
  | .tld x => Sys2Proof.Machine.execTld x s
  | .tldx x => Sys2Proof.Machine.execTldx x s
  | .tst x => Sys2Proof.Machine.execTst x s
  | .mma x => Sys2Proof.Machine.execMma x s
  | .mmal x => Sys2Proof.Machine.execMmal x s
  | .accz x => Sys2Proof.Machine.execAccz x s
  | .accrd x => Sys2Proof.Machine.execAccrd x s
  | .accwb x => Sys2Proof.Machine.execAccwb x s
  | .accstat x => Sys2Proof.Machine.execAccstat x s
  | .accerr x => Sys2Proof.Machine.execAccerr x s
  | .cp x => Sys2Proof.Machine.execCp x s
  | .cpabort x => Sys2Proof.Machine.execCpabort x s
  | .cpstat x => Sys2Proof.Machine.execCpstat x s
  | .wmread x => Sys2Proof.Machine.execWmread x s
  | .cinval x => Sys2Proof.Machine.execCinval x s
  | .gath x => Sys2Proof.Machine.execGath x s
  | .scat x => Sys2Proof.Machine.execScat x s
  | .xlook x => Sys2Proof.Machine.execXlook x s
  | .xpark x => Sys2Proof.Machine.execXpark x s
  | .xrel x => Sys2Proof.Machine.execXrel x s
  | .dqpush x => Sys2Proof.Machine.execDqpush x s
  | .dqpop x => Sys2Proof.Machine.execDqpop x s
  | .ctrsnap x => Sys2Proof.Machine.execCtrsnap x s
  | .kmerge x => Sys2Proof.Machine.execKmerge x s
  | .rred x => Sys2Proof.Machine.execRred x s
  | .gbar x => Sys2Proof.Machine.execGbar x s
  | .launch x => Sys2Proof.Machine.execLaunch x s
  | .icl x => Sys2Proof.Machine.execIcl x s
  | .icu x => Sys2Proof.Machine.execIcu x s
  | .guard x => Sys2Proof.Machine.execGuard x s
  | .tagchk x => Sys2Proof.Machine.execTagchk x s
  | .ldslot x => Sys2Proof.Machine.execLdslot x s
  | .stslot x => Sys2Proof.Machine.execStslot x s
  | .rcinc x => Sys2Proof.Machine.execRcinc x s
  | .rcdec x => Sys2Proof.Machine.execRcdec x s
  | .twait x => Sys2Proof.Machine.execTwait x s
  | .detour x => Sys2Proof.Machine.execDetour x s
  | .detret x => Sys2Proof.Machine.execDetret x s
  | .plaunch x => Sys2Proof.Machine.execPlaunch x s
  | .bcEnd => Sys2Proof.Machine.execBcEnd s
  | .bcRet => Sys2Proof.Machine.execBcRet s
  | .bcLdi x0 => Sys2Proof.Machine.execBcLdi x0 s
  | .bcLdsp x0 => Sys2Proof.Machine.execBcLdsp x0 s
  | .bcLdloc x0 => Sys2Proof.Machine.execBcLdloc x0 s
  | .bcStloc x0 => Sys2Proof.Machine.execBcStloc x0 s
  | .bcLdglob x0 => Sys2Proof.Machine.execBcLdglob x0 s
  | .bcStglob x0 => Sys2Proof.Machine.execBcStglob x0 s
  | .bcDup => Sys2Proof.Machine.execBcDup s
  | .bcPop => Sys2Proof.Machine.execBcPop s
  | .bcSwap => Sys2Proof.Machine.execBcSwap s
  | .bcGetattrS x0 => Sys2Proof.Machine.execBcGetattrS x0 s
  | .bcSetattrS x0 => Sys2Proof.Machine.execBcSetattrS x0 s
  | .bcLdsl x0 => Sys2Proof.Machine.execBcLdsl x0 s
  | .bcStsl x0 => Sys2Proof.Machine.execBcStsl x0 s
  | .bcMkobj x0 x1 => Sys2Proof.Machine.execBcMkobj x0 x1 s
  | .bcUnpack x0 => Sys2Proof.Machine.execBcUnpack x0 s
  | .bcLoopdec x0 x1 => Sys2Proof.Machine.execBcLoopdec x0 x1 s
  | .bcBr x0 => Sys2Proof.Machine.execBcBr x0 s
  | .bcBrt x0 => Sys2Proof.Machine.execBcBrt x0 s
  | .bcBrf x0 => Sys2Proof.Machine.execBcBrf x0 s
  | .bcForr x0 x1 => Sys2Proof.Machine.execBcForr x0 x1 s
  | .bcAddS x0 => Sys2Proof.Machine.execBcAddS x0 s
  | .bcSubS x0 => Sys2Proof.Machine.execBcSubS x0 s
  | .bcMulS x0 => Sys2Proof.Machine.execBcMulS x0 s
  | .bcDivS x0 => Sys2Proof.Machine.execBcDivS x0 s
  | .bcMmS x0 => Sys2Proof.Machine.execBcMmS x0 s
  | .bcLtS x0 => Sys2Proof.Machine.execBcLtS x0 s
  | .bcLeS x0 => Sys2Proof.Machine.execBcLeS x0 s
  | .bcEqS x0 => Sys2Proof.Machine.execBcEqS x0 s
  | .bcNegS x0 => Sys2Proof.Machine.execBcNegS x0 s
  | .bcCallS x0 x1 => Sys2Proof.Machine.execBcCallS x0 x1 s
  | .bcCallb x0 => Sys2Proof.Machine.execBcCallb x0 s
  | .bcTlaunch x0 => Sys2Proof.Machine.execBcTlaunch x0 s
  | .bcWaitt => Sys2Proof.Machine.execBcWaitt s
  | .bcRaise => Sys2Proof.Machine.execBcRaise s
  | .bcTry x0 => Sys2Proof.Machine.execBcTry x0 s
  | .bcUntry => Sys2Proof.Machine.execBcUntry s
  | .reservedOpcode w => Sys2Proof.Machine.execReservedOpcode w s
  | .unassignedBytecode b => Sys2Proof.Machine.execUnassignedBytecode b s
  | .powerOn => Sys2Proof.Machine.execPowerOn s
  | .fullService => Sys2Proof.Machine.execFullService s
  | .pwrCtlSel => Sys2Proof.Machine.execPwrCtlSel s
  | .profileChange => Sys2Proof.Machine.execProfileChange s
  | .powerLimitWindow => Sys2Proof.Machine.execPowerLimitWindow s
  | .thermalThrottle => Sys2Proof.Machine.execThermalThrottle s
  | .thermalRecover => Sys2Proof.Machine.execThermalRecover s
  | .thermalTrip => Sys2Proof.Machine.execThermalTrip s
  | .tierPortFail => Sys2Proof.Machine.execTierPortFail s
  | .counterUpdate => Sys2Proof.Machine.execCounterUpdate s
  | .registerWrite => Sys2Proof.Machine.execRegisterWrite s
  | .ckptStart => Sys2Proof.Machine.execCkptStart s
  | .ckptRestore => Sys2Proof.Machine.execCkptRestore s
  | .ckptAbort => Sys2Proof.Machine.execCkptAbort s
  | .checkpointComplete => Sys2Proof.Machine.execCheckpointComplete s
  | .restoreComplete => Sys2Proof.Machine.execRestoreComplete s
  | .qreg => Sys2Proof.Machine.execQreg s
  | .qdereg => Sys2Proof.Machine.execQdereg s
  | .qstop => Sys2Proof.Machine.execQstop s
  | .qresume => Sys2Proof.Machine.execQresume s
  | .qbudget => Sys2Proof.Machine.execQbudget s
  | .pasidEn => Sys2Proof.Machine.execPasidEn s
  | .pasidRel => Sys2Proof.Machine.execPasidRel s
  | .pasidRelComplete => Sys2Proof.Machine.execPasidRelComplete s
  | .oload => Sys2Proof.Machine.execOload s
  | .ounload => Sys2Proof.Machine.execOunload s
  | .ccstart => Sys2Proof.Machine.execCcstart s
  | .ccstop => Sys2Proof.Machine.execCcstop s
  | .onrbindBind => Sys2Proof.Machine.execOnrbindBind s
  | .onrbindUnbind => Sys2Proof.Machine.execOnrbindUnbind s
  | .rwsetDefine => Sys2Proof.Machine.execRwsetDefine s
  | .rwsetDelete => Sys2Proof.Machine.execRwsetDelete s
  | .dbgctlSetHalt => Sys2Proof.Machine.execDbgctlSetHalt s
  | .dbgctlClearHalt => Sys2Proof.Machine.execDbgctlClearHalt s
  | .dbgctlResume => Sys2Proof.Machine.execDbgctlResume s
  | .attest => Sys2Proof.Machine.execAttest s
  | .ctrread => Sys2Proof.Machine.execCtrread s
  | .fwupdate => Sys2Proof.Machine.execFwupdate s
  | .mgDone => Sys2Proof.Machine.execMgDone s
  | .doorbell => Sys2Proof.Machine.execDoorbell s
  | .wmSet => Sys2Proof.Machine.execWmSet s
  | .wmClr => Sys2Proof.Machine.execWmClr s
  | .packetFetch => Sys2Proof.Machine.execPacketFetch s
  | .packetLaunch => Sys2Proof.Machine.execPacketLaunch s
  | .packetComplete => Sys2Proof.Machine.execPacketComplete s
  | .patchFenceComplete => Sys2Proof.Machine.execPatchFenceComplete s
  | .qidle => Sys2Proof.Machine.execQidle s
  | .timer => Sys2Proof.Machine.execTimer s
  | .watchdogExpiry => Sys2Proof.Machine.execWatchdogExpiry s
  | .eventHandoff => Sys2Proof.Machine.execEventHandoff s
  | .evqTake => Sys2Proof.Machine.execEvqTake s
  | .evqDone => Sys2Proof.Machine.execEvqDone s
  | .qlockReq => Sys2Proof.Machine.execQlockReq s
  | .map => Sys2Proof.Machine.execMap s
  | .save => Sys2Proof.Machine.execSave s
  | .setprio => Sys2Proof.Machine.execSetprio s
  | .timerSet => Sys2Proof.Machine.execTimerSet s
  | .xfDoneRetry => Sys2Proof.Machine.execXfDoneRetry s
  | .xfDoneFail => Sys2Proof.Machine.execXfDoneFail s
  | .atsResponse => Sys2Proof.Machine.execAtsResponse s
  | .atsInvalidation => Sys2Proof.Machine.execAtsInvalidation s
  | .priResponse => Sys2Proof.Machine.execPriResponse s
  | .priTimeout => Sys2Proof.Machine.execPriTimeout s
  | .sdReq => Sys2Proof.Machine.execSdReq s
  | .shootdownComplete => Sys2Proof.Machine.execShootdownComplete s
  | .sdtimeout => Sys2Proof.Machine.execSdtimeout s
  | .sdRetry => Sys2Proof.Machine.execSdRetry s
  | .sdForce => Sys2Proof.Machine.execSdForce s
  | .migReq => Sys2Proof.Machine.execMigReq s
  | .migrationStreamEnd => Sys2Proof.Machine.execMigrationStreamEnd s
  | .redirectNotice => Sys2Proof.Machine.execRedirectNotice s
  | .queueSpaceNotice => Sys2Proof.Machine.execQueueSpaceNotice s
  | .go => Sys2Proof.Machine.execGo s
  | .cinvalWrite => Sys2Proof.Machine.execCinvalWrite s
  | .copyAccept => Sys2Proof.Machine.execCopyAccept s
  | .copyLand => Sys2Proof.Machine.execCopyLand s
  | .copyEnd => Sys2Proof.Machine.execCopyEnd s
  | .copyAbortComplete => Sys2Proof.Machine.execCopyAbortComplete s
  | .watermarkReport => Sys2Proof.Machine.execWatermarkReport s
  | .heldAccessRelease => Sys2Proof.Machine.execHeldAccessRelease s
  | .remoteCopyRequest => Sys2Proof.Machine.execRemoteCopyRequest s
  | .remotePutComplete => Sys2Proof.Machine.execRemotePutComplete s
  | .remoteSourceTimeout => Sys2Proof.Machine.execRemoteSourceTimeout s
  | .remoteAckTimeout => Sys2Proof.Machine.execRemoteAckTimeout s
  | .gatherSublistArrival => Sys2Proof.Machine.execGatherSublistArrival s
  | .gatherRowArrival => Sys2Proof.Machine.execGatherRowArrival s
  | .scatterRowArrival => Sys2Proof.Machine.execScatterRowArrival s
  | .scatterAck => Sys2Proof.Machine.execScatterAck s
  | .bwaitWake => Sys2Proof.Machine.execBwaitWake s
  | .bwaitTimeout => Sys2Proof.Machine.execBwaitTimeout s
  | .blockedWake => Sys2Proof.Machine.execBlockedWake s
  | .dispatch => Sys2Proof.Machine.execDispatch s
  | .runqueueAgeing => Sys2Proof.Machine.execRunqueueAgeing s
  | .timeSlice => Sys2Proof.Machine.execTimeSlice s
  | .taskMessageArrival => Sys2Proof.Machine.execTaskMessageArrival s
  | .dataMessageArrival => Sys2Proof.Machine.execDataMessageArrival s
  | .hopMessageArrival => Sys2Proof.Machine.execHopMessageArrival s
  | .contextFreeNotice => Sys2Proof.Machine.execContextFreeNotice s
  | .ringSpaceNotice => Sys2Proof.Machine.execRingSpaceNotice s
  | .noticeReservationExpiry => Sys2Proof.Machine.execNoticeReservationExpiry s
  | .unlistedResend => Sys2Proof.Machine.execUnlistedResend s
  | .launchComplete => Sys2Proof.Machine.execLaunchComplete s
  | .portLaunchStart => Sys2Proof.Machine.execPortLaunchStart s
  | .tileLaunchStart => Sys2Proof.Machine.execTileLaunchStart s
  | .retentionExpiry => Sys2Proof.Machine.execRetentionExpiry s
  | .drainReq => Sys2Proof.Machine.execDrainReq s
  | .drainGraceExpiry => Sys2Proof.Machine.execDrainGraceExpiry s
  | .drainComplete => Sys2Proof.Machine.execDrainComplete s
  | .resumeReq => Sys2Proof.Machine.execResumeReq s
  | .resumeComplete => Sys2Proof.Machine.execResumeComplete s
  | .config => Sys2Proof.Machine.execConfig s
  | .fill => Sys2Proof.Machine.execFill s
  | .evict => Sys2Proof.Machine.execEvict s
  | .flush => Sys2Proof.Machine.execFlush s
  | .setrep => Sys2Proof.Machine.execSetrep s
  | .setwb => Sys2Proof.Machine.execSetwb s
  | .clrpin => Sys2Proof.Machine.execClrpin s
  | .ertAgeing => Sys2Proof.Machine.execErtAgeing s
  | .expertRequest => Sys2Proof.Machine.execExpertRequest s
  | .expertReply => Sys2Proof.Machine.execExpertReply s
  | .laybyDelivery => Sys2Proof.Machine.execLaybyDelivery s
  | .dequeSpaceNotice => Sys2Proof.Machine.execDequeSpaceNotice s
  | .laybyRetry => Sys2Proof.Machine.execLaybyRetry s
  | .dequeReservationExpiry => Sys2Proof.Machine.execDequeReservationExpiry s
  | .stealRequest => Sys2Proof.Machine.execStealRequest s
  | .stealReply => Sys2Proof.Machine.execStealReply s
  | .sendkArrival => Sys2Proof.Machine.execSendkArrival s
  | .collectiveResult => Sys2Proof.Machine.execCollectiveResult s
  | .engineCommandStart => Sys2Proof.Machine.execEngineCommandStart s
  | .tileLoadRowArrival => Sys2Proof.Machine.execTileLoadRowArrival s
  | .mmaComplete => Sys2Proof.Machine.execMmaComplete s
  | .vectorCommandComplete => Sys2Proof.Machine.execVectorCommandComplete s
  | .streamElementFetch => Sys2Proof.Machine.execStreamElementFetch s
  | .sramScrub => Sys2Proof.Machine.execSramScrub s
  | .powerLoss => Sys2Proof.Machine.execPowerLoss s
  | .orderlyShutdown => Sys2Proof.Machine.execOrderlyShutdown s
  | .linkRetry => Sys2Proof.Machine.execLinkRetry s
  | .matrixCommandComplete => Sys2Proof.Machine.execMatrixCommandComplete s
  | .mgo => Sys2Proof.Machine.execMgo s

end Sys2Proof.Machine
end

