-- ==== Sys2Proof/Machine/Fetch.lean ====
section
/-! DEFINITION. Fetching an instruction or a bytecode (R102, R286, R293, R317), and the turns that no core takes: time, errors in stored
words, evictions. -/

namespace Sys2Proof.Machine

-- Fetching

/-- The words of the 64-byte line that holds a key, each with its poison. -/
def State.lineWords (s : State) (base : Nat) : Nat → List (Word × Bool) × State
  | 0 => ([], s)
  | n + 1 =>
    let ((v, p), s) := s.load base 8
    let (r, s) := s.lineWords (base + 8) n
    ((w64 v, p) :: r, s)

/-- The word at `a` fetched through the core's instruction cache: lines of the global window are cached, and a miss reads the whole line, but for one that a
watermark holds in part (R137). Poison and a failed page trap with TC_POISON and `ARG` the address (R112). (DEDUCED, assumption 66) -/
def fetchWord (a : Word) (k : AccKind) : M Word := do
  checkAddr a 8
  let s ← get
  let i := a.toNat / 8 % 8
  match s.myCore.icache.find? fun e => e.pasid = s.myPasid && e.line = a.toNat / 64 with
  | some e =>
    let w := e.words.getD i (0, true)
    if w.2 then trapKeep tcPoison a else pure w.1
  | none =>
    match ← place a 8 k with
    | .key key _ => do
      let s ← get
      if a.toNat >>> 56 = 0 && !s.heldGlob s.myPasid (a.toNat / 64 * 64) 64 none then do
        let ws ← run fun s => s.lineWords (key / 64 * 64) 8
        upd fun s => s.setMyCore { s.myCore with icache := { pasid := s.myPasid, line := a.toNat / 64, words := ws } :: s.myCore.icache }
        let w := ws.getD i (0, true)
        if w.2 then trapKeep tcPoison a else pure w.1
      else do
        let (v, p) ← run fun s => s.load key 8
        if p then trapKeep tcPoison a else pure (w64 v)
    | .bad => trapKeep tcPoison a
    | .remoteBad t off => do
      upd fun s => s.remoteError t off s.cur.agent
      trapKeep tcPoison a
    | _ => trapM tcAperture a

/-- What a core does next: an instruction to execute in a state, or a state reached without one. -/
inductive Issue where
  | run (i : Instr) (s : State)
  | state (s : State)

/-- The native instruction at PC: a word that the decoder refuses runs as a reserved opcode (R293). A fetch that traps is taken with PC at the
address fetched (R286); one that waits leaves the context Blocked. -/
def State.fetchNative (s : State) : Issue :=
  match fetchWord s.me.pc .fetch s with
  | .ok (w, k) =>
    match decode w with
    | .ok i => .run i k
    | .error _ => .run (.reservedOpcode w) k
  | .error (.trap c a k) => .state ((k.getD s).takeTrap c a s.me.pc)
  | .error (.wait a k) => .state (k.blockAt none a)
  | .error _ => .state s

/-- The bytecode at `VPC`: a word that the decoder refuses detours with BADOP (R416); a fetch that traps detours with TRAP (R217). (DESIGN CHOICE, assumption 54) -/
def State.fetchBytecode (s : State) : Issue :=
  match fetchWord s.myCc.vpc .read s with
  | .ok (w, k) =>
    match decodeBytecode w with
    | .ok i => .run i k
    | .error _ => .run (.unassignedBytecode (w.setWidth 8)) k
  | .error (.trap c _ k) => .state (s.detour (k.getD s) none 7 (w64 c) 0 0)
  | .error (.wait a k) => .state (k.blockAt none a)
  | .error _ => .state s

/-- What core `c` does in its turn: its running strand issues, or a tile core without one dispatches the next (R162); a halted or stopped core
does nothing, and so does every core while the module does not serve, and every one but the firmware's while a restore that failed keeps the module
stopped (R28). (DEDUCED, assumption 42) -/
def State.issue (s : State) (c : Core) : Issue :=
  let cs := s.core c
  let go (x : Nat) : State := { s with cur := c, curX := x }
  if !s.serving || cs.halted.isSome || (s.ckpt.stopped && !c.isFc) then .state { s with cur := c }
  else
    match c with
    | .cc n =>
      if !(s.cc n).on || (s.ctx (ctxKey c 0)).st ≠ .running then .state (go 0)
      else if (s.cc n).bytecode then (go 0).fetchBytecode
      else (go 0).fetchNative
    | .fc n => if (s.fw n).up && (s.ctx (ctxKey c 0)).st = .running then (go 0).fetchNative else .state (go 0)
    | _ =>
      match cs.run with
      | some x => (go x).fetchNative
      | none => .state ((s.dispatch c).getD { s with cur := c })

/-- Cores that the module has (R8, R76, R201). (DESIGN CHOICE, assumption 11) -/
def coreExists (c : Core) : Bool :=
  match c with
  | .a t => t < 4096
  | .c t => t < 4096
  | .cc n => n < 64
  | .fc n => n < 16

-- Words that wait

/-- The oldest access that waits for a word which has become full or empty (R325): it is served before anything else moves. -/
def State.dueWaiter (s : State) : Option Nat :=
  (s.waiters.find? fun e => (s.ctx e.1).st = .blocked && (match e.2 with
    | .full w => !s.isEmpty w
    | .empty w => s.isEmpty w
    | _ => false)).map Prod.fst

-- Other turns

/-- Whether word `w` of a tile register's slot holds a part of element (`r`, `c`), rows being packed as the register stores them. -/
def slotHolds (cfg : Word) (w r c : Nat) : Bool :=
  let n := 8 * storedWidth cfg
  let e := n / cfgCols cfg
  let b := r * n + c * e
  64 * w < b + e && b < 64 * w + 64

/-- The elements of a tile register in a word of its slot poisoned. -/
def TReg.spoil (v : TReg) (w : Nat) : TReg :=
  { v with poison := (List.range 4096).foldl (fun m i =>
      if i / 64 < cfgRows v.cfg && i % 64 < cfgCols v.cfg && slotHolds v.cfg w (i / 64) (i % 64) then Tbl.set false m i true else m) v.poison }

/-- One more poisoned word created (R35). -/
def State.countPoison (s : State) : State := { s with counters := { s.counters with poisoned := s.counters.poisoned + 1 } }

/-- The elements of a prefetch window of `size` that lie in the places of element `e` and its neighbour poisoned: an ordinal lies in the place of its
remainder (R230). (DESIGN CHOICE, assumption 99) -/
def Stream.spoil (v : Stream) (size e : Nat) : Stream :=
  { v with fetched := v.fetched.map fun x => if x.1 % size / 2 = e / 2 then (x.1, x.2.1, true) else x }

/-- The prefetch window of stream register f`24 + j` of a tile with an uncorrectable error at element `e`. -/
def State.spoilStream (s : State) (t j size e : Nat) : State :=
  let v := Tbl.get {} (s.tile t).strm (24 + j)
  (if v = {} then s else s.setTile t { s.tile t with strm := Tbl.set {} (s.tile t).strm (24 + j) (v.spoil size e) }).countPoison

/-- Whether bank `b` of the pool is an accumulator or a register-file bank that a partition holds (R230). -/
def bankHeld (part b : Nat) : Bool := 32 ≤ b + partAccb part || 31 - partAccb part - b ≤ partRfb part

/-- An uncorrectable error at offset `o` of a tile's pool beyond its scratchpad (R230, R232): the accumulator element, the tile register's elements, the
two lanes of the f-register or the two elements of a prefetch window that the word holds are poisoned; a k-register, which has no poison, holds free bits.
(DESIGN CHOICE, assumption 99) -/
def State.spoilBank (s : State) (t o : Nat) (part : Nat) : State :=
  let bank := o / 0x8000
  let w := o % 0x8000 / 8
  if 32 ≤ bank + partAccb part then
    let n := (31 - bank) / 2
    let a := Tbl.get {} (s.tile t).acc n
    (s.setTile t { s.tile t with acc := Tbl.set {} (s.tile t).acc n { a with bad := Tbl.set false a.bad ((o - (30 - 2 * n) * 0x8000) / 16) true } }).countPoison
  else
    let i := 31 - partAccb part - bank
    if i = 0 && w < 2048 then
      let c : Core := if w < 1024 then .a t else .c t
      let n := w % 1024 / 32
      let v := (s.core c).fReg n
      let l := 2 * (w % 32)
      (s.setCore c { s.core c with f := Tbl.set {} (s.core c).f n { v with
        poison := v.poison ||| BitVec.twoPow 64 l ||| BitVec.twoPow 64 (l + 1) } }).countPoison
    else if i = 0 && w < 2064 then
      let c : Core := if w < 2056 then .a t else .c t
      let (v, s) := s.freeWord
      (s.setCore c { s.core c with k := Tbl.set 0 (s.core c).k (w % 8) v }).countPoison
    else if i = 0 then (if w < 3072 then s.countPoison else s.spoilStream t ((w - 3072) / 128) (prefetchSize part) (2 * (w % 128)))
    else if 3 ≤ i then s.spoilStream t (w / 512) (prefetchSize part) (256 + 1024 * (i - 3) + 2 * (w % 512))
    else
      let n := 4 * (i - 1) + w / 1024
      (s.setTreg t n ((s.treg t n).spoil (w % 1024))).countPoison

/-- A bit error strikes a stored word (R11, R232): of HBM, of a scratchpad that is powered, or of another bank that a tile's partition holds.
(DESIGN CHOICE, assumption 65) (DESIGN CHOICE, assumption 99) -/
def State.upset (s : State) (word : Nat) (double : Bool) : State :=
  let t := (word * 8 - 2 ^ 56) / 2 ^ 20
  let o := word * 8 % 2 ^ 20
  let spad := match s.tileLaunch t, (s.tile t).retained with
    | some _, _ => s.spadBytes t
    | none, some r => r.spb * 0x8000
    | none, none => 0
  if !(isPool (word * 8) || isHbm (word * 8)) then s
  else if isPool (word * 8) && spad ≤ o then
    match s.tileLaunch t with
    | none => s
    | some u =>
      let part := tmplPart (s.launch u).tmpl
      if !bankHeld part (o / 0x8000) then s else if double then s.spoilBank t o part else s.countSoft (word * 8)
  else if double then { s with hard := Tbl.set false s.hard word true }
  else { s with soft := Tbl.set false s.soft word true }

/-- A core's instruction cache without a line. -/
def State.dropLine (s : State) (c : Core) (va : Nat) : State :=
  s.setCore c { s.core c with icache := (s.core c).icache.filter fun e => e.line ≠ va / 64 }

/-- Something cached is evicted: a translation of an agent (R110), a non-leaf entry of a die (R101), a line of a core, a site record of a control
core (R212), a template of a streamer or of the launch units (R131, R48). (DEDUCED, assumption 66) -/
def State.evict (s : State) (agent va : Nat) : State :=
  let s := { s with
    tlb := s.tlb.filter fun e => !(e.agent = agent && e.va ≤ va && va < e.va + (if e.huge then 2 ^ 25 else 2 ^ 16))
    nodes := s.nodes.filter fun e => !(agent = 0x10C0 + e.die && e.dpa = va)
    tmplCache := if agent = 0x1100 then s.tmplCache.filter fun e => e.2.1 ≠ va else s.tmplCache }
  if agent < 0x1000 then (s.dropLine (.a agent) va).dropLine (.c agent) va
  else if agent < 0x1020 then
    s.setStreamer (agent - 0x1000) { s.streamer (agent - 0x1000) with cache := (s.streamer (agent - 0x1000)).cache.filter fun e => e.2.1 ≠ va }
  else if 0x1040 ≤ agent && agent < 0x1080 then
    let n := agent - 0x1040
    let s := s.dropLine (.cc n) va
    let s := ((s.cc n).sites.filter fun r => r.addr = va).foldl (fun s r => s.siteFlush n r) s
    s.setCc n { s.cc n with sites := (s.cc n).sites.filter fun r => r.addr ≠ va }
  else if 0x1080 ≤ agent && agent < 0x1090 then s.dropLine (.fc (agent - 0x1080)) va
  else s

/-- Time passes, on each clock; a slot that is idle notes since when (R80). (DEDUCED, assumption 64) -/
def State.pass (s : State) (cycles ccCycles us : Nat) : State :=
  let s := s.noteIdle
  { s with now := s.now + cycles, ccNow := s.ccNow + ccCycles, us := s.us + us }

/-- Whether an instruction is one of the machine's own steps, which only a turn of the agenda takes. (DESIGN CHOICE, assumption 9) -/
def isStep (i : Instr) : Bool :=
  match i with
  | .reservedOpcode _ => false
  | .unassignedBytecode _ => false
  | i => i.pred.isNone && encode i = 0

-- An instruction in place

/-- The program that `withFetchWord` places lies at this address of PASID 1, in this frame of HBM. -/
def probeVa : Word := 0x200000

/-- The leaf of that page: readable, writable, executable. -/
def probeLeaf : Word := 0x200E0F

/-- The template of the launch that runs it: every register, accumulator and tile register, 256 KiB of scratchpad. -/
def probeTmpl : BitVec 512 :=
  [(255, 224, 0x040882), (279, 272, 1), (287, 280, 1), (295, 288, 32), (303, 296, 8), (311, 304, 8), (319, 312, 12), (327, 320, 7)].foldl
    (fun v e => setFld v e.1 e.2.1 e.2.2) 0

/-- The core that runs a word: control core 0 in bytecode mode or for a runtime instruction, else a core of tile 0. -/
def probeCore (nbits w : Nat) : Core :=
  if nbits ≤ 32 then .cc 0
  else
    match opCores (w / 2 ^ 56 % 256) (w / 2 ^ 52 % 16) with
    | .control => .cc 0
    | .aCore => .a 0
    | _ => .c 0

/-- A context that stands at the placed word, its registers live. (DEDUCED, assumption 8) -/
def probeCtx (c : Ctx) (u : Nat) : Ctx :=
  { c.settled with st := .running, pc := probeVa, live := 0xFFFF, launch := u }

/-- The word in memory, translated for an agent. -/
def State.probePage (s : State) (agent : Nat) (w : Word) : State :=
  let e : Tlb := { agent := agent, pasid := 1, va := probeVa.toNat, huge := false, leaf := probeLeaf, leafDpa := 0 }
  { s with tlb := e :: s.tlb }.storeWord probeVa.toNat 8 w.toNat false

/-- The machine about to fetch and run a word. (DEDUCED, assumption 8) -/
def State.probe (s : State) (nbits w : Nat) : State :=
  let c := probeCore nbits w
  let s := { s with agenda := [], waiters := [], service := .full, cur := c, curX := 0 }.probePage c.agent (w64 w)
  let cs := s.core c
  let s := s.setCore c { cs with icache := [], halted := none, run := if c.isTile then some 0 else cs.run }
  let k := ctxKey c 0
  match c with
  | .cc n => (s.setCc n { s.cc n with on := true, bytecode := nbits ≤ 32, pasid := 1, vpc := probeVa }).setCtx k (probeCtx (s.ctx k) 0)
  | _ =>
    let u := s.fresh
    let s := s.newId.2.setLaunch u { id := 1, pasid := 1, tmpl := probeTmpl, st := .running }
    let s := s.setTile 0 { s.tile 0 with runs := [u] }
    s.setCtx k (probeCtx (s.ctx k) u)

end Sys2Proof.Machine
end

