-- ==== Sys2Proof/Machine/Step.lean ====
section
/-! DEFINITION. One step of the module: an access that waits for a word and may go on, else the next turn of the agenda, else the core whose turn
it is. -/

namespace Sys2Proof.Machine

/-- The turn of a core. (DESIGN CHOICE, assumption 2) (DESIGN CHOICE, assumption 11) -/
def coreTurn (c : Core) (s : State) : Host.Outcome State Fault Refusal :=
  if !coreExists c then .fault .noSuchCore
  else
    match s.issue c with
    | .run i k => exec i k
    | .state k => .next k

/-- One turn of the agenda. (DESIGN CHOICE, assumption 2) -/
def runTurn (t : Turn) (s : State) : Host.Outcome State Fault Refusal :=
  match t with
  | .core c => coreTurn c s
  | .event i inp => if isStep i then exec i { s with inp := inp } else .next s
  | .pass n m u => .next (s.pass n m u)
  | .upset w d => .next (s.upset w d)
  | .drop a va => .next (s.evict a va)
  | .serve fc => .next (s.serve fc)

/-- One step. (DESIGN CHOICE, assumption 2) -/
def step (s : State) : Host.Outcome State Fault Refusal :=
  match (if s.serving then s.dueWaiter else none) with
  | some k => .next ((s.retry k).getD s)
  | none =>
    match s.agenda with
    | [] => coreTurn s.cur s
    | t :: r => runTurn t { s with agenda := r }

/-- The state with one instruction placed where the next step fetches. (DEDUCED, assumption 8) -/
def State.withFetchWord (s : State) (nbits w : Nat) : State := s.probe nbits w

end Sys2Proof.Machine
end

