-- ==== Sys2Proof/Safety.lean ====
section
/-! DEFINITION. The terms in which claims are stated: when an instruction issues, the state in which its effect takes place, the canonical form
of memory, and what a safe run is. -/

namespace Sys2Proof.Machine

/-- A native instruction issues on the executing core: no trap at decode (R292, R293), a predicate that lets it act (R289; an instruction that
has waited passed it when it issued), no register that the vector engine has still to write (R225), live sources whose values the rules admit (R294), no dead source (R161, R290), every queue register ready
(R227), and nothing that a push must wait for (R228). -/
structure State.Issues (s : State) (i : Instr) : Prop where
  legal : decodeTrap i s = none
  enabled : s.me.await ≠ .none ∨ byLanes i = true ∨ s.predicate i = true
  written : vecWait i s = false
  values : valueTrap i s = false
  live : staleField i s = none
  ready : queueWait i s = none
  pushes : pushWait i s = false

/-- A native instruction begins: no trap at decode, a predicate that lets it act, and no register that the vector engine has still to write. -/
structure State.Begins (s : State) (i : Instr) : Prop where
  legal : decodeTrap i s = none
  enabled : s.me.await ≠ .none ∨ byLanes i = true ∨ s.predicate i = true
  written : vecWait i s = false

/-- The state in which the effect of a native instruction takes place: PC at NPC (R286). -/
def State.atNpc (s : State) : State := s.setMe { s.me with pc := s.me.pc + 8 }

/-- The state in which the effect of a vector instruction takes place: the lanes that it acts in are chosen as well (R289). -/
def State.atIssue (s : State) (i : Instr) : State := (s.issued i).atNpc

/-- The memory has its canonical form. -/
def State.MemCanonical (s : State) : Prop := Memory.wf s.mem = true

/-- A run of `n` steps that never stops. -/
def State.RunsFor (s : State) : Nat → Prop
  | 0 => True
  | n + 1 => ∃ t, step s = .next t ∧ t.RunsFor n

/-- What an outcome keeps of a state: the state itself where there is one. -/
def answer : Host.Outcome State Fault Refusal → Option State
  | .next s => some s
  | .fault _ => none
  | .refused _ => none

-- Scalar operands, as claims name them

/-- A scalar source field read (R227, R282): the register's value, or the oldest entry of the queue register, popped. -/
def State.source (s : State) (c : BitVec 6) : Word × State :=
  if c.toNat < 16 then (s.gReg c.toNat, s) else s.popQ (c.toNat - 48)

/-- A scalar destination field written (R161, R227, R282): the register, or one entry pushed. -/
def State.result (s : State) (c : BitVec 6) (v : Word) : State :=
  if c.toNat < 16 then s.setG c.toNat v else s.pushQ (c.toNat - 48) v

/-- Flags that stay set in `AFLAGS` (R252). -/
def State.flag (s : State) (f : BitVec 6) : State := s.setMe { s.me with aflags := s.me.aflags ||| f }

/-- What a scalar instruction leaves (its frame): of the whole machine only the executing context, its queue registers and the dead marks of
f-registers may differ; of the context only PC, `AFLAGS`, the live mask, register `d`, and what it waits for. -/
structure State.ScalarFrame (s t : State) (d : Nat) : Prop where
  machine : t = { s with ctxs := t.ctxs, cores := t.cores, onTile := t.onTile, waiters := t.waiters }
  others : ∀ k, k ≠ s.myKey → t.ctx k = s.ctx k
  mine : t.me = { s.me with
    pc := t.me.pc, g := t.me.g, live := t.me.live, aflags := t.me.aflags, await := .none, waitAt := none, failed := [], act := none, data := [],
    lanes := 0, undo := none, line := none, regs := [] }
  regs : ∀ n, n ≠ d → t.gReg n = s.gReg n
  vectors : ∀ c, t.core c = { s.core c with fdead := (t.core c).fdead }
  launches : ∀ u, t.ot u s.myTile = { s.ot u s.myTile with q := (t.ot u s.myTile).q }
  elsewhere : ∀ u n, n < 4096 → (u ≠ s.me.launch ∨ n ≠ s.myTile) → t.ot u n = s.ot u n

-- Vector operands, as claims name them

/-- A vector source field read where it names no bound stream (R227, R342): the register, or the oldest entry of q6 or q7, popped. -/
def State.vsource (s : State) (c : BitVec 6) : VReg × State :=
  if 48 ≤ c.toNat then s.popQV (c.toNat - 48) else (s.myCore.fReg (c.toNat - 16), s)

/-- A vector destination field written in the lanes of a mask, where it names no bound stream (R227, R340). -/
def State.vresult (s : State) (c : BitVec 6) (act : BitVec 64) (v : VReg) : State :=
  if 48 ≤ c.toNat then s.pushQV (c.toNat - 48) v
  else s.setF s.cur (c.toNat - 16) ((s.myCore.fReg (c.toNat - 16)).merge v act)

/-- A field names no stream register that is bound (R239). -/
def State.NoStream (s : State) (c : BitVec 6) : Prop := 48 ≤ c.toNat ∨ s.streaming (c.toNat - 16) = false

/-- A state that differs from another at most in the tile's stochastic source (R249). -/
def State.Reseeded (s k : State) : Prop := k = s ∨ ∃ z, k = s.setSeed s.myTile z

/-- The executing strand has no access that is still to be performed (R266, R272): no element of a stream, and none that it has sent. -/
def State.Performed (s : State) : Prop := s.ownPushed = false ∧ s.ownFetch = false ∧ s.ownElems (fun _ => true) = false

/-- The executing context comes to its instruction anew: it has no place in the vector engine's queue and nothing kept of an earlier attempt. -/
def State.Anew (s : State) : Prop := s.me.line = none ∧ s.me.regs = [] ∧ s.me.data = [] ∧ s.me.undo = none

/-- The turn of a vector command that its strand performs (R224): the engine's queue has room, and no command in it waits. -/
def State.VecTurn (s : State) : Prop := (s.vecEntries s.myTile).length < 2 ∧ ∀ e ∈ s.vecEntries s.myTile, e.stage = .done

/-- What a vector command that names no bound stream has captured (R225): `src` in the order of its fields, and the scalar `w`. -/
def State.captured (s : State) (i : Instr) (dst : VecDst) (src : List VReg) (act : BitVec 64) (w : Word) : VecOps :=
  { i := i, dst := dst, src := src.map .val, act := act, rm := s.me.rm, vl := s.me.vl, w := w, x := s.curX }

/-- A captured command at the engine of the executing core: performed at once and running there, with the flags that it raises when it completes. -/
def State.vecRuns (s : State) (o : VecOps) : State :=
  let r := s.vecPerform s.myTile s.myKey s.me.launch o
  r.2.setTile s.myTile { r.2.tile s.myTile with vecRun := some { ctx := s.myKey, flags := r.1.1, launch := s.me.launch } }

/-- A captured command in the engine's queue, to be started there. -/
def State.vecHeld (s : State) (o : VecOps) : State :=
  (s.setTile s.myTile { s.tile s.myTile with
    vecQ := (s.tile s.myTile).vecQ ++ [{ ctx := s.myKey, flags := 0, launch := s.me.launch, stage := .held o }] }).reviveDst o

/-- How a vector command issues (R223 to R225), `k` the state with its sources read: at once where the engine is free; into the queue, the strand going
on, where the engine runs a command or one is queued; and a full queue holds the core. -/
structure State.Dispatches (s : State) (i : Instr) (o : VecOps) (k : State) : Prop where
  free : s.vecEntries s.myTile = [] → (s.tile s.myTile).vecRun = none → exec i s = .next ((k.vecRuns o).finish i)
  busy : (s.vecEntries s.myTile).length < 2 → (s.vecEntries s.myTile ≠ [] ∨ (s.tile s.myTile).vecRun ≠ none) → exec i s = .next ((k.vecHeld o).finish i)
  full : 2 ≤ (s.vecEntries s.myTile).length → exec i s = .next s

/-- What the engine does with a captured command when it starts it (R249): vector `v` in the lanes `m` of its destination, which is no bound write
stream, and at most steps of the tile's stochastic source. -/
def State.Gives (p : State) (t : Nat) (o : VecOps) (m : BitVec 64) (v : VReg) : Prop :=
  ∀ n ctx u, o.dst = .f n → (p.strm t n).bound = false →
    ∃ k, (k = p ∨ ∃ z, k = p.setSeed t z) ∧ (p.vecPerform t ctx u o).2 = k.setF (.c t) n (((k.core (.c t)).fReg n).merge v m)

-- Control cores, as claims name them

/-- 8-byte loads in order, each with the value that it gives; they leave the control cores as they are. -/
def State.Reads : State → List (Word × Word) → State → Prop
  | s, [], t => t = s
  | s, e :: r, t => ∃ k, rd8 e.1 s = .ok (e.2, k) ∧ k.cur = s.cur ∧ k.curX = s.curX ∧ k.ccs = s.ccs ∧ k.Reads r t

/-- The writes of a bytecode, all made (R403); of the core's registers they move `RQIDX` alone (R207). -/
def State.Writes (s : State) (ws : List Want) (t : State) : Prop :=
  Machine.commit ws s = .ok ((), t) ∧ t.cur = s.cur ∧ t.curX = s.curX ∧ t.myCc = { s.myCc with rqidx := t.myCc.rqidx }

/-- What a bytecode leaves: these control registers, and memory as its writes left it. -/
def State.Left (t k : State) (v : CtlCore) : Prop :=
  t.myCc = v ∧ t.mem = k.mem ∧ t.empty = k.empty ∧ t.poison = k.poison

-- The machine's own steps, as claims name them

/-- An instruction that a word of native code or of bytecode stands for. -/
def Coded (i : Instr) : Prop := (∃ w, decode w = .ok i) ∨ ∃ w, decodeBytecode w = .ok i

/-- What is left when a Blocked context has run its instruction again from its start (R162): as the executing context it runs; if it does not
wait again it is Ready on a tile, Running on a core of one context. -/
def State.RunsAgain (s : State) (k : Nat) (i : Instr) (t : State) : Prop :=
  ∃ u, exec i ({ s with cur := coreOfIx (k / 32), curX := k % 32 }.setCtx k { s.ctx k with st := .running }) = .next u ∧
    t = { (if (u.ctx k).st = .running ∧ (coreOfIx (k / 32)).isTile = true then u.enqueue (coreOfIx (k / 32)) (k % 32) else u) with
      cur := s.cur, curX := s.curX }

/-- One event record enters the event queue (R79, R82). -/
def State.Raised (s t : State) (ty : Nat) (q : Option Nat) (a b c : Word) : Prop :=
  t.evSeq = s.evSeq + 1 ∧ t.evq = s.evq ++ [{ etype := ty, qid := q, arg0 := a, arg1 := b, arg2 := c, seq := s.evSeq.toNat }]

end Sys2Proof.Machine
end

