-- ==== Sys2Proof/Certificates/Slice0/Obligations.lean ====
section
/-! DEFINITION. The statements for the provers, each under the numbered rules of the manual that it formalises. -/

open Sys2Proof Sys2Proof.Machine

/-- R283, R284, R292, R293: no bit of a native encoding is dropped. The obligation is about every native instruction (one that has a predicate
field) that R293 does not refuse. -/
def Obligations.NativeRoundTrip : Prop :=
  ∀ i : Instr, i.pred.isSome = true → i.wf = true → decode (encode i) = .ok i

/-- The other direction of the round trip (R283, R284, R293): reserved bits included, each accepted word has one meaning. -/
def Obligations.NativeWordUnique : Prop :=
  ∀ (w : Word) (i : Instr), decode w = .ok i → i.wf = true ∧ encode i = w

/-- R220, R295, R404: opcode byte, operands and zero padding. A bytecode is an instruction without a predicate field whose word is not zero and
whose opcode byte is assigned. -/
def Obligations.BytecodeRoundTrip : Prop :=
  ∀ i : Instr, i.pred = none → encode i ≠ 0 → (∀ w, i ≠ .reservedOpcode w) → (∀ b, i ≠ .unassignedBytecode b) → i.wf = true →
    decodeBytecode (encode i) = .ok i

/-- One worked word per format, per family and per mode (R283 to R295, R297, R303, R306, R318, R328, R331, R333, R339, R343, R369, R374, R382, R391, R398,
R417, R220, R404). -/
def Obligations.WordsOfTheSpec : Prop :=
  decodeTableWord 64 0x0100143140000020 = some (.add ⟨0, false, 5, 3, 5, 0, 0, 0, 0, 0, 0, 1, 0⟩) ∧
  decodeTableWord 64 0x0413041000000001 = some (.addi ⟨1, true, 1, 1, false, 0, 1⟩) ∧
  decodeTableWord 64 0x0411041000000001 = none ∧
  decodeTableWord 64 0x2036515597546120 = some (.vfma ⟨3, false, 0x14, 0x15, 0x16, 0x17, 2, 5, 0, 3, 0, 9, 0⟩) ∧
  decodeTableWord 64 0x1000203FC1300140 = some (.ld ⟨0, false, 8, 3, 0x3F, false, false, 0, 1, 3, 0x140⟩) ∧
  decodeTableWord 64 0x081013FFFFFFFFFF = some (.bz ⟨0, false, 4, BitVec.allOnes 42⟩) ∧
  decodeTableWord 64 0x08601FFFFFFFFFFA = some (.loop ⟨0, false, 7, BitVec.ofInt 42 (-6)⟩) ∧
  decodeTableWord 64 0x04A0100000000003 = some (.lrec ⟨0, false, 4, 0, false, 0, 3⟩) ∧
  decodeTableWord 64 0x0A00040000000000 = some (.mfsr ⟨0, false, 1, 0, false, 0, 0⟩) ∧
  decodeTableWord 64 0x1100103FC1300110 = some (.amswap ⟨0, false, 4, 3, 0x3F, false, false, 0, 1, 3, 0x110⟩) ∧
  decodeTableWord 64 0x1210006087000000 = some (.binit ⟨0, false, 0, 6, 2, 7, 0, 0, 0, 0, 0, 0, 0⟩) ∧
  decodeTableWord 64 0x3000E44180000000 = some (.tld ⟨0, false, 0x39, 4, 6, 0, false, false, false, 0⟩) ∧
  decodeTableWord 64 0x3030038E40C00000 = some (.mma ⟨0, false, 0, 0x38, 0x39, 0, true, true, false, 0⟩) ∧
  decodeTableWord 64 0x3100147000000001 = some (.cp ⟨0, false, 5, 7, 0, 0, false, false, false, 1⟩) ∧
  decodeTableWord 64 0x32001020C0000010 = some (.xlook ⟨0, false, 4, 2, 3, 0, false, false, false, 0x10⟩) ∧
  decodeTableWord 64 0x3280000002000000 = some (.gbar ⟨0, false, 0, 0, 0, 2, false, false, false, 0⟩) ∧
  decodeTableWord 64 0x40102051C9000000 = some (.icu ⟨0, false, 8, 5, 7, 9, 0, 0, 0, 0, 0, 0, 0⟩) ∧
  decodeTableWord 64 0x4080248000000020 = some (.twait ⟨0, false, 9, 8, 0, 0, 0, 0, 0, 0, 0, 1, 0⟩) ∧
  decodeTableWord 8 0x40 = some (.bcAddS 0) ∧
  decodeTableWord 32 0x02000360 = some (.bcCallS 3 2) ∧
  decodeTableWord 16 0x0161 = some (.bcCallb 1) ∧
  decodeTableWord 32 0xFFD80430 = some (.bcLoopdec 4 0xFFD8)

/-- The per-instruction statements reach a run through this one (R28, R162, R201, R286, R293, R317). `runs` says what the core executes: a tile core its
running strand, a control core its program in native mode, a firmware core its image. The core's turn is the head of the agenda, or the turn of the
current core when the agenda is empty. -/
def Obligations.StepRunsDecodedInstruction : Prop :=
  ∀ (s : State) (c : Core) (x : Nat) (rest : List Turn) (k : State) (w : Word) (i : Instr),
    s.serving = true → s.dueWaiter = none → (s.agenda = .core c :: rest ∨ (s.agenda = [] ∧ rest = [] ∧ s.cur = c)) →
    coreExists c = true → (s.core c).halted = none → (s.ckpt.stopped = false ∨ c.isFc = true) →
    let s0 : State := { s with agenda := rest, cur := c, curX := x }
    let native : Prop := match c with
      | .cc n => x = 0 ∧ (s.cc n).on = true ∧ (s.cc n).bytecode = false ∧ (s.ctx (ctxKey c 0)).st = .running
      | .fc n => x = 0 ∧ (s.fw n).up = true ∧ (s.ctx (ctxKey c 0)).st = .running
      | _ => (s.core c).run = some x
    (native → fetchWord s0.me.pc .fetch s0 = .ok (w, k) →
      (decode w = .ok i → step s = exec i k) ∧
      (∀ e, decode w = .error e → step s = exec (.reservedOpcode w) k)) ∧
    (∀ n, c = .cc n → x = 0 → (s.cc n).on = true → (s.cc n).bytecode = true → (s.ctx (ctxKey c 0)).st = .running →
      fetchWord (s.cc n).vpc .read s0 = .ok (w, k) → decodeBytecode w = .ok i → step s = exec i k)

/-- R22, R26, R29, R91, R95, R130, R164, R178, R180, R191, R238, R247, R249, R252, R311, R365, R400; the start of the invariant of
`StepKeepsMemoryCanonical`. That an unlisted byte reads as 0 is the model's own choice (assumption 1). -/
def Obligations.ResetState : Prop :=
  let r := State.reset
  r.MemCanonical ∧ (∀ k, r.byte k = 0) ∧ r.serving = false ∧
  (r.power.clk = 8 ∧ r.power.maxp = 2 ∧ r.power.cur = 2 ∧ r.power.sel = 0 ∧ r.power.therm = false ∧ r.power.trip = false) ∧
  (r.ckpt.seq = 0 ∧ r.ckpt.status = 0 ∧ r.ckpt.good = false) ∧ (r.evq = [] ∧ r.evLost = 0 ∧ r.launchRR = 0 ∧ r.cmds = []) ∧
  (∀ n, (r.streamer n).rr = 0 ∧ (r.streamer n).bound = false) ∧
  (∀ t n, (r.tile t).rndseed = 1 ∧ (r.tile t).dupdrop = 0 ∧ Tbl.get 0 (r.tile t).tcfg n = 0 ∧ (r.tile t).launchCount = 0 ∧
    (r.treg t n).sem = .empty) ∧
  (∀ k, (r.ctx k).vec = 0 ∧ (r.ctx k).code = 0 ∧ (r.ctx k).rpc = 0 ∧ (r.ctx k).arg = 0 ∧ (r.ctx k).inh = false ∧ (r.ctx k).rm = 0 ∧
    (r.ctx k).aflags = 0 ∧ (r.ctx k).vl = 64) ∧
  (∀ c n, Tbl.get 0 (r.core c).mbpc n = 0 ∧ Tbl.get 0 (r.core c).mbcfg n = 0) ∧ (∀ n, r.entry n = 0) ∧ r.xstrm = 0xFFFF

/-- Every instruction, every step of the machine's own and every turn that no core takes writes memory only through operations that keep the form. -/
def Obligations.StepKeepsMemoryCanonical : Prop :=
  ∀ s t : State, s.MemCanonical → step s = .next t → t.MemCanonical

/-- R297 as a formula over exact integers: `fn` is the function number of the entry. The completion statement of ADD, SUB, MUL, MULH, MULHU, DIV, DIVU,
REM, REMU, MIN, MAX, MINU and MAXU. (That Z leaves an operand which `DT` or the function number makes unsigned as it is, is the model's reading of R290,
assumption 12.) -/
def Obligations.ArithmeticResults : Prop :=
  ∀ (op : FmtR → Instr) (fn : Nat), (op, fn) ∈ [(Instr.add, 0), (Instr.sub, 1), (Instr.mul, 2), (Instr.mulh, 3), (Instr.mulhu, 4), (Instr.div, 5),
      (Instr.divu, 6), (Instr.rem, 7), (Instr.remu, 8), (Instr.min, 9), (Instr.max, 10), (Instr.minu, 11), (Instr.maxu, 12)] →
  ∀ (x : FmtR) (s : State), s.Issues (op x) →
    let a := s.atNpc.source x.a
    let b := a.2.source x.b
    let signed : Bool := if fn < 3 then x.dt = 1 else fn = 3 || fn = 5 || fn = 7 || fn = 9 || fn = 10
    let va := modInt 64 x.ma signed a.1
    let vb := modInt 64 x.mb signed b.1
    let sa : Int := va.toInt
    let sb : Int := vb.toInt
    let ua : Int := va.toNat
    let ub : Int := vb.toNat
    let X := if x.dt = 1 then sa else ua
    let Y := if x.dt = 1 then sb else ub
    let exact : Int := match fn with
      | 0 => X + Y
      | 1 => X - Y
      | 2 => X * Y
      | 3 => sa * sb / 2 ^ 64
      | 4 => ua * ub / 2 ^ 64
      | 5 => sa.tdiv sb
      | 6 => ua / ub
      | 7 => sa - sb * sa.tdiv sb
      | 8 => ua % ub
      | 9 => if sa ≤ sb then sa else sb
      | 10 => if sa ≤ sb then sb else sa
      | 11 => if ua ≤ ub then ua else ub
      | _ => if ua ≤ ub then ub else ua
    let scale := x.scale.toInt
    let scaled : Int := if 3 ≤ fn then exact else if 0 ≤ scale then exact * 2 ^ scale.toNat else exact / 2 ^ (-scale).toNat
    let lo : Int := if x.dt = 1 then -2 ^ 63 else 0
    let hi : Int := if x.dt = 1 then 2 ^ 63 - 1 else 2 ^ 64 - 1
    let cut : Bool := fn < 3 && x.clamp = 3 && (scaled < lo || hi < scaled)
    let byZero : Bool := 5 ≤ fn && fn ≤ 8 && vb = 0
    let r : Int := if byZero then 2 ^ 64 - 1 else if cut then (if scaled < lo then lo else hi) else scaled
    exec (op x) s = .next (((b.2.flag (if cut then flSat else if byZero then flDivzero else 0)).result x.d (BitVec.ofInt 64 r)).finish (op x))

/-- R299, bit by bit. The completion statement of AND, OR, XOR, SHL, SHR, SRA, CLZ, CTZ, POPC, BEXT and BINS. -/
def Obligations.BitOperationResults : Prop :=
  ∀ (x : FmtR) (s : State),
    let a := s.atNpc.source x.a
    let b := a.2.source x.b
    let c := b.2.source x.c
    let A := a.1
    let B := b.1
    let lo := B.toNat % 64
    let w := B.toNat / 64 % 64 + 1
    let m : Word := BitVec.ofNat 64 ((2 ^ w - 1) * 2 ^ lo)
    let one (op : Instr) (r : Word) : Prop := s.Issues op → exec op s = .next ((a.2.result x.d r).finish op)
    let two (op : Instr) (r : Word) : Prop := s.Issues op → exec op s = .next ((b.2.result x.d r).finish op)
    two (.and x) (A &&& B) ∧ two (.or x) (A ||| B) ∧ two (.xor x) (A ^^^ B) ∧
    two (.shl x) (if 64 ≤ B.toNat then 0 else BitVec.ofNat 64 (A.toNat * 2 ^ B.toNat)) ∧
    two (.shr x) (if 64 ≤ B.toNat then 0 else BitVec.ofNat 64 (A.toNat / 2 ^ B.toNat)) ∧
    two (.sra x) (BitVec.ofInt 64 (A.toInt / 2 ^ min B.toNat 63)) ∧
    (s.Issues (.clz x) → ∃ n : Nat, n ≤ 64 ∧ (∀ i, 64 - n ≤ i → i < 64 → A.getLsbD i = false) ∧ (n < 64 → A.getLsbD (63 - n) = true) ∧
      exec (.clz x) s = .next ((a.2.result x.d (BitVec.ofNat 64 n)).finish (.clz x))) ∧
    (s.Issues (.ctz x) → ∃ n : Nat, n ≤ 64 ∧ (∀ i, i < n → A.getLsbD i = false) ∧ (n < 64 → A.getLsbD n = true) ∧
      exec (.ctz x) s = .next ((a.2.result x.d (BitVec.ofNat 64 n)).finish (.ctz x))) ∧
    one (.popc x) (BitVec.ofNat 64 ((List.range 64).countP fun i => A.getLsbD i)) ∧
    two (.bext x) (BitVec.ofNat 64 (A.toNat / 2 ^ lo % 2 ^ (min (lo + w - 1) 63 + 1 - lo))) ∧
    (s.Issues (.bins x) → exec (.bins x) s =
      .next ((c.2.result x.d ((A &&& ~~~ m) ||| ((c.1 <<< lo) &&& m))).finish (.bins x)))

/-- R301. The completion statement of SEQ, SNE, SLT, SLTU, SLE, SLEU, SEL and MOV. (`flag 0`: no flag is raised. That Z takes an
operand as a signed number here but for SLTU and SLEU, which leave it as it is, is the model's reading of R290, assumption 12.) -/
def Obligations.CompareSelectMoveResults : Prop :=
  ∀ (x : FmtR) (s : State),
    let a := s.atNpc.source x.a
    let b := a.2.source x.b
    let c := b.2.source x.c
    let A := modInt 64 x.ma true a.1
    let B := modInt 64 x.mb true b.1
    let U := modInt 64 x.ma false a.1
    let V := modInt 64 x.mb false b.1
    let cmp (op : Instr) (p : Bool) : Prop :=
      s.Issues op → exec op s = .next (((b.2.flag 0).result x.d (if p then 1 else 0)).finish op)
    cmp (.seq x) (A.toNat = B.toNat) ∧ cmp (.sne x) (A.toNat ≠ B.toNat) ∧
    cmp (.slt x) (A.toInt < B.toInt) ∧ cmp (.sltu x) (U.toNat < V.toNat) ∧
    cmp (.sle x) (A.toInt ≤ B.toInt) ∧ cmp (.sleu x) (U.toNat ≤ V.toNat) ∧
    (s.Issues (.sel x) → exec (.sel x) s = .next ((c.2.result x.d (if c.1 ≠ 0 then A else B)).finish (.sel x))) ∧
    (s.Issues (.mov x) → exec (.mov x) s = .next ((a.2.result x.d A).finish (.mov x)))

/-- R303, with the widening of R288. The completion statement of MOVI (both destinations; an f-register that is a bound write stream also takes the
elements of R239, which `StreamRegisters` states), ADDI, ANDI, ORI, XORI, SHLI, SHRI, SRAI, SLTI and SLTUI. -/
def Obligations.ImmediateResults : Prop :=
  ∀ (x : FmtI) (s : State),
    let v : Word := match x.it.toNat with
      | 0 => x.imm.signExtend 64
      | 1 => x.imm.setWidth 64
      | 2 => x.imm.setWidth 64 <<< 32
      | _ => x.imm.setWidth 64
    let a := s.atNpc.source x.a
    let A := a.1
    let imm (op : Instr) (r : Word) : Prop := s.Issues op → exec op s = .next ((a.2.result x.d r).finish op)
    (s.Issues (.movi x) → (x.d.toNat < 16 ∨ 48 ≤ x.d.toNat) → exec (.movi x) s = .next ((s.atNpc.result x.d v).finish (.movi x))) ∧
    (s.Issues (.movi x) → 16 ≤ x.d.toNat → x.d.toNat < 48 → s.streaming (x.d.toNat - 16) = false → ∃ t, exec (.movi x) s = .next t ∧
      t.me.pc = s.me.pc + 8 ∧ (t.core s.cur).fdead.getLsbD (x.d.toNat - 16) = false ∧
      ∀ l, l < 64 → ((t.core s.cur).fReg (x.d.toNat - 16)).at l = x.imm ∧ ((t.core s.cur).fReg (x.d.toNat - 16)).bad l = false) ∧
    imm (.addi x) (BitVec.ofNat 64 (A.toNat + v.toNat)) ∧ imm (.andi x) (A &&& v) ∧ imm (.ori x) (A ||| v) ∧ imm (.xori x) (A ^^^ v) ∧
    imm (.shli x) (BitVec.ofNat 64 (A.toNat * 2 ^ v.toNat)) ∧ imm (.shri x) (BitVec.ofNat 64 (A.toNat / 2 ^ v.toNat)) ∧
    imm (.srai x) (BitVec.ofInt 64 (A.toInt / 2 ^ v.toNat)) ∧
    imm (.slti x) (if A.toInt < v.toInt then 1 else 0) ∧ imm (.sltui x) (if A.toNat < v.toNat then 1 else 0)

/-- The frame of the instructions of R297, R299, R301 and R303. An A, B or C field of a queue register pops, D pushes (R227); no other queue moves.
Bit operations, `sel`, `mov` and the immediate forms leave `AFLAGS` too. -/
def Obligations.ScalarFrameHolds : Prop :=
  (∀ (op : FmtR → Instr), op ∈ [Instr.add, .sub, .mul, .mulh, .mulhu, .div, .divu, .rem, .remu, .min, .max, .minu, .maxu, .and, .or, .xor, .shl, .shr, .sra,
      .clz, .ctz, .popc, .bext, .bins, .seq, .sne, .slt, .sltu, .sle, .sleu, .sel, .mov] →
    ∀ (x : FmtR) (s : State), s.myTile < 4096 → s.Issues (op x) → ∃ t, exec (op x) s = .next t ∧ s.ScalarFrame t x.d.toNat ∧
      ∀ q, x.a.toNat ≠ 48 + q → x.b.toNat ≠ 48 + q → x.c.toNat ≠ 48 + q → x.d.toNat ≠ 48 + q → Tbl.get [] t.myOt.q q = Tbl.get [] s.myOt.q q) ∧
  (∀ (op : FmtR → Instr), op ∈ [Instr.and, .or, .xor, .shl, .shr, .sra, .clz, .ctz, .popc, .bext, .bins, .sel, .mov] →
    ∀ (x : FmtR) (s : State), s.Issues (op x) → ∃ t, exec (op x) s = .next t ∧ t.me.aflags = s.me.aflags) ∧
  (∀ (op : FmtI → Instr), op ∈ [Instr.movi, .addi, .andi, .ori, .xori, .shli, .shri, .srai, .slti, .sltui] →
    ∀ (x : FmtI) (s : State), s.myTile < 4096 → s.Issues (op x) → (x.d.toNat < 16 ∨ 48 ≤ x.d.toNat) → ∃ t, exec (op x) s = .next t ∧
      s.ScalarFrame t x.d.toNat ∧ t.me.aflags = s.me.aflags ∧
      ∀ q, x.a.toNat ≠ 48 + q → x.d.toNat ≠ 48 + q → Tbl.get [] t.myOt.q q = Tbl.get [] s.myOt.q q)

/-- R293 (with R289, R292, R294, R312) and R318's checks: the trap is taken at decode, before any effect. The first clause is what a reserved opcode does. The
special-register numbers and their cores are those of R318's table. -/
def Obligations.DecodeTraps : Prop :=
  (
    (∀ (w : Word) (s : State), exec (.reservedOpcode w) s = .next (s.takeTrap 1 w s.me.pc)) ∧
    (∀ (i : Instr) (s : State), i.pred.isSome = true →
      (i.wf = false ∨ (opCores (instrOp i) (instrFn i)).has s.cur = false ∨ (s.cur.isTile = false ∧ i.pred ≠ some (0, false))) →
      exec i s = .next (s.takeTrap 1 (encode i) s.me.pc))) ∧
  (
    ∀ (i : Instr) (x : FmtI) (s : State), (i = .mfsr x ∨ i = .mtsr x) → i.wf = true → (s.cur.isTile = true ∨ i.pred = some (0, false)) →
      i.fields.all (fun f => fieldHeld f s) = true →
      let n := x.imm.toNat % 4096
      let assigned : Prop := n ≤ 7 ∨ (0x10 ≤ n ∧ n ≤ 0x14) ∨ n = 0x18 ∨ (0x20 ≤ n ∧ n ≤ 0x22) ∨ (0x30 ≤ n ∧ n ≤ 0x37) ∨ (0x40 ≤ n ∧ n ≤ 0x42) ∨
        (0x50 ≤ n ∧ n ≤ 0x57) ∨ (0x100 ≤ n ∧ n ≤ 0x110)
      let all : Prop := (0x10 ≤ n ∧ n ≤ 0x14) ∨ n = 0x18 ∨ n = 0x21
      let held : Prop := match s.cur with
        | .a _ => n < 0x100 ∧ n ≠ 0x40 ∧ n ≠ 0x41
        | .c _ => n < 0x100
        | .cc _ => all ∨ 0x100 ≤ n
        | .fc _ => all
      (¬ assigned → exec i s = .next (s.takeTrap 1 (encode i) s.me.pc)) ∧
      (assigned → ¬ held → s.predicate i = true → exec i s = .next (s.takeTrap 7 (BitVec.ofNat 64 n) s.me.pc)))

/-- R289 (p is bit 0 of k`PK`, XOR `PN`), R161 with R290 and R294 (a dead source), R227 with R162 (the strand leaves its core and waits behind those that
wait already). The wait for a queued vector command is the model's reading of R225 (assumption 26). -/
def Obligations.IssueChecks : Prop :=
  (
    ∀ (i : Instr) (s : State) (k : Nat) (n : Bool), i.pred = some (k, n) → decodeTrap i s = none → vecWait i s = false → s.me.await = .none → byLanes i = false →
      ((if k = 0 then true else (Tbl.get 0 s.myCore.k k).getLsbD 0) ^^ n) = false →
      exec i s = .next (s.setMe { s.me.settled with pc := s.me.pc + 8 }).unwait) ∧
  (
    ∀ (i : Instr) (s : State) (r : Nat), i.pred.isSome = true → decodeTrap i s = none → vecWait i s = false → s.me.data = [] →
      (s.me.await ≠ .none ∨ byLanes i = true ∨ s.predicate i = true) → valueTrap i s = false → staleField i s = some r →
      exec i s = .next (s.takeTrap 2 (BitVec.ofNat 64 r) s.me.pc)) ∧
  (
    ∀ (i : Instr) (s : State) (q : Nat), i.pred.isSome = true → decodeTrap i s = none → vecWait i s = false →
      (s.me.await ≠ .none ∨ byLanes i = true ∨ s.predicate i = true) → valueTrap i s = false → staleField i s = none → queueWait i s = some q →
      ∃ t, exec i s = .next t ∧ t.me = { (s.issued i).me with st := .blocked, await := .queue q, waitAt := some i } ∧
        (s.cur.isTile = true → t.myCore.run ≠ some s.curX) ∧ (s.myKey, Await.queue q) ∈ t.waiters ∧
        t = { s with ctxs := t.ctxs, cores := t.cores, waiters := t.waiters } ∧ (∀ k, k ≠ s.myKey → t.ctx k = s.ctx k)) ∧
  (
    ∀ (i : Instr) (s : State), i.pred.isSome = true → decodeTrap i s = none → vecWait i s = true →
      ∃ t, exec i s = .next t ∧ t.me = { s.me with st := .blocked, await := .vector, waitAt := some i } ∧ t.mem = s.mem ∧
        (∀ k, k ≠ s.myKey → t.ctx k = s.ctx k))

/-- R312, for every code, argument and return address. -/
def Obligations.TrapDelivery : Prop :=
  ∀ (s : State) (c : Nat) (a r : Word), s.me.vec ≠ 0 → s.me.inh = false →
    let t := s.takeTrap c a r
    t.me = { s.me with
      code := BitVec.ofNat 64 c, rpc := r, arg := a, inh := true, pc := s.me.vec, await := .none, waitAt := none, failed := [], act := none, data := []
      lanes := 0, undo := none, line := none, regs := [] } ∧
    (∀ k, k ≠ s.myKey → t.ctx k = s.ctx k) ∧ t = { s with ctxs := t.ctxs, waiters := t.waiters }

/-- R313, R202, R77. An ERROR event that finds the event queue full is lost and counted (R82), so the event clauses assume room for it. -/
def Obligations.TrapWithoutHandler : Prop :=
  ∀ (s : State) (c : Nat) (a r : Word), (s.me.vec = 0 ∨ s.me.inh = true) → s.evq.length < 4096 →
    let t := s.takeTrap c a r
    (∀ n, s.cur = .a n ∨ s.cur = .c n → (Tbl.find s.launches s.me.launch).isSome = true →
      (t.launch s.me.launch).st = .faulted ∧
      (∀ c x, (c, x) ∈ s.ctxsOf s.me.launch → (t.ctx (ctxKey c x)).st = .free) ∧
      (t.launch s.me.launch).status = (if s.myLaunch.status = 0 then 4 else s.myLaunch.status) ∧
      t.evq = s.evq ++ [{ etype := 7, qid := none, arg0 := 7, arg1 := w64 n, arg2 := w64 (c ||| s.me.strandId.toNat <<< 32), seq := s.evSeq.toNat }]) ∧
    (∀ n, s.cur = .cc n → (t.cc n).on = false ∧
      t.evq = s.evq ++ [{ etype := 7, qid := none, arg0 := 6, arg1 := w64 n, arg2 := w64 c, seq := s.evSeq.toNat }]) ∧
    (∀ n, s.cur = .fc n → s.curX = 0 → t.me.pc = s.firmwareEntry ∧ t.me.st = .running ∧ (t.fw n).locks = [] ∧ (t.fw n).ev = none ∧ (t.fw n).timers = (s.fw n).timers ∧
      t.evq = s.evq ++ [{ etype := 7, qid := none, arg0 := 3, arg1 := w64 n, arg2 := w64 c, seq := s.evSeq.toNat }])

/-- R314, R315, R316. The completion statement of TRAP and BKPT (whose own effect is the entry, or the halt) and TRET. -/
def Obligations.SoftwareTrapAndReturn : Prop :=
  (∀ (x : FmtR) (s : State), s.Issues (.trap x) →
    exec (.trap x) s = .next (s.takeTrap 10 (s.gReg x.a.toNat) (s.me.pc + 8))) ∧
  (∀ (x : FmtR) (s : State), s.Issues (.bkpt x) → s.myCore.haltOn = false →
    exec (.bkpt x) s = .next (s.takeTrap 10 0 (s.me.pc + 8))) ∧
  (∀ (x : FmtR) (s : State), s.Issues (.bkpt x) → s.myCore.haltOn = true → ∃ t, exec (.bkpt x) s = .next t ∧
    t.me = s.me ∧ t.myCore = { s.myCore with halted := some s.curX } ∧ t = { s with ctxs := t.ctxs, cores := t.cores, waiters := t.waiters }) ∧
  (∀ (x : FmtR) (s : State), s.Issues (.tret x) → s.me.inh = true → ∃ t, exec (.tret x) s = .next t ∧
    t.me = { s.me with
      pc := s.me.rpc, inh := false, await := .none, waitAt := none, failed := [], act := none, data := [], lanes := 0, undo := none, line := none, regs := [] } ∧
    t = { s with ctxs := t.ctxs, waiters := t.waiters } ∧ ∀ k, k ≠ s.myKey → t.ctx k = s.ctx k) ∧
  (∀ (x : FmtR) (s : State), s.Issues (.tret x) → s.me.inh = false →
    exec (.tret x) s = .next (s.takeTrap 1 (encode (.tret x)) s.me.pc))

/-- R306, R307 (with R286), and the frame of these instructions. The completion statement of BR, BZ, BNZ, BLTZ, BGEZ, CALL, LOOP, JR, CALLR, RET and NOP. `ret`
reads g15 without naming it in a field, so its dead-register check stands here. -/
def Obligations.BranchesAndJumps : Prop :=
  (
    (∀ (x : FmtJ) (s : State),
      let T := s.me.pc + 8 * x.off.signExtend 64
      let v := s.gReg x.reg.toNat
      let goes (op : Instr) (p : Bool) : Prop :=
        s.Issues op → exec op s = .next ((s.setMe { s.me with pc := if p then T else s.me.pc + 8 }).finish op)
      goes (.br x) true ∧ goes (.bz x) (v.toNat = 0) ∧ goes (.bnz x) (v.toNat ≠ 0) ∧ goes (.bltz x) (v.toInt < 0) ∧ goes (.bgez x) (0 ≤ v.toInt) ∧
      (s.Issues (.call x) → ∃ t, exec (.call x) s = .next t ∧ t.me.pc = T ∧
        ∀ n, t.gReg n = if n = x.reg.toNat then s.me.pc + 8 else s.gReg n) ∧
      (s.Issues (.loop x) → ∃ t, exec (.loop x) s = .next t ∧ t.me.pc = (if v - 1 ≠ 0 then T else s.me.pc + 8) ∧
        ∀ n, t.gReg n = if n = x.reg.toNat then v - 1 else s.gReg n)) ∧
    (∀ (x : FmtR) (s : State),
      let v := s.gReg x.a.toNat
      (s.Issues (.jr x) → v.toNat % 8 = 0 → exec (.jr x) s = .next ((s.setMe { s.me with pc := v }).finish (.jr x))) ∧
      (s.Issues (.jr x) → v.toNat % 8 ≠ 0 → exec (.jr x) s = .next (s.takeTrap 4 v s.me.pc)) ∧
      (s.Issues (.callr x) → v.toNat % 8 = 0 → ∃ t, exec (.callr x) s = .next t ∧ t.me.pc = v ∧
        ∀ n, t.gReg n = if n = x.d.toNat then s.me.pc + 8 else s.gReg n) ∧
      (s.Issues (.callr x) → v.toNat % 8 ≠ 0 → exec (.callr x) s = .next (s.takeTrap 4 v s.me.pc)) ∧
      (s.Issues (.ret x) → s.me.live.getLsbD 15 = true → (s.gReg 15).toNat % 8 = 0 →
        exec (.ret x) s = .next ((s.setMe { s.me with pc := s.gReg 15 }).finish (.ret x))) ∧
      (s.Issues (.ret x) → s.me.live.getLsbD 15 = true → (s.gReg 15).toNat % 8 ≠ 0 →
        exec (.ret x) s = .next (s.takeTrap 4 (s.gReg 15) s.me.pc)) ∧
      (s.Issues (.ret x) → s.me.live.getLsbD 15 = false → exec (.ret x) s = .next (s.takeTrap 2 15 s.me.pc)) ∧
      (s.Issues (.nop x) → exec (.nop x) s = .next (s.atNpc.finish (.nop x))))) ∧
  (
    let same (s t : State) (d : Nat) : Prop :=
      t = { s with ctxs := t.ctxs, waiters := t.waiters } ∧ (∀ k, k ≠ s.myKey → t.ctx k = s.ctx k) ∧
      t.me = { s.me with
        pc := t.me.pc, g := t.me.g, live := t.me.live, await := .none, waitAt := none, failed := [], act := none, data := [], lanes := 0, undo := none
        line := none, regs := [] } ∧
      ∀ n, n ≠ d → t.gReg n = s.gReg n
    (∀ (x : FmtJ) (s : State),
      (∀ op ∈ [Instr.br x, .bz x, .bnz x, .bltz x, .bgez x], s.Issues op → ∃ t, exec op s = .next t ∧ same s t 16) ∧
      (∀ op ∈ [Instr.call x, .loop x], s.Issues op → ∃ t, exec op s = .next t ∧ same s t x.reg.toNat)) ∧
    (∀ (x : FmtR) (s : State),
      ((s.gReg x.a.toNat).toNat % 8 = 0 → s.Issues (.jr x) → ∃ t, exec (.jr x) s = .next t ∧ same s t 16) ∧
      ((s.gReg x.a.toNat).toNat % 8 = 0 → s.Issues (.callr x) → ∃ t, exec (.callr x) s = .next t ∧ same s t x.d.toNat) ∧
      (s.me.live.getLsbD 15 = true → (s.gReg 15).toNat % 8 = 0 → s.Issues (.ret x) → ∃ t, exec (.ret x) s = .next t ∧ same s t 16) ∧
      (s.Issues (.nop x) → ∃ t, exec (.nop x) s = .next t ∧ same s t 16)))

/-- R169, R308, R309, R310, R163, R165, R167, R268. The completion statement of HALT, YIELD and HOP. -/
def Obligations.StrandControl : Prop :=
  (∀ (x : FmtR) (s : State), s.Issues (.halt x) → s.myCore.run = some s.curX → 
      (∀ u ∈ (s.tile s.myTile).runs, (s.launch u).st ≠ .running ∨ ((s.ot u s.myTile).unplacedA = [] ∧ (s.ot u s.myTile).unplacedC = [])) →
    ∃ t, exec (.halt x) s = .next t ∧ t.me.st = .free ∧ t.myCore.run = none ∧ (∀ e ∈ t.myCore.runq, e.ctx ≠ s.curX) ∧ t.mem = s.mem) ∧
  (∀ (x : FmtR) (s : State), s.Issues (.yield x) → s.myCore.run = some s.curX → (∃ e ∈ s.myCore.runq, (s.ctx (ctxKey s.cur e.ctx)).st = .ready) →
    ∃ t, exec (.yield x) s = .next t ∧ t.me.st = .ready ∧ t.me.pc = s.me.pc + 8 ∧ t.myCore.run = none ∧
      t.myCore.runq = s.myCore.runq ++ [{ ctx := s.curX, level := s.me.prio, since := s.now }] ∧ t.mem = s.mem) ∧
  (∀ (x : FmtR) (s : State), s.Issues (.yield x) → (∀ e ∈ s.myCore.runq, (s.ctx (ctxKey s.cur e.ctx)).st ≠ .ready) → exec (.yield x) s = .next (s.atNpc.finish (.yield x))) ∧
  (∀ (x : FmtR) (s : State), s.Issues (.hop x) →
    let a := s.gReg x.a.toNat
    let target := a.toNat / 2 ^ 20 % 4096
    (a.toNat / 2 ^ 32 = 0xFE000000 → s.myLaunch.covers target = true → target = s.myTile → s.Performed → exec (.hop x) s = .next (s.atNpc.finish (.hop x))) ∧
    (a.toNat / 2 ^ 32 = 0xFE000000 → s.myLaunch.covers target = true → target ≠ s.myTile → s.refusals s.myTile < 16 →
      s.Performed →
      ∃ t m c, exec (.hop x) s = .next t ∧ t.me.st = .hopping ∧ t.me.pc = s.me.pc ∧ t.myCore.run ≠ some s.curX ∧
        Tbl.find t.msgs s.fresh = some m ∧ m.kind = .hop ∧ m.fromTile = s.myTile ∧ m.toTile = target ∧ m.toA = s.cur.isA ∧ m.launch = s.me.launch ∧
        m.carried = some c ∧ c.pc = s.me.pc + 8 ∧ c.g = s.me.g ∧ c.live = s.me.live &&& ~~~ (lastUse (.hop x)).1 ∧ c.vec = s.me.vec ∧ c.inh = s.me.inh ∧
        c.aflags = s.me.aflags ∧ c.vl = s.me.vl ∧ c.rm = s.me.rm) ∧
    ((a.toNat / 2 ^ 32 ≠ 0xFE000000 ∨ s.myLaunch.covers target = false) → exec (.hop x) s = .next (s.takeTrap 5 a s.me.pc)))

/-- R318, R319, R320, R253, reserved bits of POOLPART zero as R4 asks, with the registers where R154, R160, R164, R192, R203, R229, R238, R247, R249, R252, R311 and R366 put them. The completion
statement of MFSR. -/
def Obligations.SpecialRegisterReads : Prop :=
  ∀ (x : FmtI) (s : State), s.Issues (.mfsr x) →
    let n := x.imm.toNat % 4096
    let l := s.myLaunch
    let tl := s.tile s.myTile
    let v : Word := match n with
      | 0x000 => w64 (l.w ||| l.h <<< 8 ||| fld l.tmpl 279 272 <<< 16 ||| fld l.tmpl 287 280 <<< 24)
      | 0x001 => w64 (s.myTile % 64 ||| (s.myTile / 64) <<< 8)
      | 0x002 => s.me.strandId.setWidth 64
      | 0x003 => l.args
      | 0x004 => l.id.setWidth 64
      | 0x005 => s.myOt.retain
      | 0x006 => w64 (fld l.tmpl 245 240 <<< 16 ||| fld l.tmpl 237 224)
      | 0x007 => 0x00402040
      | 0x010 => s.me.vec
      | 0x011 => s.me.code
      | 0x012 => s.me.rpc
      | 0x013 => s.me.arg
      | 0x014 => if s.me.inh then 1 else 0
      | 0x018 => w64 (s.me.cyc + ((if s.cur.isCc then s.ccNow else s.now) - s.me.cycFrom))
      | 0x020 => s.me.rm.setWidth 64
      | 0x021 => s.me.aflags.setWidth 64
      | 0x022 => tl.rndseed.setWidth 64
      | 0x040 => w64 tl.deque.length
      | 0x041 => tl.dqcfg.setWidth 64
      | 0x042 => tl.dupdrop.setWidth 64
      | n => if 0x30 ≤ n ∧ n < 0x34 then Tbl.get 0 s.myCore.mbpc (n - 0x30)
        else if 0x34 ≤ n ∧ n < 0x38 then Tbl.get 0 s.myCore.mbcfg (n - 0x34)
        else if 0x50 ≤ n ∧ n < 0x58 then Tbl.get 0 tl.tcfg (n - 0x50)
        else if 0x100 ≤ n then s.ccReg (coreIx s.cur - 8192) n
        else 0
    ((n ≠ 0x21 ∨ s.cur.isTile = false ∨ s.flagsPending = false) → exec (.mfsr x) s = .next ((s.atNpc.result x.d v).finish (.mfsr x))) ∧
    (n = 0x21 → s.cur.isTile = true → s.flagsPending = true → exec (.mfsr x) s = .next s)

/-- R318, R319 with the access codes of R6. The completion statement of MTSR (the control-core registers of R203 are the last two clauses). -/
def Obligations.SpecialRegisterWrites : Prop :=
  (∀ (x : FmtI) (s : State), s.Issues (.mtsr x) → s.cur.isTile = true →
    let n := x.imm.toNat % 4096
    let v := (s.atNpc.source x.a).1
    ∃ t, exec (.mtsr x) s = .next t ∧ t.me.pc = s.me.pc + 8 ∧ t.mem = s.mem ∧ (∀ m, t.gReg m = s.gReg m) ∧
      t.me.vec = (if n = 0x10 then v &&& ~~~ 7 else s.me.vec) ∧ t.me.code = s.me.code ∧
      t.me.rpc = (if n = 0x12 then v &&& ~~~ 7 else s.me.rpc) ∧ t.me.arg = (if n = 0x13 then v else s.me.arg) ∧
      t.me.inh = (if n = 0x14 then v.getLsbD 0 else s.me.inh) ∧
      t.me.rm = (if n = 0x20 ∧ v.toNat % 8 ≤ 4 then v.setWidth 3 else s.me.rm) ∧
      t.me.aflags = (if n = 0x21 then s.me.aflags &&& ~~~ (v.setWidth 6) else s.me.aflags) ∧
      (t.tile s.myTile).rndseed = (if n = 0x22 then (if v.toNat % 2 ^ 32 = 0 then 1 else v.setWidth 32) else (s.tile s.myTile).rndseed) ∧
      (t.tile s.myTile).dqcfg = (if n = 0x41 then v.setWidth 1 else (s.tile s.myTile).dqcfg) ∧
      (t.tile s.myTile).dupdrop = (if n = 0x42 then v.setWidth 32 else (s.tile s.myTile).dupdrop) ∧
      t.myOt.retain = (if n = 0x05 then v &&& 0x1FFFFFFFF else s.myOt.retain) ∧
      (∀ j, Tbl.get 0 (t.tile s.myTile).tcfg j =
        if 0x50 ≤ n ∧ n < 0x58 ∧ j = n - 0x50 then v &&& 0x000000FF9F033F3F else Tbl.get 0 (s.tile s.myTile).tcfg j) ∧
      (∀ j, Tbl.get 0 t.myCore.mbpc j =
        if 0x30 ≤ n ∧ n < 0x34 ∧ j = n - 0x30 then v &&& 0x00FFFFFFFFFFFFF8 else Tbl.get 0 s.myCore.mbpc j) ∧
      (∀ j, Tbl.get 0 t.myCore.mbcfg j =
        if 0x34 ≤ n ∧ n < 0x38 ∧ j = n - 0x34 then v &&& 0xFFFFF007 else Tbl.get 0 s.myCore.mbcfg j)) ∧
  (∀ (x : FmtI) (s : State) (c : Nat), s.Issues (.mtsr x) → s.cur = .cc c →
    let n := x.imm.toNat % 4096
    let v := s.gReg x.a.toNat
    0x100 ≤ n → n ≠ 0x10E →
    ∃ t, exec (.mtsr x) s = .next t ∧ t.me.pc = s.me.pc + 8 ∧ t.mem = s.mem ∧ (∀ m, t.gReg m = s.gReg m) ∧
      ∀ j, 0x100 ≤ j → j ≤ 0x110 → t.ccReg c j =
        if j ≠ n ∨ n = 0x10F ∨ n = 0x110 then s.ccReg c j
        else if n = 0x104 then v &&& 0xFFFF
        else if n = 0x10C then v &&& 0x3FFFFFFFF
        else if n = 0x10D then v &&& 0x00FFFFFFFFFFF00F
        else v) ∧
  (∀ (x : FmtI) (s : State) (c : Nat), s.Issues (.mtsr x) → s.cur = .cc c → x.imm.toNat % 4096 = 0x10E → (s.cc c).orphans = [] →
    ∃ t, exec (.mtsr x) s = .next t ∧ t.me.pc = s.me.pc + 8 ∧ t.mem = s.mem ∧
      t.ccReg c 0x10E = putBits (s.ccReg c 0x10E) 0 32 (s.gReg x.a.toNat))

/-- R321, R322, R323, R325, R326, with the address of R285. `s1` is the state once the address has been translated (R109); `f` is the page's `PFMT`, none
in the scratchpad and stack windows. The completion statement of LD, LDS and LDC. -/
def Obligations.LoadResults : Prop :=
  ∀ (x : FmtM) (s s1 : State) (key : Nat) (f : Option Nat) (op : Instr) (signed consume : Bool),
    (op = .ld x ∧ signed = false ∧ consume = false ∨ op = .lds x ∧ signed = true ∧ consume = false ∨
      op = .ldc x ∧ signed = false ∧ consume = true) →
    s.Issues op →
    let ea := s.gReg x.base.toNat + (if x.idx = 0x3F then 0 else s.gReg x.idx.toNat <<< x.sc.toNat) + x.off.signExtend 64
    let n := 2 ^ x.size.toNat
    ea.toNat % n = 0 → s.ovlAt ea = none → place ea n .read s.atNpc = .ok (.key key f, s1) →
    (x.ord = 3 → hasFullBit key = true → s1.isEmpty (key / 8) = false ∧ s1.behindAny (.full (key / 8)) = false) →
    (consume = true → hasFullBit key = true) →
    let r := s1.load key n
    let v := r.1.1
    r.1.2 = false →
    let decoded : Bool := match f with
      | some 1 => n = 4
      | some 2 | some 3 => n = 2
      | some 4 | some 5 | some 7 => n = 1
      | _ => false
    let out : Word :=
      if decoded && f = some 7 then (BitVec.ofNat 8 v).signExtend 64
      else
        let raw : Word := w64 v
        let wide : BitVec 32 := match f with
          | some 2 => widen bf16 v
          | some 3 => widen fp16 v
          | some 4 => widen fp8e4 v
          | some 5 => widen fp8e5 v
          | _ => BitVec.ofNat 32 v
        if decoded then (if signed then wide.signExtend 64 else wide.setWidth 64)
        else if signed then (raw.setWidth (8 * n)).signExtend 64 else raw
    exec op s = .next (((if consume then r.2.setEmpty (key / 8) true else r.2).result x.dr out).finish op)

/-- R321, R322, R324, R325, R233, R234. The completion statement of ST; the last clause adds the decoded formats, whose bytes `storeValue` computes. Where
the address lies in the tile's own scratchpad, translation changes nothing: `OwnScratchpadResolves`. -/
def Obligations.StoreResults : Prop :=
  ∀ (x : FmtM) (s s1 : State) (key : Nat) (f : Option Nat), s.Issues (.st x) →
    let ea := s.gReg x.base.toNat + (if x.idx = 0x3F then 0 else s.gReg x.idx.toNat <<< x.sc.toNat) + x.off.signExtend 64
    let n := 2 ^ x.size.toNat
    let d := s.atNpc.source x.dr
    ea.toNat % n = 0 → s.ovlAt ea = none → place ea n .write d.2 = .ok (.key key f, s1) → key % n = 0 →
    (x.ord = 3 → hasFullBit key = true ∧ s1.isEmpty (key / 8) = true ∧ s1.behindAny (.empty (key / 8)) = false) →
    (2 ≤ x.ord.toNat → s.ownPushed = false ∧ s.ownFetch = false) →
    ∃ t, exec (.st x) s = .next t ∧ t.me.pc = s.me.pc + 8 ∧ t.isEmpty (key / 8) = false ∧ (n = 8 → t.isPoison (key / 8) = false) ∧
      (∀ j, (j < key ∨ key + n ≤ j) → t.byte j = s1.byte j) ∧ (∀ m, t.gReg m = s.gReg m) ∧
      (f = none ∨ f = some 0 ∨ elemSize f ≠ some n → Memory.read t.mem key n = d.1.toNat % 256 ^ n ∧ t.me.aflags = s.me.aflags) ∧
      (f = some 7 → n = 1 → Memory.read t.mem key 1 = (BitVec.ofInt 8 (max (-128) (min 127 d.1.toInt))).toNat ∧
        t.me.aflags = s.me.aflags ||| (if d.1.toInt < -128 ∨ 127 < d.1.toInt then flSat else 0))

/-- R98, R99, R137, R264: no translation, no ticket, no page. -/
def Obligations.OwnScratchpadResolves : Prop :=
  ∀ (s : State) (off n : Nat) (k : AccKind), s.cur.isTile = true → off < 2 ^ 20 → 0 < n →
    let a : Word := BitVec.ofNat 64 (0xFF00000000000000 + off)
    (off + n ≤ s.spadBytes s.myTile → off + n ≤ 2 ^ 20 → s.heldSpad s.myTile off n none = false → s.pushedAt (.spad s.myTile off false) n = false →
      s.elemAt s.myTile off n = false → place a n k s = .ok (.key (poolKey s.myTile off) none, s)) ∧
    (s.spadBytes s.myTile < off + n → place a n k s = .error (.trap 5 a none))

/-- R98, R99, R266, R285, R294, R323, R328, R330. (That a window's trap comes before TC_MISALIGN is the model's reading of the order of R294, assumption 13.) -/
def Obligations.AddressTraps : Prop :=
  ∀ (x : FmtM) (s : State) (op : Instr),
    op ∈ [Instr.ld x, .lds x, .ldc x, .st x, .amswap x, .amadd x, .amand x, .amor x, .amxor x, .ammin x, .ammax x, .amminu x, .ammaxu x, .amcas x] →
    s.Issues op →
    let atomic : Bool := op ∉ [Instr.ld x, .lds x, .ldc x, .st x]
    let ea := s.gReg x.base.toNat + (if x.idx = 0x3F ∨ op = .amcas x then 0 else s.gReg x.idx.toNat <<< x.sc.toNat) +
      (if atomic then (x.off.setWidth 17).signExtend 64 else x.off.signExtend 64)
    let n := 2 ^ x.size.toNat
    (∀ c, s.window ea n = .error c → exec op s = .next (s.takeTrap c ea s.me.pc)) ∧
    ((∃ w, s.window ea n = .ok w) → ea.toNat % n ≠ 0 → exec op s = .next (s.takeTrap 4 ea s.me.pc)) ∧
    (∀ s1 key f, op ≠ .st x → x.ord ≠ 3 ∨ atomic = true → op ≠ .ldc x → (atomic = true ∧ 2 ≤ x.ord.toNat → s.ownPushed = false ∧ s.ownFetch = false) → (∃ w, s.window ea n = .ok w) → ea.toNat % n = 0 → s.ovlAt ea = none →
      place ea n (if atomic then .atomic else .read) s.atNpc = .ok (.key key f, s1) → (s1.load key n).1.2 = true → s.me.hasHandler = true →
      ∃ t, exec op s = .next t ∧ t.me.code = 3 ∧ t.me.arg = ea ∧ t.me.rpc = s.me.pc ∧ t.me.pc = s.me.vec ∧ (∀ m, t.gReg m = s.gReg m) ∧
        t.mem = s1.mem)

/-- R329 (one step of the model is one step of the serialization point), with the release of R266 and R328. The completion statement of AMSWAP, AMADD, AMAND, AMOR, AMXOR, AMMIN, AMMAX, AMMINU,
AMMAXU and AMCAS. -/
def Obligations.AtomicResults : Prop :=
  ∀ (x : FmtM) (s s1 : State) (key : Nat) (f : Option Nat) (op : Instr) (fn : Nat),
    (op, fn) ∈ [(Instr.amswap x, 0), (.amadd x, 1), (.amand x, 2), (.amor x, 3), (.amxor x, 4), (.ammin x, 5), (.ammax x, 6), (.amminu x, 7),
      (.ammaxu x, 8), (.amcas x, 9)] →
    s.Issues op →
    let ea := s.gReg x.base.toNat + (if x.idx = 0x3F ∨ fn = 9 then 0 else s.gReg x.idx.toNat <<< x.sc.toNat) + (x.off.setWidth 17).signExtend 64
    let n := 2 ^ x.size.toNat
    let w := 8 * n
    ea.toNat % n = 0 → s.ovlAt ea = none → place ea n .atomic s.atNpc = .ok (.key key f, s1) → key % n = 0 → (s1.load key n).1.2 = false →
    (2 ≤ x.ord.toNat → s.ownPushed = false ∧ s.ownFetch = false) →
    let m := Memory.read s1.mem key n
    let v := (s.gReg x.dr.toNat).toNat % 2 ^ w
    let sm : Int := (BitVec.ofNat w m).toInt
    let sv : Int := (BitVec.ofNat w v).toInt
    let nv : Nat := match fn with
      | 0 => v
      | 1 => (m + v) % 2 ^ w
      | 2 => m &&& v
      | 3 => m ||| v
      | 4 => m ^^^ v
      | 5 => if sm ≤ sv then m else v
      | 6 => if sv ≤ sm then m else v
      | 7 => if m ≤ v then m else v
      | 8 => if v ≤ m then m else v
      | _ => if m = (s.gReg x.idx.toNat).toNat % 2 ^ w then v else m
    ∃ t, exec op s = .next t ∧ t.me.pc = s.me.pc + 8 ∧ Memory.read t.mem key n = nv ∧ t.isEmpty (key / 8) = false ∧
      (∀ j, (j < key ∨ key + n ≤ j) → t.byte j = s1.byte j) ∧
      (∀ r, t.gReg r = if r = x.dr.toNat then BitVec.ofNat 64 m else s.gReg r) ∧ t.me.aflags = s.me.aflags

/-- R325, R327: the strand is Blocked (R162). That a release waits for the strand's stream elements is R266 with R362, as the model reads them
(assumptions 3 and 94). -/
def Obligations.SyncAccessWaits : Prop :=
  ∀ (x : FmtM) (s s1 : State) (key : Nat) (f : Option Nat), x.ord = 3 →
    let ea := s.gReg x.base.toNat + (if x.idx = 0x3F then 0 else s.gReg x.idx.toNat <<< x.sc.toNat) + x.off.signExtend 64
    let n := 2 ^ x.size.toNat
    ea.toNat % n = 0 → s.ovlAt ea = none → hasFullBit key = true → s.cur.isTile = true →
    (∀ op ∈ [Instr.ld x, .lds x, .ldc x], s.Issues op → place ea n .read s.atNpc = .ok (.key key f, s1) → s1.isEmpty (key / 8) = true →
      ∃ t, exec op s = .next t ∧ t.me = { s.me with st := .blocked, await := .full (key / 8), waitAt := some op } ∧
        (s.myKey, Await.full (key / 8)) ∈ t.waiters ∧ t.mem = s1.mem) ∧
    (s.Issues (.st x) → (s.ownPushed = true ∨ s.ownFetch = true) → (∃ w, s.window ea n = .ok w) →
      ∃ t, exec (.st x) s = .next t ∧ t.me = { s.me with st := .blocked, await := .stream, waitAt := some (.st x) } ∧ t.mem = s.mem ∧ t.myOt = s.myOt) ∧
    (s.Issues (.st x) → s.ownPushed = false → s.ownFetch = false →
      place ea n .write (s.atNpc.source x.dr).2 = .ok (.key key f, s1) → s1.isEmpty (key / 8) = false →
      ∃ t, exec (.st x) s = .next t ∧ t.me = { s.me with st := .blocked, await := .empty (key / 8), waitAt := some (.st x) } ∧
        (s.myKey, Await.empty (key / 8)) ∈ t.waiters ∧ t.mem = s1.mem ∧ t.myOt = s.myOt)

/-- R304 with the record of R65. The completion statement of LREC. -/
def Obligations.BufferRecordRead : Prop :=
  ∀ (x : FmtI) (s s1 : State) (w0 w1 : Word), s.Issues (.lrec x) →
    let i := x.imm.toNat % 65536
    let pool : Word := w64 (fld s.myLaunch.tmpl 191 128)
    (i < fld s.myLaunch.tmpl 223 192 → readWords (pool + w64 (16 * i)) 2 s.atNpc = .ok ([w0, w1], s1) →
      exec (.lrec x) s = .next ((s1.result x.d (if x.it = 1 then w64 (w1.toNat % 2 ^ 32)
        else if w1.toNat / 2 ^ 60 = 1 then 0xFF00000000000000 + w0 else w0)).finish (.lrec x))) ∧
    (fld s.myLaunch.tmpl 223 192 ≤ i → exec (.lrec x) s = .next (s.takeTrap 1 (encode (.lrec x)) s.me.pc))

/-- R143 to R146, R332 to R334. `s1` is the state once the address is resolved and both words are checked. That `binit` and a reload also
saturate is the model's reading (assumption 74). The completion statement of BINIT, BARRIVE, BEXPECT and BWAIT. -/
def Obligations.BarrierOperations : Prop :=
  ∀ (x : FmtR) (s s1 : State) (k : Nat), k % 16 = 0 → barPlace (s.gReg x.b.toNat) .write s.atNpc = .ok (k, s1) →
    let A := (s.gReg x.a.toNat).toNat
    let C := (s.gReg x.c.toNat).toNat
    let b := s1.bar k
    let still : Prop := s.ownPushed = false ∧ s.ownFetch = false
    let wrap (v : Bar) : Bar := if v.sectPend ≤ 2 ^ 35 - 1 then v else { v with sectPend := 2 ^ 35 - 1, err := v.err ||| 2 }
    let reload (v : Bar) : Bar :=
      if v.arrivePend = 0 ∧ v.sectPend = 0 then
        wrap { v with phase := (v.phase + 1) % 16, arrivePend := v.arriveInit, sectPend := v.sectInit }
      else v
    let elsewhere (t : State) : Prop := (∀ j, (j < k ∨ k + 16 ≤ j) → t.byte j = s1.byte j) ∧ ∀ m, t.gReg m = s.gReg m
    (s.Issues (.binit x) → A < 2 ^ 20 → C < 2 ^ 36 → ∃ t, exec (.binit x) s = .next t ∧ t.me.pc = s.me.pc + 8 ∧ elsewhere t ∧
      t.bar k = wrap { phase := 0, arrivePend := A, err := 0, sectPend := C, arriveInit := A, sectInit := C, waiters := 0 }) ∧
    (s.Issues (.barrive x) → still → 1 ≤ A → A < 2 ^ 20 → A ≤ b.arrivePend → ∃ t, exec (.barrive x) s = .next t ∧ t.me.pc = s.me.pc + 8 ∧ elsewhere t ∧
      t.bar k = reload { b with arrivePend := b.arrivePend - A }) ∧
    (s.Issues (.barrive x) → still → 1 ≤ A → A < 2 ^ 20 → b.arrivePend < A → s.me.hasHandler = true → ∃ t, exec (.barrive x) s = .next t ∧ elsewhere t ∧
      t.me.code = 6 ∧ t.me.arg = s.gReg x.b.toNat ∧ t.me.rpc = s.me.pc ∧ t.bar k = { b with err := b.err ||| 1 }) ∧
    (s.Issues (.bexpect x) → A < 2 ^ 32 → ∃ t, exec (.bexpect x) s = .next t ∧ t.me.pc = s.me.pc + 8 ∧ elsewhere t ∧
      t.bar k = reload (wrap { b with sectPend := b.sectPend + A })) ∧
    (s.Issues (.bwait x) → (∀ j d, s.me.await ≠ .barrier j d) → s.cur.isTile = true →
      let differs := b.phase ≠ A % 16
      ((differs ∨ C = 0) → ∃ t, exec (.bwait x) s = .next t ∧ t.me.pc = s.me.pc + 8 ∧ elsewhere t ∧
        Tbl.get 0 t.myCore.k x.d.toNat = (if differs then BitVec.allOnes 64 else 0) ∧ (t.bar k).phase = b.phase ∧
        (t.bar k).waiters = min 255 (b.waiters + 1) - 1) ∧
      (¬ differs → C ≠ 0 → ∃ t, exec (.bwait x) s = .next t ∧ t.me.st = .blocked ∧ t.me.pc = s.me.pc ∧
        t.me.await = .barrier k (if C = 2 ^ 64 - 1 then none else some (s.now + C)) ∧ (t.bar k).waiters = min 255 (b.waiters + 1)))

/-- R148, R149, R266, R335. (That a `TAIL` or `HEAD` beyond the ring, which only a breach of R148 leaves, names its remainder is the model's choice,
assumption 96.) The completion statement of RCLAIM, RCOMMIT, RTAKE and RGIVE. -/
def Obligations.RingOperations : Prop :=
  ∀ (x : FmtR) (s s1 : State) (k : Nat), k % 16 = 0 → ringPlace (s.gReg x.a.toNat) s.atNpc = .ok (k, s1) →
    let r := s1.ring k
    let st := s1.ringSt k
    let address (i : Nat) : Word := BitVec.ofNat 64 (0xFF00000000000000 + r.base + i * 2 ^ r.slotlg)
    let elsewhere (t : State) : Prop := ∀ j, (j < k ∨ k + 16 ≤ j) → t.byte j = s1.byte j
    let still : Prop := s.ownPushed = false ∧ s.ownFetch = false
    (s.Issues (.rclaim x) → r.free ≠ 0 → st.waiting = [] → ∃ t, exec (.rclaim x) s = .next t ∧ t.me.pc = s.me.pc + 8 ∧ elsewhere t ∧
      t.ring k = { r with free := r.free - 1, tail := (r.tail + 1) % r.nslots } ∧ (t.ringSt k).claims = st.claims ++ [(r.tail % r.nslots, false)] ∧
      ∀ m, t.gReg m = if m = x.d.toNat then address (r.tail % r.nslots) else s.gReg m) ∧
    (s.Issues (.rclaim x) → r.free = 0 → s.cur.isTile = true → ∃ t, exec (.rclaim x) s = .next t ∧ t.me.st = .blocked ∧ t.me.pc = s.me.pc ∧
      t.mem = s1.mem ∧ ∀ m, t.gReg m = s.gReg m) ∧
    (∀ i rest, s.Issues (.rcommit x) → still → st.claims = (i, false) :: rest → (∀ e ∈ rest, e.2 = false ∧ e.1 ≠ i) → r.filled + 1 < 2 ^ 16 →
      s.gReg x.b.toNat = address i → ∃ t, exec (.rcommit x) s = .next t ∧ t.me.pc = s.me.pc + 8 ∧ elsewhere t ∧
      t.ring k = { r with filled := r.filled + 1 } ∧ (t.ringSt k).claims = rest) ∧
    (s.Issues (.rcommit x) → still → (∀ e ∈ st.claims, e.2 = true ∨ s.gReg x.b.toNat ≠ address e.1) → exec (.rcommit x) s = .next (s1.finish (.rcommit x))) ∧
    (s.Issues (.rtake x) → r.filled ≠ 0 → s1.behindAny (.ring (2 * k + 1)) = false → ∃ t, exec (.rtake x) s = .next t ∧ t.me.pc = s.me.pc + 8 ∧
      elsewhere t ∧ t.ring k = { r with filled := r.filled - 1, head := (r.head + 1) % r.nslots } ∧
      ∀ m, t.gReg m = if m = x.d.toNat then address (r.head % r.nslots) else s.gReg m) ∧
    (s.Issues (.rtake x) → r.filled = 0 → s.cur.isTile = true → ∃ t, exec (.rtake x) s = .next t ∧ t.me.st = .blocked ∧ t.me.pc = s.me.pc ∧
      t.mem = s1.mem ∧ ∀ m, t.gReg m = s.gReg m) ∧
    (s.Issues (.rgive x) → still → r.free + r.filled < r.nslots → ∃ t, exec (.rgive x) s = .next t ∧ t.me.pc = s.me.pc + 8 ∧ elsewhere t ∧
      t.ring k = { r with free := r.free + 1 }) ∧
    (s.Issues (.rgive x) → still → r.nslots ≤ r.free + r.filled → exec (.rgive x) s = .next (s1.finish (.rgive x)))

/-- R200, R239, R266, R331, R336, R226 and R317. The completion statement of FENCE, QSTAT and ICINV. The model performs a strand's other accesses in program
order at once, so a fence has nothing further to order (assumption 3). -/
def Obligations.FenceInvalidateStatus : Prop :=
  (
    (∀ (x : FmtR) (s : State), s.Issues (.fence x) →
      let covers (t : Nat) : Bool := match x.dt.toNat / 4 with
        | 1 => false
        | 2 => s.myTile = t
        | 3 => tileDie s.myTile = tileDie t
        | _ => true
      let pending : Bool := s.elems.any fun e => e.2.ctx = some s.myKey && covers e.2.toTile
      let waits : Bool := if x.dt.toNat % 4 = 1 then s.ownFetch else s.ownPushed || s.ownFetch
      (waits = false → (s.cur.isTile = false ∨ pending = false) → exec (.fence x) s = .next (s.atNpc.finish (.fence x))) ∧
      ((waits = true ∨ (s.cur.isTile = true ∧ pending = true)) → ∃ t, exec (.fence x) s = .next t ∧ t.mem = s.mem ∧
        t.me = { s.me with st := .blocked, await := if waits then .stream else .elements, waitAt := some (.fence x) })) ∧
    (∀ (x : FmtR) (s : State), s.Issues (.qstat x) →
      let q := x.a.toNat - 48
      let depth := if q < 4 then 16 else if q < 6 then 8 else 4
      let held := if q < 6 then (Tbl.get [] s.myOt.q q).length else (Tbl.get [] s.myOt.qv q).length
      let writer := if q = 4 ∨ q = 5 then Core.c s.myTile else Core.a s.myTile
      let reader := if q = 4 ∨ q = 5 then Core.a s.myTile else Core.c s.myTile
      let blocked (c : Core) : Bool := s.waiters.any fun e => e.2 = .queue q && e.1 / 32 = coreIx c && (s.ctx e.1).launch = s.me.launch
      exec (.qstat x) s = .next ((s.atNpc.setG x.d.toNat (BitVec.ofNat 64 (held + (depth - held) * 256 +
        ((if blocked writer then 2 ^ 17 else 0) + (if blocked reader then 2 ^ 16 else 0))))).finish (.qstat x)))) ∧
  (
    ∀ (x : FmtR) (s : State), s.Issues (.icinv x) → s.Performed →
      let a := (s.gReg x.a.toNat).toNat
      let n := (s.gReg x.b.toNat).toNat
      ∃ t, exec (.icinv x) s = .next t ∧ t.me.pc = s.me.pc + 8 ∧ t.mem = s.mem ∧ (∀ m, t.gReg m = s.gReg m) ∧
        (∀ e : ILine, e ∈ t.myCore.icache ↔
          e ∈ s.myCore.icache ∧ (n = 0 ∨ (n < 2 ^ 40 ∧ (e.line < a / 64 ∨ (a + n - 1) / 64 < e.line)))) ∧
        (s.cur.isTile = true → t = { s with ctxs := t.ctxs, cores := t.cores, waiters := t.waiters } ∧
          t.myCore = { s.myCore with icache := t.myCore.icache, fdead := t.myCore.fdead }))

/-- R164, R165, R194, R294, R337, R338, R339. (`Begins`: an illegal control word is found before a dead register.) The completion statement of SENDM, MBARM and SENDK. -/
def Obligations.MessageSends : Prop :=
  (∀ (x : FmtR) (s : State), s.Issues (.sendm x) →
    let a := s.gReg x.a.toNat
    let c := s.gReg x.c.toNat
    let n := c.toNat / 2 ^ 16 % 16
    let target := a.toNat / 2 ^ 20 % 4096
    let legal : Prop := c.toNat / 2 ^ 20 = 0 ∧ c.toNat / 2 ^ 9 % 2 ^ 7 = 0 ∧ c.toNat / 4 % 2 ^ 6 = 0 ∧ n ≤ 14
    let there : Prop := a.toNat / 2 ^ 32 = 0xFE000000 ∧ s.myLaunch.covers target = true
    (legal → (∀ i, i < n → s.me.live.getLsbD i = true) → there → s.ownPushed = false → s.ownFetch = false → s.refusals s.myTile < 16 →
      ∃ t m, exec (.sendm x) s = .next t ∧ t.me.pc = s.me.pc + 8 ∧ Tbl.find t.msgs s.fresh = some m ∧ m.kind = .task ∧ m.launch = s.me.launch ∧
        m.fromTile = s.myTile ∧ m.toTile = target ∧ m.toA = !(c.getLsbD 8) ∧ m.mbox = c.toNat % 4 ∧ m.payload = (List.range n).map s.gReg ∧
        t.mem = s.mem) ∧
    (legal → ∀ i, i < n → s.me.live.getLsbD i = false → (∀ j, j < i → s.me.live.getLsbD j = true) →
      exec (.sendm x) s = .next (s.takeTrap 2 (BitVec.ofNat 64 i) s.me.pc)) ∧
    (legal → (∀ i, i < n → s.me.live.getLsbD i = true) → ¬ there → exec (.sendm x) s = .next (s.takeTrap 5 a s.me.pc)) ∧
    (legal → (∀ i, i < n → s.me.live.getLsbD i = true) → there → s.ownPushed = false → s.ownFetch = false → 16 ≤ s.refusals s.myTile → s.cur.isTile = true →
      ∃ t, exec (.sendm x) s = .next t ∧ t.me = { s.me with st := .blocked, await := .refusals, waitAt := some (.sendm x) } ∧ t.msgs = s.msgs)) ∧
  (∀ (x : FmtR) (s : State), s.Begins (.sendm x) → x.c.toNat < 16 → s.me.live.getLsbD x.c.toNat = true →
    let c := (s.gReg x.c.toNat).toNat
    (c / 2 ^ 20 ≠ 0 ∨ c / 2 ^ 9 % 2 ^ 7 ≠ 0 ∨ c / 4 % 2 ^ 6 ≠ 0 ∨ 14 < c / 2 ^ 16 % 16) →
    exec (.sendm x) s = .next (s.takeTrap 1 (encode (.sendm x)) s.me.pc)) ∧
  (∀ (x : FmtR) (s : State), s.Issues (.mbarm x) →
    let a := s.gReg x.a.toNat
    let b := s.gReg x.b.toNat
    let n := x.d.toNat % 4
    (a.toNat % 8 = 0 → a.toNat / 2 ^ 56 = 0 → b.toNat / 2 ^ 12 % 16 = 0 → ∃ t, exec (.mbarm x) s = .next t ∧ t.me.pc = s.me.pc + 8 ∧
      t.mem = s.mem ∧ (∀ j, Tbl.get 0 t.myCore.mbpc j = if j = n then a else Tbl.get 0 s.myCore.mbpc j) ∧
      (∀ j, Tbl.get 0 t.myCore.mbcfg j = if j = n then b &&& 0xFFFFF007 else Tbl.get 0 s.myCore.mbcfg j)) ∧
    (a.toNat % 8 ≠ 0 → exec (.mbarm x) s = .next (s.takeTrap 4 a s.me.pc)) ∧
    (a.toNat % 8 = 0 → a.toNat / 2 ^ 56 ≠ 0 → exec (.mbarm x) s = .next (s.takeTrap 5 a s.me.pc)) ∧
    (a.toNat % 8 = 0 → a.toNat / 2 ^ 56 = 0 → b.toNat / 2 ^ 12 % 16 ≠ 0 → exec (.mbarm x) s = .next (s.takeTrap 4 b s.me.pc))) ∧
  (∀ (x : FmtR) (s : State) (g : Subgroup), s.Issues (.sendk x) → s.NoStream x.a → s.NoStream x.b →
    let ks := s.atNpc.vsource x.a
    let vs := ks.2.vsource x.b
    let c := (vs.2.source x.c).1
    let act := s.activeLanes x.pk x.pn
    c.toNat / 2 ^ 30 = 0 → subgroupOf s.myLaunch s.myTile (c.toNat / 2 ^ 24 % 64) = some g → c.toNat % 2 ^ 20 % 8 = 0 →
    (act &&& ks.1.poison = 0 → ∃ t, exec (.sendk x) s = .next t ∧ t.me.pc = s.me.pc + 8 ∧ t.mem = s.mem ∧
      ∀ l, l < 64 → act.getLsbD l = true → ∃ n e, Tbl.find t.elems n = some e ∧ e.key = ks.1.at l ∧ e.poison = vs.1.bad l ∧
        e.val = (if x.dt = 1 then (vs.1.at l).signExtend 64 else (vs.1.at l).setWidth 64) ∧ e.float = decide (x.dt = 9) ∧
        e.base = c.toNat % 2 ^ 20 ∧ e.nb = 2 ^ (c.toNat / 2 ^ 20 % 16) ∧ e.launch = s.me.launch ∧
        e.toTile = g.tileOf (if g.wl + g.hl = 0 then 0 else ((ks.1.at l).toNat * 0x9E3779B97F4A7C15 % 2 ^ 64) / 2 ^ (64 - (g.wl + g.hl)))) ∧
    (∀ l, l < 64 → (act &&& ks.1.poison).getLsbD l = true → (∀ j, j < l → (act &&& ks.1.poison).getLsbD j = false) → s.me.hasHandler = true →
      ∃ t, exec (.sendk x) s = .next t ∧ t.me.code = 3 ∧ t.me.arg = BitVec.ofNat 64 l ∧ t.me.rpc = s.me.pc))

/-- R340, R341, R343, R344, R345, R254, R253, R224, R225. The completion statement of VADD, VSUB, VMUL, VFMA, VMIN, VMAX, VDIV, VAND, VOR, VXOR, VSHL, VSHR and VSRA.
(`Dispatches` rests on assumptions 26 and 97.) `p` is the rounding context in which the lane is rounded; only the stochastic mode uses it. (That a float minimum or maximum is rounded under the mode
when it is scaled is the model's reading of R345, assumption 15.) -/
def Obligations.VectorLaneResults : Prop :=
  ∀ (op : FmtR → Instr) (fn : Nat), (op, fn) ∈ [(Instr.vadd, 0), (.vsub, 1), (.vmul, 2), (.vfma, 3), (.vmin, 4), (.vmax, 5), (.vdiv, 6), (.vand, 7),
      (.vor, 8), (.vxor, 9), (.vshl, 10), (.vshr, 11), (.vsra, 12)] →
  ∀ (x : FmtR) (s : State), s.Issues (op x) → s.Anew → s.NoStream x.a → s.NoStream x.b → s.NoStream x.c → s.NoStream x.d →
    let A := (s.atIssue (op x)).vsource x.a
    let B := A.2.vsource x.b
    let C := B.2.vsource x.c
    let src := if fn = 3 then C.2 else B.2
    let act := s.activeLanes x.pk x.pn
    let bad := A.1.poison ||| B.1.poison ||| (if fn = 3 then C.1.poison else 0)
    let m := if (fn = 4 ∨ fn = 5) ∧ x.scale = 0 then .rne else roundOf x.rm s
    let scale := x.scale.toInt
    let signed : Bool := x.dt = 3
    let value (a b c v : BitVec 32) : Prop :=
      let ia : Int := if signed then a.toInt else a.toNat
      let ib : Int := if signed then b.toInt else b.toNat
      let ic : Int := if signed then c.toInt else c.toNat
      if 7 ≤ fn then
        v = (match fn with
          | 7 => a &&& b
          | 8 => a ||| b
          | 9 => a ^^^ b
          | 10 => if 32 ≤ b.toNat then 0 else BitVec.ofNat 32 (a.toNat * 2 ^ b.toNat)
          | 11 => if 32 ≤ b.toNat then 0 else BitVec.ofNat 32 (a.toNat / 2 ^ b.toNat)
          | _ => BitVec.ofInt 32 (a.toInt / 2 ^ min b.toNat 31))
      else if x.dt = 3 ∨ x.dt = 4 then
        let exact : Int := match fn with
          | 0 => ia + ib
          | 1 => ia - ib
          | 2 => ia * ib
          | 3 => ia * ib + ic
          | 4 => if ia ≤ ib then ia else ib
          | 5 => if ia ≤ ib then ib else ia
          | _ => if signed ∧ ia = -2 ^ 31 ∧ ib = -1 then -2 ^ 31 else ia.tdiv ib
        let y : Int := if 0 ≤ scale then exact * 2 ^ scale.toNat else exact / 2 ^ (-scale).toNat
        let lo : Int := if signed then -2 ^ 31 else 0
        let hi : Int := if signed then 2 ^ 31 - 1 else 2 ^ 32 - 1
        let wrapped : Int := if signed then (BitVec.ofInt 32 y).toInt else (BitVec.ofInt 32 y).toNat
        v = (if fn = 6 ∧ b = 0 then 0xFFFFFFFF else BitVec.ofInt 32 (match x.clamp.toNat with
          | 0 => y
          | 1 => max 0 (min 1 wrapped)
          | 2 => max (-1) (min 1 wrapped)
          | _ => max lo (min hi y)))
      else
        let exact (a b c : Ex) : Ex := match fn with
          | 0 => (a.add m b).1
          | 1 => (a.add m b.neg).1
          | 2 => (a.mul b).1
          | 3 => ((a.mul b).1.add m c).1
          | 4 => a.minmax false b
          | 5 => a.minmax true b
          | _ => (a.div b).1
        if x.dt = 9 then
          ∃ p, v = BitVec.ofNat 32 (writeFloat fp32 m scale x.clamp.toNat (exact (fp32.decode a.toNat) (fp32.decode b.toNat) (fp32.decode c.toNat)) p).1
        else
          ∃ p q, v = BitVec.ofNat 32
            ((writeFloat bf16 m scale x.clamp.toNat (exact (bf16.decode (a.toNat % 65536)) (bf16.decode (b.toNat % 65536)) (bf16.decode (c.toNat % 65536))) p).1 +
              65536 * (writeFloat bf16 m scale x.clamp.toNat (exact (bf16.decode (a.toNat / 65536)) (bf16.decode (b.toNat / 65536))
                (bf16.decode (c.toNat / 65536))) q).1)
    let o := s.captured (op x) (.f (x.d.toNat - 16)) (A.1 :: B.1 :: (if fn = 3 then [C.1] else [])) act 0
    s.Dispatches (op x) o src ∧
    ∀ p : State, ∃ v, p.Gives s.myTile o act v ∧ ∀ l, l < 64 → act.getLsbD l = true → v.bad l = bad.getLsbD l ∧ (bad.getLsbD l = false →
      value (laneMod x.dt.toNat x.ma (A.1.at l)) (laneMod x.dt.toNat x.mb (B.1.at l)) (laneMod x.dt.toNat x.mc (C.1.at l)) (v.at l))

/-- R346, R348. (The strand's turn and `Dispatches` rest on assumptions 26 and 97.) The completion statement of VCEQ, VCNE, VCLT, VCLE, KAND, KOR, KXOR and KNOT. -/
def Obligations.VectorComparesAndPredicates : Prop :=
  (∀ (op : FmtR → Instr) (fn : Nat), (op, fn) ∈ [(Instr.vceq, 0), (.vcne, 1), (.vclt, 2), (.vcle, 3)] →
    ∀ (x : FmtR) (s : State), s.Issues (op x) → s.Anew → s.NoStream x.a → s.NoStream x.b →
      let A := (s.atIssue (op x)).vsource x.a
      let B := A.2.vsource x.b
      let act := s.activeLanes x.pk x.pn
      let bad := (A.1.poison ||| B.1.poison) &&& act
      let a (l : Nat) := laneMod x.dt.toNat x.ma (A.1.at l)
      let b (l : Nat) := laneMod x.dt.toNat x.mb (B.1.at l)
      let order (l : Nat) : Option Ordering :=
        if x.dt = 9 then (fp32.decode (a l).toNat).cmp (fp32.decode (b l).toNat)
        else if x.dt = 3 then some (compare (a l).toInt (b l).toInt) else some (compare (a l).toNat (b l).toNat)
      let yes (l : Nat) : Bool := match fn with
        | 0 => order l = some .eq
        | 1 => order l ≠ some .eq
        | 2 => order l = some .lt
        | _ => order l = some .lt || order l = some .eq
      let o := s.captured (op x) (.k x.d.toNat) [A.1, B.1] act 0
      (bad = 0 → s.Dispatches (op x) o B.2 ∧ ∀ (p : State) (c u : Nat), ∃ w, (p.vecPerform s.myTile c u o).2 = p.setKOn (.c s.myTile) x.d.toNat w ∧
        ∀ l, l < 64 → w.getLsbD l = (act.getLsbD l && yes l)) ∧
      (∀ n, n < 64 → bad.getLsbD n = true → (∀ j, j < n → bad.getLsbD j = false) → s.me.hasHandler = true → s.VecTurn → ∃ t, exec (op x) s = .next t ∧
        t.me.code = 3 ∧ t.me.arg = BitVec.ofNat 64 n ∧ t.me.rpc = s.me.pc ∧
        ∀ l, l < 64 → (Tbl.get 0 t.myCore.k x.d.toNat).getLsbD l = (act.getLsbD l && !bad.getLsbD l && yes l))) ∧
  (∀ (x : FmtR) (s : State),
    let a : Word := if x.a.toNat = 0 then BitVec.allOnes 64 else Tbl.get 0 s.myCore.k x.a.toNat
    let b : Word := if x.b.toNat = 0 then BitVec.allOnes 64 else Tbl.get 0 s.myCore.k x.b.toNat
    let writes (op : Instr) (v : Word) : Prop := s.Issues op → exec op s = .next ((s.atNpc.setK x.d.toNat v).finish op)
    writes (.kand x) (a &&& b) ∧ writes (.kor x) (a ||| b) ∧ writes (.kxor x) (a ^^^ b) ∧ writes (.knot x) (~~~ a))

/-- R347, R352, R354, for fields that name no bound stream. (`Dispatches` rests on assumptions 26 and 97.) The completion statement of VSEL, VPERM, VBCAST, VINS, VEXT and VMOV. -/
def Obligations.VectorMoves : Prop :=
  ∀ (x : FmtR) (s : State),
    let act := s.activeLanes x.pk x.pn
    let A (i : Instr) := (s.atIssue i).vsource x.a
    let B (i : Instr) := (A i).2.vsource x.b
    let S (i : Instr) := (s.atIssue i).source x.a
    (s.Issues (.vsel x) → s.Anew → s.NoStream x.a → s.NoStream x.b → s.NoStream x.d →
      let i := Instr.vsel x
      let o := s.captured i (.f (x.d.toNat - 16)) [(A i).1, (B i).1] act (s.kReg x.c.toNat)
      s.Dispatches i o (B i).2 ∧ ∀ p : State, ∃ v, p.Gives s.myTile o act v ∧ ∀ l, act.getLsbD l = true → l < 64 → (v.at l, v.bad l) =
        if (s.kReg x.c.toNat).getLsbD l then ((A i).1.at l, (A i).1.bad l) else ((B i).1.at l, (B i).1.bad l)) ∧
    (s.Issues (.vperm x) → s.Anew → s.NoStream x.a → s.NoStream x.b → s.NoStream x.d →
      let i := Instr.vperm x
      let o := s.captured i (.f (x.d.toNat - 16)) [(A i).1, (B i).1] act 0
      s.Dispatches i o (B i).2 ∧ ∀ p : State, ∃ v, p.Gives s.myTile o act v ∧ ∀ l, act.getLsbD l = true → l < 64 → (v.at l, v.bad l) =
        if (B i).1.bad l then (0, true) else ((A i).1.at (((B i).1.at l).toNat % 64), (A i).1.bad (((B i).1.at l).toNat % 64))) ∧
    (s.Issues (.vbcast x) → s.NoStream x.d → ∃ v,
      let i := Instr.vbcast x
      exec i s = .next (((S i).2.vresult x.d act v).finish i) ∧ ∀ l, l < 64 → v.at l = (S i).1.setWidth 32 ∧ v.bad l = false) ∧
    (s.Issues (.vins x) → s.NoStream x.d →
      let i := Instr.vins x
      let I := (S i).2.source x.b
      ∃ v, exec i s = .next ((I.2.vresult x.d (BitVec.twoPow 64 (I.1.toNat % 64)) v).finish i) ∧
        ∀ l, l < 64 → v.at l = (S i).1.setWidth 32 ∧ v.bad l = false) ∧
    (s.Issues (.vext x) → s.NoStream x.a →
      let i := Instr.vext x
      let I := (A i).2.source x.b
      let l := I.1.toNat % 64
      ((A i).1.bad l = false → exec i s = .next ((I.2.result x.d (((A i).1.at l).setWidth 64)).finish i)) ∧
      ((A i).1.bad l = true → exec i s = .next (s.takeTrap 3 (BitVec.ofNat 64 l) s.me.pc))) ∧
    (s.Issues (.vmov x) → s.NoStream x.a → s.NoStream x.d →
      exec (.vmov x) s = .next (((A (.vmov x)).2.vresult x.d act (A (.vmov x)).1).finish (.vmov x)))

/-- R349, R350, R351, R355, R250, R254. (`Dispatches` rests on assumptions 26 and 97.) The completion statement of VEXP2, VLOG2, VRCP, VRSQRT, VSQRT and VCVT. -/
def Obligations.VectorFunctionsAndConversions : Prop :=
  (∀ (op : FmtR → Instr) (f : Ex → Ex × BitVec 6),
    (op, f) ∈ [(Instr.vexp2, Ex.exp2), (.vlog2, Ex.log2), (.vrcp, Ex.rcp), (.vrsqrt, Ex.rsqrt), (.vsqrt, Ex.sqrt)] →
    ∀ (x : FmtR) (s : State), s.Issues (op x) → s.Anew → s.NoStream x.a → s.NoStream x.d →
      let A := (s.atIssue (op x)).vsource x.a
      let act := s.activeLanes x.pk x.pn
      let m := roundOf x.rm s
      let o := s.captured (op x) (.f (x.d.toNat - 16)) [A.1] act 0
      s.Dispatches (op x) o A.2 ∧ ∀ p : State, ∃ v, p.Gives s.myTile o act v ∧
        ∀ l, l < 64 → act.getLsbD l = true → v.bad l = A.1.bad l ∧ (A.1.bad l = false →
          let a := laneMod x.dt.toNat x.ma (A.1.at l)
          if x.dt = 9 then ∃ p, v.at l = BitVec.ofNat 32 (writeFloat fp32 m x.scale.toInt x.clamp.toNat (f (fp32.decode a.toNat)).1 p).1
          else ∃ p q, v.at l = BitVec.ofNat 32 ((writeFloat bf16 m x.scale.toInt x.clamp.toNat (f (bf16.decode (a.toNat % 65536))).1 p).1 +
            65536 * (writeFloat bf16 m x.scale.toInt x.clamp.toNat (f (bf16.decode (a.toNat / 65536))).1 q).1))) ∧
  (∀ (x : FmtR) (s : State), s.Issues (.vcvt x) → s.Anew → s.NoStream x.a → s.NoStream x.d →
    let A := (s.atIssue (.vcvt x)).vsource x.a
    let act := s.activeLanes x.pk x.pn
    let m := roundOf x.rm s
    let from_ := x.b.toNat
    let to_ := x.dt.toNat
    let ctl := if blockType from_ || blockType to_ then s.gReg x.c.toNat else 0
    let base := ctl.toNat % 256
    let value (l : Nat) : Ex := cvtDecode from_ base x.ma (A.1.at l)
    let o (src : List VReg) := s.captured (.vcvt x) (.f (x.d.toNat - 16)) src act ctl
    (to_ ≠ 15 → blockType to_ = false → s.Dispatches (.vcvt x) (o [A.1]) A.2 ∧ ∀ p : State, ∃ v, p.Gives s.myTile (o [A.1]) act v ∧
      ∀ l, l < 64 → act.getLsbD l = true → v.bad l = A.1.bad l ∧
        (A.1.bad l = false → ∃ q, v.at l = (cvtEncode to_ m x.scale.toInt x.clamp.toNat (value l) q).1)) ∧
    (to_ = 15 → s.NoStream x.c →
      let C := A.2.vsource x.c
      s.Dispatches (.vcvt x) (o [A.1, C.1]) C.2 ∧ ∀ p : State, ∃ v, p.Gives s.myTile (o [A.1, C.1]) act v ∧
      ∀ l, l < 64 → act.getLsbD l = true → v.bad l = (A.1.bad l || C.1.bad l) ∧
        (A.1.bad l = false → C.1.bad l = false → ∃ q r, v.at l = (cvtEncode 10 m x.scale.toInt x.clamp.toNat (value l) q).1 |||
          (cvtEncode 10 m x.scale.toInt x.clamp.toNat (cvtDecode from_ base 0 (C.1.at l)) r).1 <<< 16)) ∧
    (blockType to_ = true → s.Dispatches (.vcvt x) (o [A.1]) A.2 ∧ ∀ p : State, ∃ q, p.Gives s.myTile (o [A.1]) act
      (cvtBlocks (if to_ = 14 then 0 else to_ - 14) (if ctl.getLsbD 8 then 32 else 16) base m act A.1.poison
        (fun l => ((value l).scale x.scale.toInt).clamp x.clamp.toNat) q).1))

/-- R353, R261, R238. (`Dispatches` rests on assumptions 26 and 97.) The completion statement of VREDSUM, VREDMAX, VREDMIN and VSCAN. -/
def Obligations.VectorReductions : Prop :=
  ∀ (x : FmtR) (s : State), 1 ≤ s.me.vl → s.me.vl ≤ 64 → s.Anew → s.NoStream x.a → s.NoStream x.d →
    let A := s.atNpc.vsource x.a
    let K (i : Instr) := ((s.atIssue i).vsource x.a).2
    let act := s.activeLanes x.pk x.pn
    let a (l : Nat) := laneMod x.dt.toNat x.ma (A.1.at l)
    let lanes := (List.range s.me.vl).filter fun l => act.getLsbD l
    let poisoned := ∃ l ∈ lanes, A.1.bad l = true
    let toInt (v : BitVec 32) : Int := if x.dt = 3 then v.toInt else v.toNat
    let o (op : Instr) := s.captured op (.f (x.d.toNat - 16)) [A.1] act 0
    let reduces (op : Instr) (P : BitVec 32 → Prop) : Prop := s.Issues op → s.Dispatches op (o op) (K op) ∧ ∀ p : State, ∃ v,
      p.Gives s.myTile (o op) 1 v ∧ (v.bad 0 = true ↔ poisoned) ∧ (¬ poisoned → P (v.at 0))
    ((x.dt = 3 ∨ x.dt = 4) →
      reduces (.vredsum x) (fun r => r = (lanes.map a).sum) ∧
      reduces (.vredmax x) (fun r => (∀ l ∈ lanes, toInt (a l) ≤ toInt r) ∧ (r = (if x.dt = 3 then 0x80000000 else 0) ∨ ∃ l ∈ lanes, r = a l)) ∧
      reduces (.vredmin x) (fun r => (∀ l ∈ lanes, toInt r ≤ toInt (a l)) ∧
        (r = (if x.dt = 3 then 0x7FFFFFFF else 0xFFFFFFFF) ∨ ∃ l ∈ lanes, r = a l)) ∧
      (s.Issues (.vscan x) → s.Dispatches (.vscan x) (o (.vscan x)) (K (.vscan x)) ∧ ∀ p : State, ∃ v, p.Gives s.myTile (o (.vscan x)) act v ∧
        ∀ l ∈ lanes, (v.bad l = true ↔ ∃ j ∈ lanes, j ≤ l ∧ A.1.bad j = true) ∧
          (v.bad l = false → v.at l = ((lanes.filter fun j => j ≤ l).map a).sum))) ∧
    (x.dt = 9 →
      let tree2 (f : BitVec 32 → BitVec 32 → Fp → BitVec 32 × Fp) (id r : BitVec 32) : Prop :=
        ∃ p, r = ((tree f 6 ((List.range s.me.vl).map fun l => if act.getLsbD l then a l else id) p).1).getD 0 id
      reduces (.vredsum x) (tree2 (addF32 (roundOf x.rm s)) 0x80000000) ∧
      reduces (.vredmax x) (tree2 (lanePick x.dt true .rne) 0xFF800000) ∧
      reduces (.vredmin x) (tree2 (lanePick x.dt false .rne) 0x7F800000) ∧
      (s.Issues (.vscan x) → s.Dispatches (.vscan x) (o (.vscan x)) (K (.vscan x)) ∧ ∀ p : State, ∃ v, p.Gives s.myTile (o (.vscan x)) act v ∧
        ∀ l ∈ lanes, (v.bad l = true ↔ ∃ j ∈ lanes, j ≤ l ∧ A.1.bad j = true)))

/-- R356, R357, R358 (with R137, R263, R264 in the own scratchpad). `me.data` holds the operands of a store or an indexed access of which some lanes have
waited; the clauses about these say what one does that starts. The completion statement of VLD, VST, VGATH and VSCAT. -/
def Obligations.VectorMemory : Prop :=
  (∀ (x : FmtM) (s : State),
    let act := s.activeLanes x.pk x.pn
    let ea := s.gReg x.base.toNat + (if x.idx = 0x3F then 0 else s.gReg x.idx.toNat <<< x.sc.toNat) + x.off.signExtend 64
    let V := (s.atIssue (.vst x)).vsource x.dr
    let still : Prop := x.ord = 2 → s.ownPushed = false ∧ s.ownFetch = false
    (∀ e s1 s2 v, s.Issues (.vld x) → s.NoStream x.dr → vecElem act ea .read (s.atIssue (.vld x)) = .ok (e, s1) →
      (∀ l, l < 64 → act.getLsbD l = true → checkAddr (ea + w64 (e * l)) e s1 = .ok ((), s1)) →
      loadLanes act e (fun l => ea + w64 (e * l)) [] s1 = .ok (v, s2) → s2.NoStream x.dr →
      exec (.vld x) s = .next ((s2.vresult x.dr act v).finish (.vld x))) ∧
    (∀ e s1 s2, s.Issues (.vst x) → s.NoStream x.dr → s.me.data = [] → still → vecElem act ea .write V.2 = .ok (e, s1) →
      (∀ l, l < 64 → act.getLsbD l = true → checkAddr (ea + w64 (e * l)) e s1 = .ok ((), s1)) →
      storeLanes act e (fun l => ea + w64 (e * l)) [V.1] V.1 s1 = .ok (none, s2) → exec (.vst x) s = .next (s2.finish (.vst x))) ∧
    (∀ off, s.cur.isTile = true → ea = BitVec.ofNat 64 (0xFF00000000000000 + off) → off % 4 = 0 → off + 256 ≤ s.spadBytes s.myTile → off + 256 ≤ 2 ^ 20 →
      (∀ l, l < 64 → s.heldSpad s.myTile (off + 4 * l) 4 none = false ∧ s.pushedAt (.spad s.myTile (off + 4 * l) false) 4 = false ∧
        s.elemAt s.myTile (off + 4 * l) 4 = false) → s.me.data = [] → s.me.lanes = 0 → s.NoStream x.dr → s.soft = [] → s.hard = [] →
      (s.Issues (.vld x) → ∃ t, exec (.vld x) s = .next t ∧ t.me.pc = s.me.pc + 8 ∧ t.mem = s.mem ∧
        (16 ≤ x.dr.toNat → x.dr.toNat < 48 → ∀ l, l < 64 → act.getLsbD l = true →
          ((t.core s.cur).fReg (x.dr.toNat - 16)).bad l = s.isPoison (poolKey s.myTile (off + 4 * l) / 8) ∧
          (s.isPoison (poolKey s.myTile (off + 4 * l) / 8) = false → ((t.core s.cur).fReg (x.dr.toNat - 16)).at l =
            BitVec.ofNat 32 (Memory.read s.mem (poolKey s.myTile (off + 4 * l)) 4)))) ∧
      (s.Issues (.vst x) → still → (act &&& V.1.poison) = 0 → ∃ t, exec (.vst x) s = .next t ∧ t.me.pc = s.me.pc + 8 ∧
        (∀ l, l < 64 → act.getLsbD l = true → Memory.read t.mem (poolKey s.myTile (off + 4 * l)) 4 = (V.1.at l).toNat) ∧
        (∀ j, (∀ l, l < 64 → act.getLsbD l = true → j < poolKey s.myTile (off + 4 * l) ∨ poolKey s.myTile (off + 4 * l) + 4 ≤ j) →
          t.byte j = s.byte j)))) ∧
  (∀ (x : FmtR) (s : State),
    let act := s.activeLanes x.pk x.pn
    let A (i : Instr) := (s.atIssue i).source x.a
    let I (i : Instr) := (A i).2.vsource x.b
    (act = 0 → s.Issues (.vgath x) → s.me.data = [] → s.NoStream x.b → s.NoStream x.d →
      exec (.vgath x) s = .next (((I (.vgath x)).2.vresult x.d 0 {}).finish (.vgath x))) ∧
    (act = 0 → s.Issues (.vscat x) → s.me.data = [] → s.NoStream x.b → s.NoStream x.c →
      exec (.vscat x) s = .next (((I (.vscat x)).2.vsource x.c).2.finish (.vscat x))) ∧
    (∀ f s1 s2 v, act ≠ 0 → s.Issues (.vgath x) → s.me.data = [] → s.NoStream x.b → s.NoStream x.d →
      let A := A (.vgath x)
      let I := I (.vgath x)
      let good := act &&& ~~~ I.1.poison
      pageFmt A.1 .read I.2 = .ok (f, s1) →
      let e := laneSize f
      let addr (l : Nat) : Word := A.1 + w64 ((I.1.at l).toNat * e)
      (∀ l, l < 64 → good.getLsbD l = true → checkAddr (addr l) e s1 = .ok ((), s1)) → loadLanes good e addr [scalarReg A.1, I.1] s1 = .ok (v, s2) → s2.NoStream x.d →
      exec (.vgath x) s = .next ((s2.vresult x.d act { v with poison := v.poison ||| (act &&& I.1.poison) }).finish (.vgath x))) ∧
    (∀ f s1 s2, act ≠ 0 → s.Issues (.vscat x) → s.me.data = [] → s.NoStream x.b → s.NoStream x.c →
      let A := A (.vscat x)
      let I := I (.vscat x)
      let good := act &&& ~~~ I.1.poison
      let V := I.2.vsource x.c
      pageFmt A.1 .write V.2 = .ok (f, s1) →
      let e := laneSize f
      let addr (l : Nat) : Word := A.1 + w64 ((I.1.at l).toNat * e)
      (∀ l, l < 64 → good.getLsbD l = true → checkAddr (addr l) e s1 = .ok ((), s1)) → storeLanes good e addr [scalarReg A.1, I.1, V.1] V.1 s1 = .ok (none, s2) →
      (act &&& I.1.poison = 0 → exec (.vscat x) s = .next (s2.finish (.vscat x))) ∧
      (∀ n, n < 64 → (act &&& I.1.poison).getLsbD n = true → (∀ j, j < n → (act &&& I.1.poison).getLsbD j = false) → s.me.hasHandler = true →
        ∃ t, exec (.vscat x) s = .next t ∧ t.me.code = 3 ∧ t.me.arg = BitVec.ofNat 64 n ∧ t.mem = s2.mem)))

/-- R238, R239, R359, R360, R361, R362, R363. (The strand's turn rests on assumption 97.) The completion statement of VGRANT, SBIND, SUNBIND and SSTAT. -/
def Obligations.StreamRegisters : Prop :=
  ∀ (x : FmtR) (s : State),
    let S := s.atNpc.source x.a
    let n := x.d.toNat - 16
    let v := s.strm s.myTile n
    (s.Issues (.vgrant x) →
      let g := min S.1.toNat 64
      exec (.vgrant x) s = .next (((S.2.setMe { S.2.me with vl := max 1 g }).result x.d (BitVec.ofNat 64 g)).finish (.vgrant x))) ∧
    (∀ s1 ws, s.Issues (.sbind x) → s.Anew → s.VecTurn → s.streaming n = false → (∃ w, s.window (S.1) 64 = .ok w) → S.1.toNat % 64 = 0 →
      (List.range 8).mapM (fun i => keeping (readM (S.1 + w64 (8 * i)) 8)) S.2 = .ok (ws, s1) → (∀ w ∈ ws, w.2 = false) →
      let d : BitVec 512 := BitVec.ofNat 512 (joinWords (ws.map fun w => BitVec.ofNat 64 w.1))
      let legal : Prop := fld d 511 289 = 0 ∧ fld d 287 256 ≠ 0 ∧ fld d 127 112 ≠ 0 ∧ fld d 191 176 ≠ 0 ∧ fld d 255 240 ≠ 0 ∧
        fld d 287 256 * fld d 127 112 * fld d 191 176 * fld d 255 240 ≤ 2 ^ 40
      let base : Word := BitVec.ofNat 64 (fld d 63 0)
      (¬ legal → s.me.hasHandler = true → ∃ t, exec (.sbind x) s = .next t ∧ t.me.code = 9 ∧ t.me.arg = 1 ∧ t.me.rpc = s.me.pc) ∧
      (∀ w f s2, legal → s1.window base 1 = .ok w → pageFmt base (if fld d 288 288 = 1 then .write else .read) s1 = .ok (f, s2) →
        base.toNat % laneSize f = 0 → s2.cur = s.cur → s2.curX = s.curX → ∃ t k, exec (.sbind x) s = .next t ∧ t.mem = s2.mem ∧
          t.strm s.myTile n = { bound := true, desc := d, esz := laneSize f, launch := s2.me.launch, ctx := s.curX, id := k })) ∧
    (s.Issues (.sunbind x) → s.Anew → s.streaming n = true → s.VecTurn → v.pushed = [] →
      (v.fault = false → ∃ t, exec (.sunbind x) s = .next t ∧ t.me.pc = s.me.pc + 8 ∧ t.mem = s.mem ∧
        t.strm s.myTile n = { v with bound := false, fetched := [] }) ∧
      (v.fault = true → s.me.hasHandler = true → ∃ t, exec (.sunbind x) s = .next t ∧ t.me.code = 3 ∧ t.me.arg = v.lowest.getD 0 ∧
        t.me.rpc = s.me.pc ∧ (t.strm s.myTile n).bound = false)) ∧
    (s.Issues (.sunbind x) → s.streaming n = false → exec (.sunbind x) s = .next (s.atNpc.finish (.sunbind x))) ∧
    (s.Issues (.sstat x) →
      let r := s.strm s.myTile (x.a.toNat - 16)
      exec (.sstat x) s = .next ((s.atNpc.result x.d (BitVec.ofNat 64 r.pos ||| (if r.bound then 2 ^ 41 else 0) |||
        (BitVec.ofNat 64 (fld r.desc 288 288) <<< 42) ||| (if r.ovr then 2 ^ 43 else 0) ||| (if r.fault then 2 ^ 44 else 0))).finish (.sstat x))) ∧
    (s.Issues (.vmov x) → s.Anew → 16 ≤ x.a.toNat → s.streaming (x.a.toNat - 16) = true → s.VecTurn → x.d.toNat < 48 → s.NoStream x.d → s.me.vl ≤ 64 →
      let r := s.strm s.myTile (x.a.toNat - 16)
      let len := fld r.desc 287 256 * fld r.desc 127 112 * fld r.desc 191 176 * fld r.desc 255 240
      (∀ l, l < s.me.vl → r.pos + l < len → (∃ e ∈ r.fetched, e.1 = r.pos + l) ∧ (r.addr (r.pos + l)).toNat % r.esz = 0 ∧
        ∃ w, s.tileWindow s.myTile r.ctx false (s.launch r.launch) (r.addr (r.pos + l)) r.esz = .ok w) → ∃ t, exec (.vmov x) s = .next t ∧ t.me.pc = s.me.pc + 8 ∧
        t.mem = s.mem ∧ t.strm s.myTile (x.a.toNat - 16) = { r with
          pos := min len (r.pos + s.me.vl), ovr := r.ovr || decide (len < r.pos + s.me.vl),
          fetched := r.fetched.filter fun e => min len (r.pos + s.me.vl) ≤ e.1 } ∧
        ∀ l, l < s.me.vl → (s.activeLanes x.pk x.pn).getLsbD l = true →
          let y := (t.core s.cur).fReg n
          (len ≤ r.pos + l → y.at l = 0 ∧ y.bad l = false) ∧
          (∀ e, r.pos + l < len → r.fetched.find? (fun e => e.1 = r.pos + l) = some e → y.at l = e.2.1 ∧ y.bad l = e.2.2)) ∧
    (s.Issues (.vmov x) → s.NoStream x.a → 16 ≤ x.d.toNat → x.d.toNat < 48 → s.Anew → s.streaming n = true → s.VecTurn → s.me.vl ≤ 64 →
      let i := Instr.vmov x
      let A := (s.atIssue i).vsource x.a
      let k := A.2.vresult x.d (s.activeLanes x.pk x.pn) A.1
      let y := (k.core s.cur).fReg n
      let len := fld v.desc 287 256 * fld v.desc 127 112 * fld v.desc 191 176 * fld v.desc 255 240
      let new : List Pushed := (List.range s.me.vl).filterMap fun l =>
        if v.pos + l < len then some { p := v.pos + l, v := y.at l, bad := y.bad l, ctx := s.myKey, rm := s.me.rm, launch := s.me.launch, x := s.curX }
        else none
      (∀ e ∈ new, (∃ w, s.window (v.addr e.p) v.esz = .ok w) ∧ (v.addr e.p).toNat % v.esz = 0) →
      exec i s = .next ((((k.setStrm s.myTile n { v with
        pos := min len (v.pos + s.me.vl), ovr := v.ovr || decide (len < v.pos + s.me.vl), pushed := v.pushed ++ new }).performPushed
          s.myTile n).queuedFlags 0).finish i))

/-- R224, R225, R365 to R368, R369 to R373, R272, R294. The completion statement of TLD, TLDX and TST; what the rows do is `EngineEvents`. (That the address
checks take a row of an invalid configuration as one byte is the model's reading, assumption 21.) -/
def Obligations.TileLoadCommands : Prop :=
  ∀ (x : FmtE) (s : State),
    let tl := s.tile s.myTile
    let room : Prop := (tl.loadQ.filter fun c => !c.started).length < 2
    let cd : Word := Tbl.get 0 tl.tcfg (x.d.toNat - 56)
    let cc : Word := Tbl.get 0 tl.tcfg (x.c.toNat - 56)
    let A := s.gReg x.a.toNat
    let B := s.gReg x.b.toNat
    let C := s.gReg x.c.toNat
    let unit := if 0 < limbsOf (cfgFmt cd) then fmtBytes (cfgFmt cd) else 1
    let mode := if x.cb 2 0 = 0 then s.me.rm.toNat + 1 else x.cb 2 0
    let given := x.cb 3 3 = 1
    let inWindows (a b : Word) (rows w : Nat) : Prop := (∃ y, s.window a w = .ok y) ∧ ∃ y, s.window (a + w64 (rows - 1) * b) w = .ok y
    let own (a : Word) : Prop := a.toNat / 2 ^ 20 = 0xFF000000000
    let queued (op : Instr) (c : LoadCmd) : Prop :=
      s.Performed → exec op s = .next ((s.atNpc.newId.2.setTile s.myTile { tl with loadQ := tl.loadQ ++ [{ c with id := s.fresh }] }).finish op)
    let cmd : LoadCmd := {
      kind := .tld, reg := x.d.toNat - 56, cfg := cd, a := A, b := B, base := 0, mode := mode, filt := false, ctl := 0,
      launch := s.me.launch, pasid := s.myPasid, ctx := s.myKey, x := s.curX, rows := List.range (cfgRows cd) }
    (∀ op ∈ [Instr.tld x, .tldx x, .tst x], s.Issues op → ¬ room → exec op s = .next s) ∧
    (s.Issues (.tld x) → room → (cfgOk cd = false → inWindows A B (cfgRows cd) 1 → exec (.tld x) s = .next (s.takeTrap 9 1 s.me.pc)) ∧
      (cfgOk cd = true → inWindows A B (cfgRows cd) (cfgRaw cd) →
        (A.toNat % unit ≠ 0 → exec (.tld x) s = .next (s.takeTrap 4 A s.me.pc)) ∧
        (A.toNat % unit = 0 → B.toNat % unit ≠ 0 → exec (.tld x) s = .next (s.takeTrap 4 B s.me.pc)) ∧
        (A.toNat % unit = 0 → B.toNat % unit = 0 →
          (cfgBsrc cd = true → ¬ given → exec (.tld x) s = .next (s.takeTrap 9 3 s.me.pc)) ∧
          (cfgBsrc cd = true → given → queued (.tld x) { cmd with base := C.toNat % 256 }) ∧
          (cfgBsrc cd = false → queued (.tld x) { cmd with base := cfgBase cd })))) ∧
    (s.Issues (.tldx x) → room → x.cb 4 4 = 0 → cfgOk cd = true → (∃ y, s.window B (4 * cfgRows cd) = .ok y) →
      (¬ own B → exec (.tldx x) s = .next (s.takeTrap 5 B s.me.pc)) ∧
      (own B → ¬ own A → exec (.tldx x) s = .next (s.takeTrap 5 A s.me.pc)) ∧
      (own B → own A → B.toNat % 4 ≠ 0 → exec (.tldx x) s = .next (s.takeTrap 4 B s.me.pc)) ∧
      (own B → own A → B.toNat % 4 = 0 → A.toNat % unit = 0 → (cfgBsrc cd = true → given) →
        queued (.tldx x) { cmd with kind := .tldx, base := if cfgBsrc cd then C.toNat % 256 else cfgBase cd, filt := decide (x.cb 5 5 = 1), ctl := C })) ∧
    (∀ g, s.Issues (.tldx x) → room → x.cb 4 4 = 1 → subgroupOf s.myLaunch s.myTile (C.toNat % 64) = some g → cfgOk cd = true →
      (∃ y, s.window B (4 * cfgRows cd) = .ok y) → own B → A.toNat < 2 ^ 20 → B.toNat % 4 = 0 → A.toNat % unit = 0 →
      C.toNat / 2 ^ 52 = 0 → C.toNat / 64 % 4 = 0 → C.toNat / 2 ^ 16 % 2 ^ 16 ≠ 0 →
      queued (.tldx x) { cmd with
        kind := .tldxsg, base := if cfgBsrc cd then C.toNat / 256 % 256 else cfgBase cd, filt := decide (x.cb 5 5 = 1), ctl := C }) ∧
    (s.Issues (.tst x) → room → (cfgOk cc = false → inWindows A B (cfgRows cc) 1 → exec (.tst x) s = .next (s.takeTrap 9 1 s.me.pc)) ∧
      (cfgOk cc = true → inWindows A B (cfgRows cc) (cfgStore cc) →
        queued (.tst x) { cmd with kind := .tst, reg := x.c.toNat - 56, cfg := cc, mode := 1, rows := List.range (cfgRows cc) }))

/-- R224, R253, R272, R374 to R381, R30, R235. (A read of poisoned accumulator elements, which reads them as zero, logs them first: `logAcc`, assumption 98.)
The completion statement of MMA, MMAL, ACCZ, ACCRD, ACCWB, ACCSTAT and ACCERR; what the engine does with the
commands is `EngineEvents`. -/
def Obligations.MatrixCommands : Prop :=
  ∀ (x : FmtE) (s : State),
    let tl := s.tile s.myTile
    let room : Prop := tl.matQ.length < 2
    let cmd (k : MatKind) (n : Nat) : MatCmd := { id := s.fresh, kind := k, acc := n, ctx := s.myKey, launch := s.me.launch, pasid := s.myPasid, x := s.curX }
    let pushed (c : MatCmd) : State := s.atNpc.newId.2.setTile s.myTile { tl with matQ := tl.matQ ++ [c] }
    let queued (op : Instr) (c : MatCmd) : Prop := exec op s = .next ((pushed c).finish op)
    let ca : Word := Tbl.get 0 tl.tcfg (x.a.toNat - 56)
    let cb : Word := Tbl.get 0 tl.tcfg (x.b.toNat - 56)
    let limbs (c : Word) : Nat := max 1 (limbsOf (cfgFmt c))
    let product : MatCmd := { cmd .mma x.d.toNat with
      ta := x.a.toNat - 56, tb := x.b.toNat - 56, cfga := ca, cfgb := cb, relA := x.la, relB := x.lb }
    let mode := if x.cb 2 0 = 0 then s.me.rm.toNat + 1 else x.cb 2 0
    let A := s.gReg x.a.toNat
    let B := s.gReg x.b.toNat
    let waiting (op : Instr) (c : MatCmd) : Prop := ∃ t, exec op s = .next t ∧
      (t.tile s.myTile).matQ = tl.matQ ++ [c] ∧ t.me = { (s.issued op).me with st := .blocked, await := .matrix s.fresh none, waitAt := some op } ∧
      t.mem = s.mem ∧ t.fresh = s.fresh + 1
    let idle : Prop := s.me.data = [] ∧ ∀ k r, s.me.await ≠ .matrix k r
    (∀ op ∈ [Instr.mma x, .mmal x, .accz x, .accwb x], s.Issues op → ¬ room → exec op s = .next s) ∧
    (room → cfgOk ca = true → cfgOk cb = true →
      (s.Issues (.mma x) → 32 < cfgCols ca ∨ 32 < cfgRows cb → exec (.mma x) s = .next (s.takeTrap 9 4 s.me.pc)) ∧
      (cfgCols ca ≤ 32 → cfgRows cb ≤ 32 → s.service ≠ .reduced →
        (s.Issues (.mma x) → ∃ ps, queued (.mma x) { product with pairs := ps } ∧ ps.Nodup ∧
          ∀ i j, (i, j) ∈ ps ↔ i < limbs ca ∧ j < limbs cb) ∧
        (s.Issues (.mmal x) → x.cb 1 0 < limbs ca → x.cb 3 2 < limbs cb → queued (.mmal x) { product with pairs := [(x.cb 1 0, x.cb 3 2)] }) ∧
        (s.Issues (.mmal x) → limbs ca ≤ x.cb 1 0 ∨ limbs cb ≤ x.cb 3 2 → exec (.mmal x) s = .next (s.takeTrap 9 4 s.me.pc)))) ∧
    (s.Issues (.accz x) → room → queued (.accz x) (cmd .accz x.d.toNat)) ∧
    (s.Issues (.accwb x) → room →
      let f := x.cb 9 5
      let n := if x.cb 4 4 = 1 then 32 else 16
      let r := B.toNat
      let w := wbWidth f n
      (r = 0 ∨ (∃ y, s.window A w = .ok y) ∧ ∃ y, s.window (A + w64 ((min r 64 - 1) * w)) w = .ok y) →
      (A.toNat % 8 ≠ 0 → exec (.accwb x) s = .next (s.takeTrap 4 A s.me.pc)) ∧
      (A.toNat % 8 = 0 → 64 < r → exec (.accwb x) s = .next (s.takeTrap 9 1 s.me.pc)) ∧
      (A.toNat % 8 = 0 → r ≤ 64 → x.cb 3 3 = 0 → blockType f = true → exec (.accwb x) s = .next (s.takeTrap 9 3 s.me.pc)) ∧
      (A.toNat % 8 = 0 → r ≤ 64 → (x.cb 3 3 = 1 ∨ blockType f = false) → s.Performed → queued (.accwb x) { cmd .accwb x.d.toNat with
        row := r, ty := f, mode := mode, addr := A, bsz := n, base := if x.cb 3 3 = 1 then (s.gReg x.c.toNat).toNat % 256 else 0, rows := List.range r })) ∧
    (s.Issues (.accrd x) → x.cb 3 3 = 0 → s.cur.isTile = true → s.NoStream x.d →
      (idle → room → waiting (.accrd x) { cmd .accrd x.a.toNat with
        row := B.toNat % 64, ty := x.cb 8 4, mode := mode, fd := x.d.toNat, active := s.activeLanes x.pk x.pn }) ∧
      (∀ k r, s.me.await = .matrix k (some r) → exec (.accrd x) s = .next ((s.atIssue (.accrd x)).finish (.accrd x)))) ∧
    (s.Issues (.accrd x) → x.cb 3 3 = 1 → s.NoStream x.d → ∃ v fl k,
      let j := s.atIssue (.accrd x)
      (if s.peek s.myTile x.a.toNat = {} then j
        else j.logAcc s.myTile x.a.toNat (rowKeys (B.toNat % 64) (s.activeLanes x.pk x.pn))).Reseeded k ∧
      exec (.accrd x) s = .next (((k.setMe { k.me with aflags := k.me.aflags ||| fl }).vresult x.d (s.activeLanes x.pk x.pn) v).finish (.accrd x)) ∧
      ∀ l, l < 64 → (s.activeLanes x.pk x.pn).getLsbD l = true → v.bad l = false ∧
        ∃ p, v.at l = (accLane (s.peek s.myTile x.a.toNat) (x.cb 8 4) (B.toNat % 64) (rndMode mode 0) l p).1) ∧
    (s.Issues (.accstat x) → s.cur.isTile = true →
      let a := s.acc s.myTile x.a.toNat
      let busy : Bool := tl.matQ.any (fun e => e.acc = x.a.toNat) || (tl.matRun.any fun e => e.acc = x.a.toNat)
      (x.cb 3 3 = 0 → idle → room → waiting (.accstat x) (cmd .accstat x.a.toNat)) ∧
      (∀ k r, x.cb 3 3 = 0 → s.me.await = .matrix k (some r) → exec (.accstat x) s = .next ((s.atNpc.result x.d r).finish (.accstat x))) ∧
      (x.cb 3 3 = 1 → exec (.accstat x) s = .next ((s.atNpc.result x.d (BitVec.ofNat 64 a.anchor ||| (if a.anchored then 2 ^ 9 else 0) |||
        (if a.ovf then 2 ^ 10 else 0) ||| (if a.poison then 2 ^ 11 else 0) ||| (if busy then 2 ^ 12 else 0))).finish (.accstat x)))) ∧
    (s.Issues (.accerr x) → exec (.accerr x) s = .next (((s.atNpc.setTile s.myTile { tl with errlog := tl.errlog.tail, lost := 0 }).result x.d
      (tl.errlog.headD 0 ||| BitVec.ofNat 64 (tl.lost <<< 40))).finish (.accerr x)))

/-- R126, R138, R272, R383, R384, R385, R386, R387. `own` counts a remote-window address of the tile itself as its own scratchpad, which is the model's
reading of R133 (assumption 29). The completion statement of CP, CPSTAT, CPABORT, WMREAD and CINVAL; the copies' own steps are `CopyEvents`. -/
def Obligations.CopyCommands : Prop :=
  ∀ (x : FmtE) (s : State),
    let A := s.gReg x.a.toNat
    let me := s.myTile
    let own (c : Copy) : Prop := fld c.tmpl 127 64 / 2 ^ 20 = 0xFF000000000 ∨ fld c.tmpl 127 64 / 2 ^ 20 = 0xFE000000000 + me
    let tagged (g : Nat) : Option Nat := ((s.tile me).tags.reverse.find? fun e => e.1 = g).map Prod.snd
    (∀ ws s1 y, s.Issues (.cp x) → (A.toNat / 2 ^ 20 = 0xFF000000000 ∨ A.toNat / 2 ^ 56 = 0) → s.window A 64 = .ok y →
      (A.toNat % 64 ≠ 0 → exec (.cp x) s = .next (s.takeTrap 4 A s.me.pc)) ∧
      (A.toNat % 64 = 0 → s.Performed → readBlock A 8 s.atNpc = .ok (ws, s1) → s1.cur = s.cur →
        let u := s1.fresh
        let g := (s1.tile me).tag
        let c : Copy := {
          engine := .tile me, origin := .tile s1.me.launch g, pasid := s1.myPasid, st := .queued, tmpl := BitVec.ofNat 512 (joinWords ws), seq := u }
        let done (k : State) : State := ((if x.cb 0 0 = 1 then k.result x.d (BitVec.ofNat 64 g) else k).finish (.cp x))
        (¬ own c → (s1.tile me).copyQ.length < 2 → ∃ k, exec (.cp x) s = .next (done k) ∧ k.mem = s1.mem ∧
          k.copy u = c ∧ (k.tile me).copyQ = (s1.tile me).copyQ ++ [u] ∧ (k.tile me).tag = (g + 1) % 2 ^ 16 ∧
          (k.tile me).tags.getLast? = some (g, u)) ∧
        (¬ own c → 2 ≤ (s1.tile me).copyQ.length → exec (.cp x) s = .next s) ∧
        (own c → (s1.tile me).copyQ = [] → s1.engineActive me < 4 → s1.claimWaits me = false →
          (s1.acceptError c ≠ 0 ∨ s1.freeWm me ≠ none) →
          exec (.cp x) s = .next (done (((s1.newId.2.setCopy u { c with st := .accepting }).tagCopy me u).copyCheck u))))) ∧
    (s.Issues (.cpstat x) →
      let g := A.toNat % 65536
      let v := match tagged g with
        | none => 7 <<< 41
        | some u =>
          let c := s.copy u
          c.err <<< 44 ||| (match c.st with
            | .ended => 0
            | .running => 1
            | .frozen => 2
            | .aborting => 3
            | .accepting => 4
            | .queued => 5
            | .aborted => 6) <<< 41 ||| (if c.st = .queued then 0 else c.w % 2 ^ 41)
      exec (.cpstat x) s = .next ((s.atNpc.result x.d (BitVec.ofNat 64 (g <<< 48 ||| v))).finish (.cpstat x))) ∧
    (s.Issues (.cpabort x) →
      (tagged (A.toNat % 65536) = none → exec (.cpabort x) s = .next (s.atNpc.finish (.cpabort x))) ∧
      (∀ u, tagged (A.toNat % 65536) = some u →
        ((s.copy u).st ∈ [CopyState.accepting, .running, .frozen] → exec (.cpabort x) s = .next ((s.atNpc.setCopy u { s.copy u with
          st := .aborting, err := if (s.copy u).err = 0 then 6 else (s.copy u).err, ticket := none }).finish (.cpabort x))) ∧
        ((s.copy u).st ∈ [CopyState.aborting, .ended, .aborted] → exec (.cpabort x) s = .next (s.atNpc.finish (.cpabort x))) ∧
        (∀ l g, (s.copy u).st = .queued → (s.copy u).origin = .tile l g → (s.copy u).engine = .tile me → (s.copy u).ringSlot = none →
          ∃ t, exec (.cpabort x) s = .next t ∧ t.me.pc = s.me.pc + 8 ∧ (t.copy u).st = .aborted ∧ (t.copy u).err = 6 ∧ u ∉ (t.tile me).copyQ))) ∧
    (s.Issues (.wmread x) →
      let w := (s.gReg x.b.toNat).toNat % 4
      let held := s.copies.find? fun e => e.2.active && e.2.slot = some (me, x.a.toNat)
      let v : Nat := match held with
        | none => 0
        | some (_, c) =>
          if w = 0 then c.w ||| fld c.tmpl 385 384 <<< 41 ||| (match c.st with
            | .running => 1
            | .frozen => 2
            | .aborting => 3
            | .accepting => 4
            | _ => 0) <<< 60
          else if w = 1 then c.engine.agent ||| c.total <<< 16 else c.landAddr 0
      (w ≠ 3 → exec (.wmread x) s = .next ((s.atNpc.result x.d (BitVec.ofNat 64 v)).finish (.wmread x))) ∧
      (w = 3 → exec (.wmread x) s = .next (s.takeTrap 9 1 s.me.pc))) ∧
    (s.Issues (.cinval x) →
      (A.toNat < 32 → s.me.await ≠ .ack → s.ownElems (fun _ => true) = false → ∃ t, exec (.cinval x) s = .next t ∧ t.mem = s.mem ∧
        t.me = { s.me with st := .blocked, await := .ack, waitAt := some (.cinval x) } ∧
        t.streamer A.toNat = { s.streamer A.toNat with cache := [] }) ∧
      (A.toNat < 32 → s.me.await = .ack → exec (.cinval x) s = .next (s.atNpc.finish (.cinval x))) ∧
      (32 ≤ A.toNat → exec (.cinval x) s = .next (s.takeTrap 9 1 s.me.pc)))

/-- R151, R152, R153, R272, R388, R389, R390. The completion statement of GATH and SCAT; their rows are `CopyEvents`. -/
def Obligations.GatherCommands : Prop :=
  ∀ (x : FmtE) (s : State),
    let n := x.cb 12 0
    let A := s.gReg x.a.toNat
    let B := (s.gReg x.b.toNat).toNat
    let C := s.gReg x.c.toNat
    let D := s.gReg x.d.toNat
    let rb := B / 2 ^ 36 % 2 ^ 12 * 8
    let p := B / 2 ^ 20 % 2 ^ 16
    let toff := B % 2 ^ 20
    let own (a : Word) (n m : Nat) : Prop := a.toNat / 2 ^ 20 = 0xFF000000000 ∧ (∃ y, s.window a n = .ok y) ∧ a.toNat % m = 0
    let legal : Prop := B / 2 ^ 54 = 0 ∧ rb ≠ 0 ∧ p ≠ 0 ∧ toff % 8 = 0
    (∀ op ∈ [Instr.gath x, .scat x], s.Begins op → s.me.live.getLsbD x.b.toNat = true → x.b.toNat < 16 → subgroupOf s.myLaunch s.myTile (B / 2 ^ 48 % 64) = none →
      exec op s = .next (s.takeTrap 1 (encode op) s.me.pc)) ∧
    (∀ g ids r0 r1 s1 s2 s3, subgroupOf s.myLaunch s.myTile (B / 2 ^ 48 % 64) = some g → own D (max 1 (n * rb)) 8 → own A (4 * n) 4 → own C 16 16 →
      readM C 8 s.atNpc = .ok ((r0, false), s1) → readM (C + 8) 8 s1 = .ok ((r1, false), s2) → readList A n s2 = .ok (ids, s3) →
      s3.cur = s.cur → s3.curX = s.curX → r1 / 2 ^ 44 + 2 * g.size ≤ s.spadBytes s.myTile →
      let near := ((List.range n).map fun k => (k, ids.getD k 0)).filter fun e => decide (e.2 < g.size * p)
      (¬ legal → s.me.hasHandler = true → ∀ op ∈ [Instr.gath x, .scat x], s.Issues op → ∃ t, exec op s = .next t ∧ t.me.code = 9 ∧ t.me.arg = 1 ∧ t.me.rpc = s.me.pc) ∧
      let accepted (t : State) (v : Gather) : Prop :=
        t.me.pc = s3.me.pc ∧ v.tile = s.myTile ∧ v.tiles = g.tiles ∧ (∀ e ∈ v.rows, g.size * p ≤ e.2.1) ∧ v.lists.length + v.rows.length = n ∧
        (t.wordAt (poolKey s.myTile (C.toNat % 2 ^ 20) / 8)).toNat % 2 ^ 36 = n ∧ t.isEmpty (poolKey s.myTile (C.toNat % 2 ^ 20) / 8) = true ∧
        ∀ j, (j < poolKey s.myTile (C.toNat % 2 ^ 20) ∨ poolKey s.myTile (C.toNat % 2 ^ 20) + 8 ≤ j) →
          (j < poolKey s.myTile (r1 / 2 ^ 44) ∨ poolKey s.myTile (r1 / 2 ^ 44 + 2 * g.size) ≤ j) → t.byte j = s3.byte j
      (legal → s.heldSpad s.myTile (r1 / 2 ^ 44) (2 * g.size) none = false → s.Performed → s.Issues (.gath x) → ∃ t k v, exec (.gath x) s = .next t ∧ Tbl.find t.gathers k = some v ∧ accepted t v ∧
        v.scatter = false ∧ v.lists = near.map (fun e => (e.1, e.2, [])) ∧
        ∀ i, i < n * rb / 8 → t.isEmpty (poolKey s.myTile (D.toNat % 2 ^ 20) / 8 + i) = true) ∧
      (legal → s.heldSpad s.myTile (r1 / 2 ^ 44) (2 * g.size) none = false → s.Performed → s.Issues (.scat x) → ∃ t k v, exec (.scat x) s = .next t ∧ Tbl.find t.gathers k = some v ∧ accepted t v ∧
        v.scatter = true ∧ v.lists.map (fun e => (e.1, e.2.1)) = near))

/-- R185, R187, R192, R193, R272, R391, R392, R393. The completion statement of XLOOK, XPARK, XREL, DQPUSH and DQPOP; the unit's own steps are `ExpertEvents`. -/
def Obligations.ExpertCommands : Prop :=
  ∀ (x : FmtE) (s : State),
    let a : Word := s.gReg x.a.toNat + (BitVec.ofNat 20 (x.cb 19 0)).signExtend 64
    let own : Prop := a.toNat / 2 ^ 20 = 0xFF000000000 ∧ (∃ y, s.window a 16 = .ok y) ∧ a.toNat % 16 = 0
    let fresh : Prop := ∀ n r, s.me.await ≠ .expert n r
    let req (k : ExpertKind) (n : Nat) (r : BitVec 128) : ExpertReq := {
      kind := k, entry := n, record := r, launch := s.me.launch, tile := s.myTile, isA := s.cur.isA, ctx := s.curX }
    let sends (op : Instr) (s1 : State) (q : ExpertReq) : Prop := ∃ t, exec op s = .next t ∧ t.expert = s1.expert ++ [(s1.fresh, q)] ∧
      t.me = { s.me with st := .blocked, await := .expert s1.fresh none, waitAt := some op } ∧ t.mem = s1.mem
    let stored (s1 : State) (k : Nat) (r : BitVec 128) : State := (s1.store k 8 (r.toNat % 2 ^ 64) false).store (k + 8) 8 (r.toNat / 2 ^ 64) false
    let lookup (op : Instr) (k : ExpertKind) : Prop :=
      (∀ s1 ws, s.Issues op → s.cur.isTile = true → own → fresh → readWords a 2 s.atNpc = .ok (ws, s1) → s1.cur = s.cur → s1.curX = s.curX →
        s1.me.launch = s.me.launch →
        let n := (s.gReg x.b.toNat).toNat
        (n ≤ 16383 → sends op s1 (req k n (BitVec.ofNat 128 (joinWords ws)))) ∧
        (16383 < n → exec op s = .next ((s1.result x.d 4).finish op))) ∧
      (∀ n res r, s.Issues op → s.me.await = .expert n (some (res, r)) →
        (1 < res → exec op s = .next ((s.atNpc.result x.d (BitVec.ofNat 64 res)).finish op)) ∧
        (∀ s1 key f, res ≤ 1 → own → place a 16 .write s.atNpc = .ok (.key key f, s1) →
          exec op s = .next (((stored s1 key r).result x.d (BitVec.ofNat 64 res)).finish op)))
    lookup (.xlook x) .look ∧ lookup (.xpark x) .park ∧
    (s.Issues (.xrel x) → s.cur.isTile = true →
      let n := (s.gReg x.a.toNat).toNat
      (fresh → n ≤ 16383 → s.Performed → sends (.xrel x) s.atNpc (req .unpin n 0)) ∧
      (fresh → 16383 < n → exec (.xrel x) s = .next ((s.atNpc.result x.d 4).finish (.xrel x))) ∧
      (∀ k res r, s.me.await = .expert k (some (res, r)) → exec (.xrel x) s = .next ((s.atNpc.result x.d (BitVec.ofNat 64 res)).finish (.xrel x)))) ∧
    (∀ s1 ws, s.Issues (.dqpush x) → own → readWords a 2 s.atNpc = .ok (ws, s1) →
      let tl := s1.tile s1.myTile
      (tl.dqRoom = true → exec (.dqpush x) s = .next
        (((s1.setTile s1.myTile { tl with deque := tl.deque ++ [BitVec.ofNat 128 (joinWords ws)] }).result x.d 1).finish (.dqpush x))) ∧
      (tl.dqRoom = false → exec (.dqpush x) s = .next ((s1.result x.d 0).finish (.dqpush x)))) ∧
    (s.Issues (.dqpop x) → own → s.cur.isTile = true →
      let tl := s.tile s.myTile
      let d := (tl.stealDir + 1) % 4
      let steals : Prop := tl.dqcfg = 1 ∧ x.cb 20 20 = 0 ∧ s.me.await ≠ .steal 4
      (∀ r key f s1, tl.deque.getLast? = some r → (∀ n, s.me.await = .steal n → n = 4) → place a 16 .write s.atNpc = .ok (.key key f, s1) → s1.cur = s.cur →
        exec (.dqpop x) s = .next ((((stored s1 key r).setTile s.myTile { ((stored s1 key r).tile s.myTile).dqFreed with deque := tl.deque.dropLast }).result x.d 1).finish
          (.dqpop x))) ∧
      (tl.deque = [] → (∀ n, s.me.await = .steal n → n = 4) → ¬ steals → exec (.dqpop x) s = .next ((s.atNpc.result x.d 0).finish (.dqpop x))) ∧
      (∀ i v, tl.deque = [] → (∀ n, s.me.await ≠ .steal n) → steals → i < 4 → (∀ j, j < i → neighbour s.myLaunch s.myTile (d + j) = none) →
        neighbour s.myLaunch s.myTile (d + i) = some v → ∃ t, exec (.dqpop x) s = .next t ∧
          t.me = { s.me with st := .blocked, await := .steal i, waitAt := some (.dqpop x) } ∧
          Tbl.find t.steals s.fresh = some { thief := s.myTile, victim := v, ctx := s.myKey, r := min 64 tl.dqOpen, reply := none, dir := d } ∧
          t.tile s.myTile = { tl with stealDir := d, stealRes := tl.stealRes + min 64 tl.dqOpen } ∧ t.mem = s.mem))

/-- R188, R194, R195, R199, R272, R394, R395, R396, R397, R398. The index of a round, counted for each launch on the tile over all its subgroups, and the
pairing by it are the model's reading (assumption 36). The completion statement of CTRSNAP, KMERGE, RRED and GBAR; the results are `ExpertEvents`. -/
def Obligations.CollectiveCommands : Prop :=
  ∀ (x : FmtE) (s : State),
    let me := s.myTile
    let u := s.me.launch
    let A := s.gReg x.a.toNat
    let C := s.gReg x.c.toNat
    let D := s.gReg x.d.toNat
    let own (w : Word) (n : Nat) : Prop := w.toNat / 2 ^ 20 = 0xFF000000000 ∧ (∃ y, s.window w n = .ok y) ∧ w.toNat % 8 = 0
    let key (o : Nat) : Nat := poolKey me o
    let n := (s.gReg x.b.toNat).toNat
    let a := A.toNat % 2 ^ 20
    let d := D.toNat % 2 ^ 20
    let room : Prop := (s.openRounds me).length < 8 ∧ s.ownPushed = false ∧ s.ownFetch = false
    let g? := subgroupOf s.myLaunch me (C.toNat % 64)
    let first (g : Subgroup) : Prop := g.rank me = 0
    let result (k : Nat) : Prop := D.toNat / 2 ^ 20 = 0 ∧ d + k ≤ s.spadBytes me ∧ D.toNat % 8 = 0
    let joins (op : Instr) (s1 : State) (k : CollKind) (cmd : Nat) (g : Subgroup) (p : Part) (done : State → Prop) : Prop :=
      let m := s1.myOt.rounds
      ((∀ e ∈ s1.colls, e.2.launch ≠ u) → (∀ y ∈ g.tiles, (s1.ot u y).rounds ≤ m) → ∃ t, exec op s = .next t ∧ done t ∧ t.myOt.rounds = m + 1 ∧
        Tbl.find t.colls s1.fresh = some { kind := k, launch := u, ctl := C, cmd := cmd, index := m, tiles := g.tiles, parts := [{ p with since := s1.fresh }] }) ∧
      (∀ i r, s1.colls = [(i, r)] → r.launch = u → r.index = m → r.kind = k → r.ctl = C → r.cmd = cmd → r.tiles = g.tiles →
        (∀ y ∈ g.tiles, (s1.ot u y).rounds ≤ m ∨ r.joined y = true) → ∃ t, exec op s = .next t ∧ done t ∧ t.myOt.rounds = m + 1 ∧
          Tbl.find t.colls i = some { r with parts := r.parts ++ [{ p with since := s1.fresh }] })
    let advances (t : State) : Prop := t.me.pc = s.me.pc + 8
    (s.Issues (.ctrsnap x) → own D (max 1 (8 * n)) → own A (max 1 (8 * n)) → s.cur.isTile = true →
      (n = 0 ∨ 4096 < n ∨ (a < d + 8 * n ∧ d < a + 8 * n) → exec (.ctrsnap x) s = .next (s.takeTrap 9 1 s.me.pc)) ∧
      (1 ≤ n → n ≤ 4096 → (d + 8 * n ≤ a ∨ a + 8 * n ≤ d) →
        (s.heldSpad me a (8 * n) none = true → ∃ t, exec (.ctrsnap x) s = .next t ∧
          t.me = { s.me with st := .blocked, await := .hold, waitAt := some (.ctrsnap x) } ∧ t.mem = s.mem) ∧
        (s.heldSpad me a (8 * n) none = false → s.ownPushed = false → s.ownFetch = false → ∃ t, exec (.ctrsnap x) s = .next t ∧ advances t ∧
          (∀ i, i < n → t.wordAt (key (a + 8 * i) / 8) = 0 ∧ t.isPoison (key (a + 8 * i) / 8) = false ∧ t.isEmpty (key (d + 8 * i) / 8) = true ∧
            ∃ k e, Tbl.find t.elems k = some e ∧ e.snap = true ∧ e.launch = u ∧ e.toTile = me ∧ e.base = d + 8 * i ∧
              e.val = s.wordAt (key (a + 8 * i) / 8) ∧ (s.hard = [] → e.poison = s.isPoison (key (a + 8 * i) / 8))) ∧
          ∀ j, (j < key a ∨ key (a + 8 * n) ≤ j) → t.byte j = s.byte j))) ∧
    (∀ g ws s1 s2, s.Issues (.kmerge x) → room → g? = some g → C.toNat / 2 ^ 11 = 0 → C.toNat / 64 % 4 = 0 → own A 64 →
      let k := C.toNat / 256 % 8 + 1
      (first g → result (8 * k)) → (List.range 8).mapM (fun i => readM (A + w64 (8 * i)) 8) s.atNpc = .ok (ws, s1) → (∀ w ∈ ws, w.2 = false) →
      s1.cur = s.cur → s1.curX = s.curX → s1.me.launch = u → s2 = (if first g then
        { s1 with empty := (List.range k).foldl (fun m i => Tbl.set false m (key d / 8 + i) true) s1.empty } else s1) →
      joins (.kmerge x) s2 .kmerge 0 g
        { rank := g.rank me, words := ws.map fun w => (w64 w.1, false), off := if first g then d else 0 } fun t => t.me.pc = s1.me.pc ∧ t.mem = s1.mem) ∧
    (∀ g, s.Issues (.rred x) → room → g? = some g → C.toNat / 64 = 0 → s.NoStream x.a →
      let recv : Prop := g.rank me = 0 ∨ x.cb 2 2 = 1
      let V := (s.atIssue (.rred x)).vsource x.a
      let act := s.activeLanes x.pk x.pn
      (recv → result 256) → ∀ s2, s2 = (if recv then
        { V.2 with empty := (List.range 32).foldl (fun m i => Tbl.set false m (key d / 8 + i) true) V.2.empty } else V.2) →
      joins (.rred x) s2 .rred x.cmd.toNat g
        { rank := g.rank me
          words := (List.range 64).map fun l => if act.getLsbD l then ((V.1.at l).setWidth 64, V.1.bad l) else ((rredId x.cmd.toNat).setWidth 64, false)
          off := if recv then d else 0 } fun t => advances t ∧ t.mem = s.mem) ∧
    (∀ g, s.Issues (.gbar x) → room → g? = some g → C.toNat / 64 = 0 → s.cur.isTile = true → (∀ i, s.me.await = .collective i → i % 2 = 0) →
      joins (.gbar x) s.atNpc .gbar 0 g { rank := g.rank me, words := [], off := 0 } (fun t => t.me.st = .blocked ∧ t.me.pc = s.me.pc ∧ t.mem = s.mem) ∧
      (∀ i r, s.colls = [(i, r)] → r.launch = u → r.index = s.myOt.rounds → r.tiles.contains me = true →
        (r.kind ≠ .gbar ∨ r.ctl ≠ C ∨ r.cmd ≠ 0 ∨ r.tiles ≠ g.tiles) → (Tbl.find s.launches u).isSome = true → s.evq.length < 4096 →
        ∃ t, exec (.gbar x) s = .next t ∧ (t.launch u).st = .faulted ∧ (t.launch u).status = (if s.myLaunch.status = 0 then 4 else s.myLaunch.status) ∧
          t.evq = s.evq ++ [{
            etype := 7, qid := none, arg0 := 8, arg1 := w64 (g.tileOf 0), arg2 := s.myLaunch.id.setWidth 64, seq := s.evSeq.toNat }])) ∧
    (∀ i, s.Issues (.gbar x) → s.me.await = .collective (2 * i + 1) → Tbl.find s.colls i = none → exec (.gbar x) s = .next (s.atNpc.finish (.gbar x)))

/-- R266, R399, R400. The completion statement of LAUNCH. The id is the first that names no live launch; the statement takes the case that the next count's does. -/
def Obligations.LaunchCommand : Prop :=
  ∀ (x : FmtE) (s : State) (ws : List Word) (s1 : State),
    let A := s.gReg x.a.toNat
    s.Issues (.launch x) → s.ownPushed = false → s.ownFetch = false → (A.toNat / 2 ^ 20 = 0xFF000000000 ∨ A.toNat / 2 ^ 56 = 0) → (∃ y, s.window A 32 = .ok y) →
    (A.toNat % 32 ≠ 0 → exec (.launch x) s = .next (s.takeTrap 4 A s.me.pc)) ∧
    (A.toNat % 32 = 0 → readWords A 4 s.atNpc = .ok (ws, s1) → s1.cur = s.cur →
      let v : BitVec 256 := BitVec.ofNat 256 (joinWords ws)
      let X := fld v 135 128
      let Y := fld v 143 136
      let W := fld v 151 144
      let H := fld v 159 152
      let done : Word := BitVec.ofNat 64 (fld v 255 192)
      let legal : Prop := fld v 191 160 = 0 ∧ 1 ≤ W ∧ 1 ≤ H ∧ X + W ≤ 64 ∧ Y + H ≤ 64 ∧ fld v 63 0 % 64 = 0 ∧ done.toNat % 8 = 0 ∧ done.toNat / 2 ^ 56 = 0
      let me := s.myTile
      (¬ legal → s.me.hasHandler = true → ∃ t, exec (.launch x) s = .next t ∧ t.me.code = 9 ∧ t.me.arg = 1 ∧ t.me.rpc = s.me.pc ∧ t.launches = s.launches) ∧
      (legal → 4 ≤ s1.tileIssued me → s.cur.isTile = true → ∃ t, exec (.launch x) s = .next t ∧ t.launches = s1.launches ∧
        t.me = { s.me with st := .blocked, await := .launches, waitAt := some (.launch x) }) ∧
      (∀ s2, legal → s1.tileIssued me < 4 → (done = 0 ∧ s2 = s1 ∨ done ≠ 0 ∧ ∃ k f s', place done 8 .write s1 = .ok (.key k f, s') ∧
          s2 = if hasFullBit k then s'.setEmpty (k / 8) true else s') → s2.cur = s.cur → s2.curX = s.curX → s2.me.launch = s.me.launch →
        let c := (s2.tile me).launchCount
        let id := 0x40000000 + me * 2 ^ 18 + c % 2 ^ 18
        s2.liveLaunch s2.myPasid id = none →
        exec (.launch x) s = .next (((({ s2 with fresh := s2.fresh + 1 }.setTile me { s2.tile me with launchCount := c + 1 }).setLaunch s2.fresh
          { id := BitVec.ofNat 32 id, pasid := s2.myPasid, x0 := X, y0 := Y, w := W, h := H, args := BitVec.ofNat 64 (fld v 127 64)
            tmplAddr := BitVec.ofNat 64 (fld v 63 0), st := .waiting, origin := .tile me s2.me.launch s2.myLaunch.origin.queue done }).result
          x.d (BitVec.ofNat 64 id)).finish (.launch x))))

/-- R204, R211, R212, R213, R217, R417, R418, R419, R420, R424, R425. The completion statement of ICL, ICU, GUARD, TAGCHK, DETOUR and DETRET. -/
def Obligations.RuntimeUnit : Prop :=
  (∀ (x : FmtR) (s s1 : State) (k : Nat) (f : Option Nat),
    let a := s.gReg x.a.toNat
    let key := s.gReg x.b.toNat
    let t := s.gReg x.c.toNat
    checkAddr a 128 s.atNpc = .ok ((), s.atNpc) → place a 128 .atomic s.atNpc = .ok (.key k f, s1) → k % 128 = 0 → (s1.load k 128).1.2 = false →
    (∀ e ∈ s1.ccs, ∀ r ∈ e.2.sites, r.pasid = s1.myPasid → r.addr = a.toNat → r.hits = []) → (∀ c, (s1.cc c).lateHits = []) →
    let w (i : Nat) : Word := s1.wordAt (k / 8 + i)
    let becomes (op : Instr) (r : State) (w' : Nat → Word) : Prop :=
      (∀ i, i < 16 → r.wordAt (k / 8 + i) = w' i) ∧ (∀ j, (j < k ∨ k + 128 ≤ j) → r.byte j = s1.byte j) ∧ (exec op s = .next r)
    let nent := (w 0).toNat / 4 % 8
    let kind := (w 0).toNat / 256 % 256
    let hit (j : Nat) : Prop := j < min 4 nent ∧ w (4 + 3 * j) = key ∧ ∀ i, i < j → w (4 + 3 * i) ≠ key
    let updates (n : Nat) (w' : Nat → Word) : Prop := ∃ r, becomes (.icu x) r w' ∧ ∀ m, r.gReg m = if m = x.d.toNat then BitVec.ofNat 64 n else s1.gReg m
    (s.Issues (.icl x) → ∃ r, becomes (.icl x) r fun i => if i = 0 then putBits (w 0) 0 5 0 else if i < 4 then w i else 0) ∧
    (s.Issues (.icu x) → x.d.toNat < 16 → t.toNat / 2 ^ 56 % 2 ^ 7 = 0 → t.toNat % 2 ^ 56 % (if t.getLsbD 63 then 64 else 8) = 0 →
      (t.getLsbD 63 = true → (kind = 2 ∨ kind = 3) → updates 3 w) ∧
      ((t.getLsbD 63 = false ∨ (kind ≠ 2 ∧ kind ≠ 3)) →
        ((w 0).toNat % 4 = 3 → updates 2 w) ∧
        ((w 0).toNat % 4 ≠ 3 →
          (∀ j, hit j → updates 0 fun i => if i = 5 + 3 * j then t else if i = 6 + 3 * j then putBits (w i) 0 32 0 else w i) ∧
          ((∀ j, ¬ hit j) → 4 ≤ nent → updates 1 fun i => if i = 0 then putBits (w 0) 0 2 3 else w i) ∧
          ((∀ j, ¬ hit j) → nent < 4 → updates 0 fun i => if i = 4 + 3 * nent then key else if i = 5 + 3 * nent then t else if i = 6 + 3 * nent then 0
            else if i = 0 then putBits (w 0) 0 5 (BitVec.ofNat 64 ((nent + 1) * 4 + (if nent = 0 then 1 else 2))) else w i))))) ∧
  (∀ (x : FmtR) (s s1 : State) (ws : List Word), s.Issues (.guard x) → checkAddr (s.gReg x.a.toNat) 128 s.atNpc = .ok ((), s.atNpc) →
    siteRead (s.gReg x.a.toNat) s.atNpc = .ok (ws, s1) →
    let live : Prop := (ws.getD 0 0).toNat % 4 = 1 ∨ (ws.getD 0 0).toNat % 4 = 2
    let at_ (j : Nat) : Prop := ws.getD (4 + 3 * j) 0 = s.gReg x.b.toNat
    let nent := min 4 ((ws.getD 0 0).toNat / 4 % 8)
    (∀ j, live → j < nent → at_ j → (∀ i, i < j → ¬ at_ i) → exec (.guard x) s = .next ((s1.result x.d (BitVec.ofNat 64 j)).finish (.guard x))) ∧
    ((¬ live ∨ ∀ j, j < nent → ¬ at_ j) → exec (.guard x) s = .next ((s1.result x.d (BitVec.allOnes 64)).finish (.guard x)))) ∧
  (∀ (x : FmtR) (s : State), s.Issues (.tagchk x) →
    let v := (s.gReg x.a.toNat).toNat
    let kind := if v % 8 = 0 then (if v ≠ 0 ∧ v % 16 = 0 ∧ v < 2 ^ 56 then 0 else 4) else if v % 8 = 1 then 1
      else if v % 8 = 2 then (if v / 8 ≤ 2 then 2 else 4) else if v % 8 = 3 then 3 else 4
    exec (.tagchk x) s = .next ((s.atNpc.result x.d (BitVec.ofNat 64 kind)).finish (.tagchk x))) ∧
  (∀ (x : FmtR) (s s1 : State) (h : Word), s.Issues (.detour x) →
    let r := (s.gReg x.a.toNat).toNat % 16
    ((r < 3 ∨ 8 < r) → exec (.detour x) s = .next (s.takeTrap 9 1 s.me.pc)) ∧
    (3 ≤ r → r ≤ 8 → s.atNpc.Reads [(s.myCc.dtvec + w64 (8 * r), h)] s1 → ∃ t, exec (.detour x) s = .next t ∧ t.me.pc = h ∧ t.mem = s1.mem ∧
      t.ccs = s1.ccs ∧ t.me.live = (s1.me.live &&& ~~~ (lastUse (.detour x)).1 &&& 0x5C) ||| 0x40A3 ∧
      ∀ m, t.gReg m = if m = 0 then BitVec.ofNat 64 r else if m = 1 then s.gReg x.b.toNat else if m = 5 ∨ m = 7 then 0
        else if m = 14 then s.myCc.nsp else s1.gReg m)) ∧
  (∀ (x : FmtR) (s : State), s.Issues (.detret x) →
    let g (n : Nat) := s.gReg n
    (∀ r ∈ [2, 3, 4, 14], s.me.live.getLsbD r = false → (∀ q ∈ [2, 3, 4, 14], q < r → s.me.live.getLsbD q = true) →
      exec (.detret x) s = .next (s.takeTrap 2 (BitVec.ofNat 64 r) s.me.pc)) ∧
    ((∀ r ∈ [2, 3, 4, 14], s.me.live.getLsbD r = true) →
      ((g 2).toNat % 8 ≠ 0 → exec (.detret x) s = .next (s.takeTrap 4 (g 2) s.me.pc)) ∧
      ((g 2).toNat % 8 = 0 → (g 4).toNat % 8 ≠ 0 → exec (.detret x) s = .next (s.takeTrap 4 (g 4) s.me.pc)) ∧
      ((g 2).toNat % 8 = 0 → (g 4).toNat % 8 = 0 → ∃ t, exec (.detret x) s = .next t ∧ t.mem = s.mem ∧ t.me.live = 0 ∧
        t.myCc = { s.myCc with vpc := g 2, vsp := g 3, vfr := g 4, nsp := g 14, bytecode := true })))

/-- R205, R206, R207, R214, R417, R421, R422, R423, R427. The completion statement of LDSLOT, STSLOT, RCINC, RCDEC, TWAIT and PLAUNCH.
TC_ENGERR 2 for a stslot value of no kind, and an object whose count falls to 0 entering the release queue whatever QUEUED holds, are the model's reading
(assumption 57). -/
def Obligations.RuntimeObjects : Prop :=
  ∀ (x : FmtR) (s : State),
    let A := s.gReg x.a.toNat
    let B := s.gReg x.b.toNat
    let C := s.gReg x.c.toNat
    let traps (op : Instr) (n : Word) : Prop := exec op s = .next (s.takeTrap 9 n s.me.pc)
    let i := B.toNat % 65536
    let slots (h : Word) : Nat := 2 * (h.toNat / 2 ^ 32 % 2 ^ 16) - 2
    let slot : Word := A + 16 + w64 (8 * i)
    (∀ op ∈ [Instr.ldslot x, .stslot x], s.Issues op →
      (B.toNat / 65536 % 65536 ≠ 0 → traps op 1) ∧
      (B.toNat / 65536 % 65536 = 0 → isPtr A = false → traps op 2) ∧
      (∀ s1 h, B.toNat / 65536 % 65536 = 0 → isPtr A = true → s.atNpc.Reads [(A, h)] s1 →
        (h.toNat % 2 ^ 32 ≠ B.toNat / 2 ^ 32 → traps op 3) ∧
        (h.toNat % 2 ^ 32 = B.toNat / 2 ^ 32 → slots h ≤ i → traps op 6))) ∧
    (∀ s1 h v, B.toNat / 65536 % 65536 = 0 → isPtr A = true → h.toNat % 2 ^ 32 = B.toNat / 2 ^ 32 → i < slots h →
      s.atNpc.Reads [(A, h), (slot, v)] s1 →
      (s.Issues (.ldslot x) → exec (.ldslot x) s = .next ((s1.result x.d v).finish (.ldslot x))) ∧
      (s.Issues (.stslot x) →
        (h.getLsbD 48 = true ∨ valueKind C = 4 → traps (.stslot x) 2) ∧
        (h.getLsbD 48 = false → valueKind C ≠ 4 →
          (s.rqFree s.ccNo < 4 → traps (.stslot x) 4) ∧
          (∀ s2, 4 ≤ s.rqFree s.ccNo → s1.Writes (countOf C true ++ [.xchg slot C] ++ countOf v false) s2 →
            exec (.stslot x) s = .next (s2.finish (.stslot x)))))) ∧
    (A.toNat % 8 ≠ 0 → (s.Issues (.rcinc x) → exec (.rcinc x) s = .next (s.atNpc.finish (.rcinc x))) ∧
      (s.Issues (.rcdec x) → exec (.rcdec x) s = .next (s.atNpc.finish (.rcdec x)))) ∧
    (A.toNat % 8 = 0 → isPtr A = false → ∀ op ∈ [Instr.rcinc x, .rcdec x], s.Issues op → traps op 2) ∧
    (s.Issues (.rcdec x) → isPtr A = true → s.rqFree s.ccNo < 4 → traps (.rcdec x) 4) ∧
    (∀ s1 k f, isPtr A = true → checkAddr A 16 s.atNpc = .ok ((), s.atNpc) → place A 16 .atomic s.atNpc = .ok (.key k f, s1) → k % 16 = 0 →
      (s1.load k 8).1.2 = false → ((s1.load k 8).2.load (k + 8) 8).1.2 = false →
      let w0 := s1.wordAt (k / 8)
      let w1 := s1.wordAt (k / 8 + 1)
      let rc := w1.toNat % 2 ^ 32
      let becomes (op : Instr) (a b : Word) : Prop := ∃ t, exec op s = .next t ∧ t.wordAt (k / 8) = a ∧ t.wordAt (k / 8 + 1) = b ∧
        (∀ j, (j < k ∨ k + 16 ≤ j) → t.byte j = s1.byte j) ∧ ∀ m, t.gReg m = s1.gReg m
      (s.Issues (.rcinc x) →
        (w0.getLsbD 49 = true → becomes (.rcinc x) w0 w1) ∧
        (w0.getLsbD 49 = false → rc = 2 ^ 32 - 1 → becomes (.rcinc x) (putBit w0 49 true) w1) ∧
        (w0.getLsbD 49 = false → rc ≠ 2 ^ 32 - 1 → becomes (.rcinc x) w0 (putBits w1 0 32 (BitVec.ofNat 64 (rc + 1))))) ∧
      (s.Issues (.rcdec x) → 4 ≤ s.rqFree s.ccNo →
        (w0.getLsbD 49 = true → becomes (.rcdec x) w0 w1) ∧
        (w0.getLsbD 49 = false → rc = 0 → becomes (.rcdec x) (putBit w0 51 true) w1) ∧
        (w0.getLsbD 49 = false → 2 ≤ rc → becomes (.rcdec x) w0 (putBits w1 0 32 (BitVec.ofNat 64 (rc - 1)))) ∧
        (∀ s2 s3, w0.getLsbD 49 = false → rc = 1 → s2 = ((s1.load k 8).2.load (k + 8) 8).2 →
          storeScalar (w64 (s.rqAddr s.ccNo)) 8 A false ((s2.store8 k (putBit w0 50 true)).store8 (k + 8) (putBits w1 0 32 0)) = .ok ((), s3) →
          s1.ccs = s.ccs → s1.cur = s.cur → exec (.rcdec x) s = .next ((s3.setMyCc s3.myCc.rqNext).finish (.rcdec x))))) ∧
    (∀ s1 s2 e, s.Issues (.twait x) → isTensor A s.atNpc = .ok (true, s1) → loadScalar (A + 0x60) 8 false true false s1 = .ok (e, s2) →
      (x.dt = 1 → exec (.twait x) s = .next ((s2.result x.d (BitVec.ofNat 64 (e.toNat % 256))).finish (.twait x))) ∧
      (x.dt ≠ 1 → e.toNat % 256 = 0 → exec (.twait x) s = .next (s2.finish (.twait x))) ∧
      (∀ h s3, x.dt ≠ 1 → e.toNat % 256 ≠ 0 → s2.Reads [(s2.myCc.dtvec + 64, h)] s3 → ∃ t, exec (.twait x) s = .next t ∧ t.me.pc = h ∧
        t.gReg 0 = 8 ∧ t.gReg 1 = A ∧ t.mem = s3.mem)) ∧
    (∀ s1, s.Issues (.twait x) → isTensor A s.atNpc = .ok (false, s1) → traps (.twait x) 2) ∧
    (s.Issues (.plaunch x) → A.toNat % 64 ≠ 0 → exec (.plaunch x) s = .next (s.takeTrap 4 A s.me.pc)) ∧
    (∀ p s1 s2 w l q room, s.Issues (.plaunch x) → A.toNat % 64 = 0 → x.d.toNat < 16 →
      portPlan (trapM tcEngerr 2) (trapM tcEngerr 5) A B (if C = 0 then none else some C) s.atNpc = .ok (p, s1) → p.wants = w ++ [.issue l q room] →
      s1.Writes w s2 →
      ∃ t, exec (.plaunch x) s = .next t ∧ t.mem = s2.mem ∧ t.gReg x.d.toNat = p.result ∧ t.myCc.objp = s1.myCc.objp + 0x90 ∧
        t.launch s2.fresh = l ∧ l.tmplAddr = A ∧ (l.st = .waiting ∨ l.st = .faulted))

/-- R204, R207, R217, R222, R402, R403, R407, R408, R409. The completion statement of end, ldi, ldsp, ldloc, stloc, ldglob, stglob, dup, pop, swap, ldsl,
stsl, mkobj and unpack, and of an unassigned byte (whose own effect is the detour BADOP of R416).
RELFULL before the other detours and the object in g1 for a slot index are the model's reading (assumption 53), and so is BADVAL for a copied value of no
kind (assumption 52). -/
def Obligations.BytecodeStack : Prop :=
  (∀ (s k k' : State) (i : Option Instr) (r : Nat) (g1 site key h : Word),
    (if r = 1 ∨ r = 2 then ∃ ws, siteRead site k = .ok (ws, k') ∧ h = ws.getD 1 0 else rd8 (k.myCc.dtvec + w64 (8 * r)) k = .ok (h, k')) →
    let t := s.detour k i r g1 site key
    t.me.pc = h ∧ t.me.live = 0x40FF ∧ t.mem = k'.mem ∧ t.myCc = { k'.myCc with bytecode := false } ∧
      t.gReg 0 = BitVec.ofNat 64 r ∧ t.gReg 1 = g1 ∧ t.gReg 2 = k'.myCc.vpc ∧ t.gReg 3 = k'.myCc.vsp ∧ t.gReg 4 = k'.myCc.vfr ∧ t.gReg 5 = site ∧
      t.gReg 6 = k'.myCc.vpc + 8 ∧ t.gReg 7 = key ∧ t.gReg 14 = k'.myCc.nsp) ∧
  (∀ s : State,
    let v := s.myCc
    let room : Prop := 4 ≤ s.rqFree s.ccNo
    let next (d : Int) (k : State) : CtlCore := { k.myCc with vpc := v.vpc + 8, vsp := v.vsp + BitVec.ofInt 64 d }
    let pushes (op : Instr) (s1 : State) (w : Word) (copy : Bool) : Prop := ∀ s2, s1.Writes (.put v.vsp w :: if copy then countOf w true else []) s2 →
      (∃ t, exec op s = .next t ∧ t.Left s2 (next 8 s2))
    let pushesCopy (op : Instr) (a : Word) : Prop := ∀ s1 w, s.Reads [(a, w)] s1 →
      (valueKind w ≠ 4 → pushes op s1 w true) ∧ (valueKind w = 4 → exec op s = .next (s.detour s1 (some op) 4 w 0 0))
    let pops (op : Instr) (a : Word) : Prop := room → ∀ s1 s2 w old, s.Reads [(v.vsp - 8, w), (a, old)] s1 → s1.Writes (.put a w :: countOf old false) s2 →
      (∃ t, exec op s = .next t ∧ t.Left s2 (next (-8) s2))
    let object (o h : Word) (n : Nat) : Prop := isPtr o = true ∧ h.getLsbD 48 = false ∧ n ≤ 2 * (h.toNat / 2 ^ 32 % 2 ^ 16) - 2
    (∃ t, exec .bcEnd s = .next t ∧ t.myCc = { v with on := false } ∧ t.mem = s.mem) ∧
    (∀ x : BitVec 16, pushes (.bcLdi x) s (BitVec.ofInt 61 x.toInt ++ 1#3) false) ∧
    (∀ n : BitVec 8, (n.toNat ≤ 2 → pushes (.bcLdsp n) s (w64 (8 * n.toNat + 2)) false) ∧
      (2 < n.toNat → exec (.bcLdsp n) s = .next (s.detour s (some (.bcLdsp n)) 3 0x09 0 0))) ∧
    (∀ n : BitVec 8, pushesCopy (.bcLdloc n) (v.vfr + w64 (8 * n.toNat)) ∧ pops (.bcStloc n) (v.vfr + w64 (8 * n.toNat))) ∧
    (∀ n : BitVec 16, pushesCopy (.bcLdglob n) (v.sitebase - w64 (8 * (n.toNat + 1))) ∧ pops (.bcStglob n) (v.sitebase - w64 (8 * (n.toNat + 1)))) ∧
    pushesCopy .bcDup (v.vsp - 8) ∧
    (room → ∀ s1 s2 w, s.Reads [(v.vsp - 8, w)] s1 → s1.Writes (countOf w false) s2 → (∃ t, exec .bcPop s = .next t ∧ t.Left s2 (next (-8) s2))) ∧
    (∀ s1 s2 p q, s.Reads [(v.vsp - 8, p), (v.vsp - 16, q)] s1 → s1.Writes [.put (v.vsp - 8) q, .put (v.vsp - 16) p] s2 →
      (∃ t, exec .bcSwap s = .next t ∧ t.Left s2 (next 0 s2))) ∧
    (∀ n : BitVec 8,
      let slot (o : Word) : Word := o + 16 + w64 (8 * n.toNat)
      (room → ∀ s1 s2 o h w, s.Reads [(v.vsp - 8, o), (o, h), (slot o, w)] s1 → object o h (n.toNat + 1) → valueKind w ≠ 4 →
        s1.Writes (.put (v.vsp - 8) w :: countOf w true ++ countOf o false) s2 → (∃ t, exec (.bcLdsl n) s = .next t ∧ t.Left s2 (next 0 s2))) ∧
      (room → ∀ s1 s2 o h w old, s.Reads [(v.vsp - 16, o), (v.vsp - 8, w), (o, h), (slot o, old)] s1 → object o h (n.toNat + 1) →
        s1.Writes (.xchg (slot o) w :: countOf old false ++ countOf o false) s2 → (∃ t, exec (.bcStsl n) s = .next t ∧ t.Left s2 (next (-16) s2))) ∧
      (room → ∀ s1 o h, s.Reads [(v.vsp - 8, o), (o, h)] s1 → isPtr o = true → ¬ object o h (n.toNat + 1) →
        exec (.bcLdsl n) s = .next (s.detour s1 (some (.bcLdsl n)) 4 o 0 0))) ∧
    (∀ (m : BitVec 16) (n : BitVec 8),
      let k := n.toNat
      let size := 1 + (k + 1) / 2
      (v.obje.toNat < v.objp.toNat + 16 * size → exec (.bcMkobj m n) s = .next (s.detour s (some (.bcMkobj m n)) 5 0 0 0)) ∧
      (v.objp.toNat + 16 * size ≤ v.obje.toNat → ∀ s1 s2 (vs : List Word), vs.length = k →
        s.Reads (vs.mapIdx fun i w => (v.vsp - w64 (8 * (k - 1 - i + 1)), w)) s1 →
        s1.Writes (.put v.objp (w64 (m.toNat + size * 2 ^ 32)) :: .put (v.objp + 8) 1 ::
          (if k % 2 = 1 then vs ++ [0x02] else vs).mapIdx (fun i w => .put (v.objp + 16 + w64 (8 * i)) w) ++ [.put (v.vsp - w64 (8 * k)) v.objp]) s2 →
        (∃ t, exec (.bcMkobj m n) s = .next t ∧ t.Left s2 { next (8 - 8 * k) s2 with objp := v.objp + w64 (16 * size) }))) ∧
    (∀ n : BitVec 8, room → ∀ s1 s2 o h (vs : List Word), vs.length = n.toNat → object o h n.toNat →
      s.Reads ((v.vsp - 8, o) :: (o, h) :: vs.mapIdx fun i w => (o + 16 + w64 (8 * i), w)) s1 → (∀ w ∈ vs, valueKind w ≠ 4) →
      s1.Writes (vs.mapIdx (fun i w => .put (v.vsp - 8 + w64 (8 * i)) w) ++ vs.flatMap (fun w => countOf w true) ++ countOf o false) s2 →
      (∃ t, exec (.bcUnpack n) s = .next t ∧ t.Left s2 (next (8 * n.toNat - 8) s2))) ∧
    (s.rqFree s.ccNo < 4 → ∀ n : BitVec 8, ∀ g : BitVec 16, ∀ op ∈ [Instr.bcPop, .bcStloc n, .bcStglob g, .bcLdsl n, .bcStsl n, .bcUnpack n],
      exec op s = .next (s.detour s (some op) 6 0 0 0)) ∧
    (∀ b : Byte, exec (.unassignedBytecode b) s = .next (s.detour s (some (.unassignedBytecode b)) 3 (b.setWidth 64) 0 0)))

/-- R220, R222, R403, R404, R410, R415. The completion statement of loopdec, br, brt, brf, forr, waitt, raise, try and untry. -/
def Obligations.BytecodeControl : Prop :=
  ∀ (s : State) (n : BitVec 8) (off : BitVec 16),
    let v := s.myCc
    let target := v.vpc + 8 + off.signExtend 64
    let goes (d : Int) (yes : Bool) (k : State) : CtlCore := { k.myCc with vpc := if yes then target else v.vpc + 8, vsp := v.vsp + BitVec.ofInt 64 d }
    let loc : Word := v.vfr + w64 (8 * n.toNat)
    let int (i : Int) : Word := BitVec.ofInt 61 i ++ 1#3
    let isInt (w : Word) : Prop := w.toNat % 8 = 1
    let val (w : Word) : Int := (w.extractLsb' 3 61).toInt
    (∀ s1 s2 w, s.Reads [(loc, w)] s1 → isInt w → s1.Writes [.put loc (int (val w - 1))] s2 →
      (∃ t, exec (.bcLoopdec n off) s = .next t ∧ t.Left s2 (goes 0 (w.extractLsb' 3 61 ≠ 1) s2))) ∧
    (∀ s1 w, s.Reads [(loc, w)] s1 → ¬ isInt w → ∀ op ∈ [Instr.bcLoopdec n off, .bcForr n off], exec op s = .next (s.detour s1 (some op) 4 w 0 0)) ∧
    (∃ t, exec (.bcBr off) s = .next t ∧ t.Left s (goes 0 true s)) ∧
    (∀ s1 w, s.Reads [(v.vsp - 8, w)] s1 →
      let yes : Prop := w = 0x12 ∨ (isInt w ∧ w ≠ 1)
      let no : Prop := w = 0x0A ∨ w = 0x02 ∨ w = 1
      (yes → (∃ t, exec (.bcBrt off) s = .next t ∧ t.Left s1 (goes (-8) true s1)) ∧ (∃ t, exec (.bcBrf off) s = .next t ∧ t.Left s1 (goes (-8) false s1))) ∧
      (no → (∃ t, exec (.bcBrt off) s = .next t ∧ t.Left s1 (goes (-8) false s1)) ∧ (∃ t, exec (.bcBrf off) s = .next t ∧ t.Left s1 (goes (-8) true s1))) ∧
      (¬ yes → ¬ no → ∀ op ∈ [Instr.bcBrt off, .bcBrf off], exec op s = .next (s.detour s1 (some op) 4 w 0 0))) ∧
    (∀ s1 c l, s.Reads [(loc, c), (v.vfr + w64 (8 * (n.toNat + 1)), l)] s1 → isInt c → isInt l →
      (∀ s2, val c < val l → s1.Writes [.put loc (int (val c + 1)), .put v.vsp (int (val c))] s2 → (∃ t, exec (.bcForr n off) s = .next t ∧ t.Left s2 (goes 8 false s2))) ∧
      (val l ≤ val c → (∃ t, exec (.bcForr n off) s = .next t ∧ t.Left s1 (goes 0 true s1)))) ∧
    (∀ s1 w, s.Reads [(v.vsp - 8, w)] s1 → exec .bcRaise s = .next (s.detour s1 (some .bcRaise) 8 w 0 0) ∧
      ∀ s2 h, rd8 (s1.myCc.dtvec + 64) s1 = .ok (h, s2) → ∃ t, exec .bcRaise s = .next t ∧ t.me.pc = h ∧ t.gReg 0 = 8 ∧ t.gReg 1 = w ∧
        t.gReg 2 = s2.myCc.vpc ∧ t.myCc = { s2.myCc with bytecode := false } ∧ t.mem = s2.mem) ∧
    (∀ s1 s2 w, s.Reads [(v.vsp - 8, w)] s1 → valueKind w ≠ 4 → isTensor w s1 = .ok (false, s2) → s2.ccs = s.ccs → s2.cur = s.cur →
      (∃ t, exec .bcWaitt s = .next t ∧ t.Left s2 (goes 0 false s2))) ∧
    (∀ s1 s2 s3 w e, s.Reads [(v.vsp - 8, w)] s1 → valueKind w ≠ 4 → isTensor w s1 = .ok (true, s2) →
      loadScalar (w + 0x60) 8 false true false s2 = .ok (e, s3) → s3.ccs = s.ccs → s3.cur = s.cur →
      (e.toNat % 256 = 0 → (∃ t, exec .bcWaitt s = .next t ∧ t.Left s3 (goes 0 false s3))) ∧
      (e.toNat % 256 ≠ 0 → exec .bcWaitt s = .next (s.detour s3 (some .bcWaitt) 8 w 0 0))) ∧
    (∀ s2, s.Writes [.put (v.vfr - 24) target, .put (v.vfr - 16) v.vsp] s2 → (∃ t, exec (.bcTry off) s = .next t ∧ t.Left s2 (goes 0 false s2))) ∧
    (∀ s2, s.Writes [.put (v.vfr - 24) 0] s2 → (∃ t, exec .bcUntry s = .next t ∧ t.Left s2 (goes 0 false s2)))

/-- R211, R213, R214, R221, R222, R405, R406, R411, R412, R413, R414, R415. The completion statement of add.s, sub.s, mul.s, div.s, mm.s, lt.s, le.s, eq.s,
neg.s, getattr.s, setattr.s, call.s, callb, ret and tlaunch. That BADOP is decided before RELFULL, and the other detours of a site after it, is the model's
reading (assumption 53). -/
def Obligations.BytecodeSitesAndCalls : Prop :=
  ∀ (s : State) (n : BitVec 16) (m : BitVec 8),
    let v := s.myCc
    let room : Prop := 4 ≤ s.rqFree s.ccNo
    let a : Word := v.sitebase + w64 (128 * n.toNat)
    let sited (k : State) : Prop := k.cur = s.cur ∧ k.curX = s.curX ∧ k.myCc = { v with sites := k.myCc.sites }
    (∀ op kind o1 two, (op, kind, o1, two) ∈ [(Instr.bcAddS n, 1, 1, true), (.bcSubS n, 1, 1, true), (.bcMulS n, 1, 1, true), (.bcDivS n, 1, 1, true),
        (.bcMmS n, 1, 1, true), (.bcLtS n, 1, 1, true), (.bcLeS n, 1, 1, true), (.bcEqS n, 1, 1, true), (.bcNegS n, 0, 0, false), (.bcGetattrS n, 2, 0, false),
        (.bcSetattrS n, 2, 1, true), (.bcCallS n m, 3, m.toNat, false)] →
      (v.siten.toNat ≤ n.toNat → exec op s = .next (s.detour s (some op) 3 (encode op &&& 0xFF) 0 0)) ∧
      (∀ ws s1, n.toNat < v.siten.toNat → siteRead a s = .ok (ws, s1) → sited s1 →
        (siteKind ws ≠ kind → exec op s = .next (s.detour s1 (some op) 3 (encode op &&& 0xFF) 0 0)) ∧
        (∀ p q s2 s3 key, siteKind ws = kind → (kind ≤ 1 → room) →
          s1.Reads ((v.vsp - w64 (8 * (o1 + 1)), p) :: if two then [(v.vsp - 8, q)] else []) s2 →
          siteKey p (if two then some q else none) s2 = .ok (key, s3) → sited s3 →
          let state := (ws.getD 0 0).toNat % 4
          let hit (j : Nat) : Prop := (state = 1 ∨ state = 2) ∧ j < min 4 ((ws.getD 0 0).toNat / 4 % 8) ∧ ws.getD (4 + 3 * j) 0 = key ∧
            ∀ i, i < j → ws.getD (4 + 3 * i) 0 ≠ key
          (state = 3 → exec op s = .next (s.detour s3 (some op) 2 (w64 n.toNat) a key)) ∧
          (state ≠ 3 → (∀ j, ¬ hit j) → exec op s = .next (s.detour s3 (some op) 1 (w64 n.toNat) a key)) ∧
          (∀ j, hit j →
            let t := ws.getD (5 + 3 * j) 0
            (t.getLsbD 63 = false → ∃ r, exec op s = .next r ∧ r.me.pc = t &&& 0x00FFFFFFFFFFFFFF ∧ r.myCc.bytecode = false ∧ r.mem = s3.mem ∧
              r.gReg 0 = 0 ∧ r.gReg 1 = w64 n.toNat ∧ r.gReg 2 = v.vpc ∧ r.gReg 3 = v.vsp ∧ r.gReg 4 = v.vfr ∧ r.gReg 5 = a ∧ r.gReg 6 = v.vpc + 8 ∧
              r.gReg 7 = key ∧ r.gReg 14 = v.nsp) ∧
            (∀ pl s4 s5 s6 w l sq area, t.getLsbD 63 = true → kind ≤ 1 →
              portPlan (badVal p) (detourM 5 0 0 0) (t &&& 0x00FFFFFFFFFFFFFF) p (if two then some q else none) s3 = .ok (pl, s4) → sited s4 →
              pl.wants = w ++ [.issue l sq area] → (s4.addHit a j).Writes w s5 → (s5.issueLaunch l sq area).Writes
                (.put (v.vsp - w64 (if two then 16 else 8)) pl.result :: countOf p false ++ if two then countOf q false else []) s6 →
              ∃ r, exec op s = .next r ∧ r.mem = s6.mem ∧ r.launches = s6.launches ∧ r.myCc.objp = v.objp + 0x90 ∧ r.myCc.vpc = v.vpc + 8 ∧
                r.myCc.vsp = (if two then v.vsp - 8 else v.vsp) ∧ l.tmplAddr = t &&& 0x00FFFFFFFFFFFFFF))))) ∧
    (∀ s1 s2 f h x y z (args : List Word),
      let at_ (i : Nat) : Word := v.vsp - w64 (8 * (i + 1))
      let pay (w : Word) : Int := (w.extractLsb' 3 61).toInt
      let entry := BitVec.ofInt 64 (pay x)
      let site := BitVec.ofInt 64 (pay y)
      let c := z.toNat / 8
      let nloc := c / 2 ^ 16 % 256
      isPtr f = true → h.getLsbD 48 = false → 3 ≤ 2 * (h.toNat / 2 ^ 32 % 2 ^ 16) - 2 → x.toNat % 8 = 1 → y.toNat % 8 = 1 → z.toNat % 8 = 1 →
      entry.toNat % 8 = 0 → site.toNat % 128 = 0 → c < 2 ^ 32 → c / 2 ^ 24 = m.toNat → m.toNat ≤ nloc → args.length = m.toNat →
      s.Reads ((at_ m.toNat, f) :: (f, h) :: (f + 16, x) :: (f + 24, y) :: (f + 32, z) :: args.mapIdx fun i w => (at_ (m.toNat - 1 - i), w)) s1 →
      s1.Writes (([v.vpc + 8, at_ m.toNat, v.vfr, v.sitebase, w64 (nloc * 2 ^ 16 + v.siten.toNat % 2 ^ 16), 0, 0, f] ++ args ++
        List.replicate (nloc - m.toNat) 0x02).mapIdx fun i w => .put (v.vsp + w64 (8 * i)) w) s2 →
      (∃ t, exec (.bcCallb m) s = .next t ∧ t.Left s2 { s2.myCc with
        vfr := v.vsp + 64, vsp := v.vsp + 64 + w64 (8 * nloc), vpc := entry, sitebase := site, siten := w64 (c % 2 ^ 16) })) ∧
    (∀ s1, s.Reads [(v.vfr - 64, 0)] s1 → ∃ t, exec .bcRet s = .next t ∧ t.myCc = { v with on := false } ∧ t.mem = s1.mem) ∧
    (∀ s1 s2 rpc h rsp rfr rsb x f (ls : List Word),
      let nloc := h.toNat / 2 ^ 16 % 256
      rpc ≠ 0 → v.vsp = v.vfr + w64 (8 * nloc) + 8 → max 4 (nloc + 2) ≤ s.rqFree s.ccNo → ls.length = nloc →
      s.Reads ([(v.vfr - 64, rpc), (v.vfr - 32, h), (v.vfr - 56, rsp), (v.vfr - 48, rfr), (v.vfr - 40, rsb), (v.vsp - 8, x)] ++
        (ls.mapIdx fun i w => (v.vfr + w64 (8 * i), w)) ++ [(v.vfr - 8, f)]) s1 →
      s1.Writes (.put rsp x :: (ls ++ [f]).flatMap fun w => countOf w false) s2 →
      (∃ t, exec .bcRet s = .next t ∧ t.Left s2 { s2.myCc with vpc := rpc, vfr := rfr, sitebase := rsb, siten := w64 (h.toNat % 2 ^ 16), vsp := rsp + 8 })) ∧
    (∀ s1 s2 s3 s4 g p q pl w l sq area, room → g.toNat % 8 = 1 →
      let t := BitVec.ofInt 64 (g.extractLsb' 3 61).toInt
      t.toNat % 64 = 0 → valueKind q ≠ 4 → s.Reads [(v.sitebase - w64 (8 * (n.toNat + 1)), g), (v.vsp - 16, p), (v.vsp - 8, q)] s1 →
      portPlan (badVal p) (detourM 5 0 0 0) t p (some q) s1 = .ok (pl, s2) → sited s2 →
      pl.wants = w ++ [.issue l sq area] → s2.Writes w s3 →
      (s3.issueLaunch l sq area).Writes (.put (v.vsp - 16) pl.result :: countOf p false ++ countOf q false) s4 →
      ∃ r, exec (.bcTlaunch n) s = .next r ∧ r.mem = s4.mem ∧ r.launches = s4.launches ∧ r.myCc.objp = v.objp + 0x90 ∧ r.myCc.vpc = v.vpc + 8 ∧
        r.myCc.vsp = v.vsp - 8 ∧ l.tmplAddr = t)

/-- R13, R15, R20 to R23, R25, R26, R28, R29, R31, R35, R78, R232. The completion statement of the steps of power, temperature, checkpoints and the
register windows. The parameters of a step stand in `inp`. The model's own: HBM and the pools read as 0 after a loss of power (assumption 1), what answers
while the module is off or tripped (assumption 42), the waits, images and failures of checkpoints (assumption 43), the clock after a change of profile and
what a loss of power resets (assumption 51), the step of each power window (assumption 78), and the directory that a write of QDIR_BASE moves
(assumption 41). -/
def Obligations.PowerEvents : Prop :=
  ∀ s : State,
    let p := s.power
    let n := s.inp.n
    let v := s.inp.v
    let force (q : Power) : Nat := max q.sel (max q.maxp (if q.therm then 2 else 0))
    let clock (c : Nat) : Nat := if c = 0 then 16 else if c = 1 then 14 else 11
    let inForce (t : State) (q : Power) : Prop :=
      t = { s with power := t.power } ∧ t.power.sel = q.sel ∧ t.power.maxp = q.maxp ∧ t.power.therm = q.therm ∧ t.power.trip = q.trip ∧
      t.power.cur = force q ∧ (s.service = .reduced → t.power.clk = 8) ∧
      (s.service = .full → t.power.clk = clock (force q) - (if force q = q.cur then q.lowered else 0))
    let runs : Prop := s.ckpt.status = 1 ∨ s.ckpt.status = 2 ∨ s.ckpt.status = 7
    let status (x : Nat) : State := { s with ckpt := { s.ckpt with status := x } }
    let asked (x : Nat) : State := { s with ckpt := { s.ckpt with status := x, restored := false } }
    let keptOff (t : State) (c : Counters) : Prop := t.service = .off ∧ t.launches = [] ∧ t.queues = [] ∧ t.pasids = [] ∧ t.flash = c ∧
      t.counters = c ∧ t.ckpt.seq = s.ckpt.seq ∧ t.ckpt.good = s.ckpt.good ∧ (∀ k, (isTier k = true ∨ 2 ^ 64 ≤ k) → t.byte k = s.byte k) ∧
      ∀ k, (isHbm k = true ∨ isPool k = true) → t.byte k = 0
    let counted : Counters := { s.counters with
      temp := addBins s.counters.temp 0 (s.inp.data.take 25), droop := addBins s.counters.droop 0 ((s.inp.data.drop 25).take 15) }
    (s.serving = true →
      (exec .pwrCtlSel s = .next (if v.toNat % 4 = 3 then s else { s with power := { p with sel := v.toNat % 4, pending := true } })) ∧
      (p.pending = true → ∃ t, exec .profileChange s = .next t ∧ inForce t p) ∧
      (s.service = .full → s.inp.flag = true → 1 < p.clk → exec .powerLimitWindow s = .next { s with power := { p with
        lowered := p.lowered + 1, clk := p.clk - 1 } }) ∧
      (s.service = .full → s.inp.flag = false → 0 < p.lowered → exec .powerLimitWindow s = .next { s with power := { p with
        lowered := p.lowered - 1, clk := p.clk + 1 } }) ∧
      (s.service = .reduced → exec .powerLimitWindow s = .next s ∧ ∃ t, exec .fullService s = .next t ∧ t.service = .full ∧
        (s.ckpt.status ≠ 1 → t = { s with service := .full, power := t.power }) ∧ t.power.cur = force p ∧
        t.power.clk = clock (force p) - (if force p = p.cur then p.lowered else 0)) ∧
      (p.therm = false → ∃ t, exec .thermalThrottle s = .next t ∧ inForce t { p with therm := true }) ∧
      (p.therm = true → ∃ t, exec .thermalRecover s = .next t ∧ inForce t { p with therm := false }) ∧
      exec .thermalTrip s = .next { s with service := .tripped, power := { p with trip := true }, msix := s.msix ++ [s.mgmtVec.toNat] } ∧
      (n < 6 → s.tierFailed.contains n = false → s.evq.length < 4096 → s.migrations = [] → ¬ runs → exec .tierPortFail s = .next { s with
        tierFailed := n :: s.tierFailed, evSeq := s.evSeq + 1, evq := s.evq ++ [
          { etype := 7, qid := none, arg0 := 9, arg1 := BitVec.ofNat 64 n, arg2 := ofBool s.inp.flag, seq := s.evSeq.toNat }] }) ∧
      (s.flashedAt + 600000000 ≤ s.us → exec .counterUpdate s = .next { s with counters := counted, flash := counted, flashedAt := s.us }) ∧
      (s.us < s.flashedAt + 600000000 → exec .counterUpdate s = .next s) ∧
      (¬ runs → s.service = .reduced → exec .ckptStart s = .next { s with ckpt := { s.ckpt with status := 1, backed := [], drained := [] } }) ∧
      (¬ runs → s.service = .full → s.launches = [] → ∃ t, exec .ckptStart s = .next t ∧ t = { s with ckpt := t.ckpt } ∧
        t.ckpt = { s.ckpt with backed := s.backedFrames, drained := [], status := t.ckpt.status } ∧
        (s.ckpt.seq = 0 → t.ckpt.status = if s.ckptFrames < hbmFrames - (s.backedFrames.map Prod.fst).eraseDups.length then 5 else 2) ∧
        (s.ckpt.seq ≠ 0 → t.ckpt.status = if s.ckptRoom < s.ckptPages s.backedFrames then 5 else 2)) ∧
      (∀ u l, ¬ runs → s.service = .full → s.launches = [(u, l)] → l.st = .running → s.hasDependent u = false → ∃ t, exec .ckptStart s = .next t ∧
        t.ckpt.status = 1 ∧ t.ckpt.drained = [u] ∧ (t.launch u).st = .draining ∧ (t.launch u).grace = s.us) ∧
      (let work : Prop := (∃ e ∈ s.launches, e.2.st ≠ .saved ∧ e.2.st ≠ .waiting) ∨ (∃ e ∈ s.slots, e.2.st ≠ 0) ∨ ∃ e ∈ s.ccs, e.2.on = true;
        (¬ runs → work → exec .ckptRestore s = .next (asked 10)) ∧
        (¬ runs → ¬ work → s.ckpt.seq = 0 → exec .ckptRestore s = .next (asked 9)) ∧
        (¬ runs → ¬ work → s.ckpt.seq ≠ 0 → exec .ckptRestore s = .next (asked 7)) ∧
        (runs → exec .ckptRestore s = .next s ∧ exec .ckptStart s = .next s)) ∧
      ((s.ckpt.status = 1 ∨ s.ckpt.status = 2) → exec .ckptAbort s = .next (status 6)) ∧
      (s.ckpt.status = 7 → ∃ t, exec .ckptAbort s = .next t ∧ t.ckpt.status = 6 ∧ t.ckpt.stopped = true) ∧
      (s.ckpt.status = 2 → s.tierFailed ≠ [] → exec .checkpointComplete s = .next (status 4)) ∧
      (s.ckpt.status = 2 → s.tierFailed = [] → ∃ t, exec .checkpointComplete s = .next t ∧ t.mem = s.mem ∧ ((∀ e ∈ s.hard, isHbm (e.1 * 8) = false) → t = { s with ckpt := t.ckpt }) ∧
        t.ckpt.status = 3 ∧ t.goodImage.refs = s.ckpt.backed ∧ t.goodImage.drained = s.ckpt.drained ∧
        t.ckpt.seq = s.ckpt.seq + 1 ∧ t.ckpt.good = (if s.ckpt.seq = 0 then false else !s.ckpt.good) ∧ t.ckpt.written = [] ∧
        ((∀ f, s.byRef f = false) → t.goodImage.cells = s.mem.filter (fun e => isHbm e.1 && !(s.ckpt.backed.any fun b => b.1 = e.1 / 65536)))) ∧
      (s.ckpt.status = 7 → s.service = .reduced → exec .restoreComplete s = .next s) ∧
      (s.ckpt.status = 7 → s.service ≠ .reduced → s.ckpt.restored = false → s.tierFailed ≠ [] → ∃ t, exec .restoreComplete s = .next t ∧
        t.ckpt.status = 4 ∧ t.ckpt.stopped = true) ∧
      (s.ckpt.status = 7 → s.service ≠ .reduced → s.ckpt.restored = false → s.tierFailed = [] → s.goodImage.drained = [] →
        s.goodImage.launches = [] → s.launches = [] → s.goodImage.cells = [] → s.goodImage.refs = [] → ∃ t, exec .restoreComplete s = .next t ∧
        t.ckpt.status = 8 ∧ t.ckpt.stopped = false ∧ (∀ k, isHbm k = true → t.byte k = 0) ∧ ∀ k, isHbm k = false → t.byte k = s.byte k) ∧
      (n < 4096 → Tbl.get 0 s.scrubbed n + 2 ^ 26 ≤ s.now → ∃ t, exec .sramScrub s = .next t ∧ Tbl.get 0 t.scrubbed n = s.now ∧ t.mem = s.mem ∧
        ∀ k, poolKey n 0 ≤ k * 8 → k * 8 < poolKey (n + 1) 0 → Tbl.get false t.soft k = false ∧ Tbl.get false t.hard k = false ∧
          Tbl.get false t.poison k = (Tbl.get false s.poison k || Tbl.get false s.hard k)) ∧
      (s.inp.flag = true → n < 6 → s.inp.m = 0 → exec .linkRetry s = .next { s with
        counters := { s.counters with tierRetry := Tbl.set 0 s.counters.tierRetry n (Tbl.get 0 s.counters.tierRetry n + 1) } }) ∧
      (s.inp.flag = false → n < s.scaleOutPorts → exec .linkRetry s = .next { s with
        counters := { s.counters with soRetry := Tbl.set 0 s.counters.soRetry n (Tbl.get 0 s.counters.soRetry n + 1) } }) ∧
      (∃ t, exec .orderlyShutdown s = .next t ∧ keptOff t counted)) ∧
    (∃ t, exec .powerLoss s = .next t ∧ keptOff t s.flash) ∧
    (s.inp.flag = true → ∃ t, exec .powerOn s = .next t ∧ t.service = .badImage) ∧
    (s.inp.flag = false → v.toNat % 64 = 0 → ∃ t, exec .powerOn s = .next t ∧ t.service = .reduced ∧ t.power.clk = 8 ∧ t.power.sel = 0 ∧
      t.power.cur = 2 ∧ t.flash = s.flash ∧ t.nextImage = none ∧ (s.nextImage ≠ none → t.fwImage = s.nextImage) ∧ t.tierFailed = [] ∧
      ∀ k, k < 16 → (t.fw k).up = true) ∧
    (s.inp.m ≠ 8 ∨ n % 8 ≠ 0 → exec .registerWrite s = .next s) ∧
    (s.inp.m = 8 → s.inp.space = .bar0 →
      (s.service = .off ∨ s.service = .tripped → exec .registerWrite s = .next s) ∧
      (s.serving = true → n = 0x1000 → v.toNat % 4 ≠ 3 →
        exec .registerWrite s = .next { s with power := { p with sel := v.toNat % 4, pending := true } }) ∧
      (s.serving = true → n = 0x1010 → exec .registerWrite s = .next { s with mgmtVec := v.setWidth 11 }) ∧
      (n = 0 ∨ n = 8 → exec .registerWrite s = .next s)) ∧
    (∀ c, s.inp.m = 8 → s.inp.space = .control c → c < 16 → s.serving = true →
      (n = 0x98 → exec .registerWrite s = .next (s.setFw c { s.fw c with xarg := v })) ∧
      (n = 0x1000 → exec .registerWrite s = .next (s.moveDir c v)) ∧
      (n = 0x008 → exec .registerWrite s = .next s)) ∧
    (s.serving = false → ∀ i ∈ [Instr.fullService, .pwrCtlSel, .profileChange, .powerLimitWindow, .thermalThrottle, .thermalRecover, .thermalTrip,
      .tierPortFail, .counterUpdate, .ckptStart, .ckptRestore, .ckptAbort, .checkpointComplete, .restoreComplete, .sramScrub, .orderlyShutdown,
      .linkRetry], exec i s = .next s)

/-- R19, R29, R34 to R37, R56, R59, R60, R74, R75, R95, R96, R128, R201, R221, R316. The completion statement of the management commands. `W i` is
word i of the captured request; a reply is described by its first clause. The model's own: the order of the codes where several apply (assumption 81 for
QREG, 106 for the others, 58 for OLOAD), the work that a QDEREG or a PASID_REL aborts before it answers (assumptions 45 and 46), the range of
a deletion (assumption 47), DBGCTL's order of actions (assumption 48), the counters that CTRREAD gives (assumption 49), ids and addresses of the firmware's own choosing
(assumption 50), a CCSTART that waits for a failed restore (assumption 43), the version that FWUPDATE compares (assumption 80), the signature
algorithms (assumption 76), and a second OUNLOAD (assumption 107). -/
def Obligations.CommandEvents : Prop :=
  (∀ (s : State) (k st : Nat) (ws : List Word), s.reply k st ws = { s with cmds := (s.reply k st ws).cmds } ∧ ((s.reply k st ws).cmd k).served = true ∧
    ((s.reply k st ws).cmd k).st = (s.cmd k).st ∧ Tbl.get 0 ((s.reply k st ws).cmd k).rsp 0 = BitVec.ofNat 64 st ∧
    ∀ i w, ws[i]? = some w → Tbl.get 0 ((s.reply k st ws).cmd k).rsp (i + 1) = w) ∧
  ∀ s : State,
    let k := s.inp.n
    let c := s.cmd k
    let W (i : Nat) : Word := Tbl.get 0 c.cap i
    let ready (code : Nat) : Prop := s.serving = true ∧ k < 64 ∧ c.st = 1 ∧ c.served = false ∧ (W 0).toNat % 2 ^ 16 = code
    let asked (code : Nat) (masks : List Word) : Prop :=
      ready code ∧ (W 0).toNat < 2 ^ 17 ∧ ∀ i m, masks[i]? = some m → W (i + 1) &&& ~~~m = 0
    let tells (i : Instr) (st : Nat) (ws : List Word) : Prop := exec i s = .next (s.reply k st ws)
    let does (i : Instr) (ws : List Word) (p : State → Prop) : Prop := ∃ t, exec i s = .next (t.reply k 0 ws) ∧ p t
    let live (p : Nat) : Prop := s.enabled p = true
    let p1 := (W 1).toNat % 2 ^ 20
    let p2 := (W 2).toNat % 2 ^ 20
    let q := (W 1).toNat % 2 ^ 12
    let u := s.queue q
    let stopped (t : State) : Prop := (t.queue q).state = 2 ∧ (t.queue q).err = 6 ∧ ∀ e ∈ s.launches, e.2.ofQueue q = true → (t.launch e.1).st = .faulted
    -- capture, completion, reserved bits
    (k < 64 → c.st ≠ 1 → s.serving = true → s.evq.length < 4096 → ∃ t, exec .mgo s = .next t ∧
      t.cmd k = { c with cap := c.req, st := 1, seq := c.seq + 1, served := false } ∧ t.evq = s.evq ++ [
        { etype := 8, qid := none, arg0 := BitVec.ofNat 64 k, arg1 := 0, arg2 := 0, seq := s.evSeq.toNat }]) ∧
    (c.st = 1 → exec .mgo s = .next s) ∧
    (let j := s.inp.v.toNat % 64;
      (s.serving = true → (s.cmd j).st = 1 → exec .mgDone s = .next { s.setCmd j { s.cmd j with st := 2 } with
        msix := if (Tbl.get 0 (s.cmd j).cap 0).getLsbD 16 then s.msix ++ [s.mgmtVec.toNat] else s.msix }) ∧
      ((s.cmd j).st ≠ 1 → exec .mgDone s = .next s)) ∧
    (∀ e ∈ [(0x01, Instr.qreg), (0x02, .qdereg), (0x03, .qstop), (0x04, .qresume), (0x05, .qbudget), (0x06, .pasidEn), (0x07, .pasidRel),
        (0x10, .oload), (0x11, .ounload), (0x20, .ccstart), (0x21, .ccstop), (0x30, .onrbindBind), (0x30, .onrbindUnbind), (0x31, .rwsetDefine),
        (0x31, .rwsetDelete), (0x40, .dbgctlSetHalt), (0x40, .dbgctlClearHalt), (0x40, .dbgctlResume), (0x50, .attest), (0x51, .ctrread), (0x52, .fwupdate)],
      (ready e.1 → 2 ^ 17 ≤ (W 0).toNat → tells e.2 254 []) ∧
      (¬ (c.st = 1 ∧ c.served = false ∧ (W 0).toNat % 2 ^ 16 = e.1) → exec e.2 s = .next s)) ∧
    -- queues
    (asked 0x01 [0xFFFFFFFFFC000000] →
      let n : UQueue := { record := BitVec.ofNat 256 (joinWords [W 1, W 2, W 3, W 4]) }
      let bad : Prop := n.cpl % 16 ≠ 0 ∨ n.ridxWb % 8 ≠ 0 ∨ n.ring % 64 ≠ 0 ∨ fld n.record 43 39 < 6 ∨ 16 < fld n.record 43 39
      (bad → tells .qreg 1 []) ∧
      (¬ bad → (∀ j, j < 4096 → (s.queue j).state ≠ 0) → tells .qreg (if Config.vectorEnabled n.vec then 2 else 1) []) ∧
      (∀ j, ¬ bad → j < 4096 → (s.queue j).state = 0 → (∀ i, i < j → (s.queue i).state ≠ 0) →
        (¬ live n.pasid → tells .qreg (if Config.vectorEnabled n.vec then 3 else 1) []) ∧
        (live n.pasid → ∃ t : State, exec .qreg s = .next (if Config.vectorEnabled n.vec then t.reply k 0 [BitVec.ofNat 64 j] else s.reply k 1 []) ∧
          t.queue j = { n with state := 1, gen := Tbl.get 0 s.gens j + 1, sched := BitVec.ofNat 64 (n.prio * 4 ||| n.prio) } ∧
          Tbl.get 0 t.gens j = Tbl.get 0 s.gens j + 1 ∧ ∀ i, i ≠ j → t.queue i = s.queue i))) ∧
    (asked 0x02 [0xFFF] →
      (u.state = 0 → tells .qdereg 1 []) ∧
      (u.state ≠ 0 → s.queueWorks q = false → does .qdereg [] fun t => t.queue q = {} ∧ (∀ i, i ≠ q → t.queue i = s.queue i) ∧ t.launches = s.launches) ∧
      (u.state = 1 → s.queueWorks q = true → ∃ t, exec .qdereg s = .next t ∧ stopped t ∧ t.cmds = s.cmds)) ∧
    (asked 0x03 [0xFFF] →
      (u.state = 0 → tells .qstop 1 []) ∧ (u.state ≠ 0 → u.state ≠ 1 → tells .qstop 2 []) ∧ (u.state = 1 → does .qstop [] stopped)) ∧
    (asked 0x04 [0xFFF] →
      (u.state = 0 → tells .qresume 1 []) ∧ (u.state ≠ 0 → u.state ≠ 2 → tells .qresume 2 []) ∧
      (u.state = 2 → does .qresume [] fun t => t.queue q = { u with state := 1, err := 0 } ∧ t.mem = s.mem)) ∧
    (asked 0x05 [0xFFFFF, 0x7F] →
      let b := (W 2).toNat % 128
      ((b = 0 ∨ 64 < b) → tells .qbudget 254 []) ∧ (b ≠ 0 → b ≤ 64 → ¬ live p1 → tells .qbudget 1 []) ∧
      (b ≠ 0 → b ≤ 64 → live p1 → exec .qbudget s = .next ({ s with budgets := Tbl.put s.budgets p1 b }.reply k 0 []))) ∧
    -- PASIDs and loads
    (asked 0x06 [0xFFFFF] →
      (p1 ∈ s.pasids → tells .pasidEn 1 []) ∧ (p1 ∉ s.pasids → p1 = 0 → tells .pasidEn 2 []) ∧
      (p1 ∉ s.pasids → p1 ≠ 0 → does .pasidEn [] fun t => t.pasids = p1 :: s.pasids)) ∧
    (asked 0x07 [0xFFFFF] →
      (c.begun = true → exec .pasidRel s = .next s) ∧ (c.begun = false → ¬ live p1 → tells .pasidRel 1 []) ∧
      (c.begun = false → live p1 → ∃ t, exec .pasidRel s = .next t ∧ p1 ∈ t.dying ∧ (t.cmd k).begun = true ∧ (t.cmd k).served = false ∧
        (∀ n, n < 64 → (t.cc n).on = true → (t.cc n).pasid ≠ p1) ∧
        (∀ e ∈ s.queues, e.2.pasid = p1 → (e.2.state = 1 ∨ e.2.state = 2) → (t.queue e.1).state = 3 ∧ (t.queue e.1).err = 6) ∧
        (∀ e ∈ s.launches, e.2.pasid = p1 → (t.launch e.1).st = .faulted) ∧ ∀ e ∈ t.rwins, e.2.pasid ≠ p1)) ∧
    (s.serving = true → k < 64 → c.begun = true → (∀ e ∈ s.launches, e.2.pasid ≠ p1) → (∀ e ∈ s.copies, e.2.pasid = p1 → e.2.st = .ended ∨ e.2.st = .aborted) →
      (∀ e ∈ s.atsInv, e.2.pasid ≠ p1) → (∀ e ∈ s.queues, e.2.pasid = p1 → e.2.state = 3 → ∀ w ∈ e.2.win, w.2.launched = false) →
      does .pasidRelComplete [] fun t => t.pasids = s.pasids.filter (· ≠ p1) ∧ p1 ∉ t.dying ∧ (∀ e ∈ t.tlb, e.pasid ≠ p1) ∧
        (∀ e ∈ t.tickets, e.2.pasid ≠ p1) ∧ t.mem = s.mem) ∧
    (asked 0x10 [0xFFFFFFFFFFFFFFFF, 0xFFFFF, 0xFFFFFFFFFFFFFFFF, 0x1FF] → c.ticket = none →
      ((¬ live p2 ∨ 256 < (W 4).toNat ∨ (W 1).toNat % 64 ≠ 0) → tells .oload 254 []) ∧
      (live p2 → (W 4).toNat ≤ 256 → (W 1).toNat % 64 = 0 →
        match (ldAll { slot := k, pasid := p2, base := (W 1).toNat } (W 3).toNat (W 4).toNat (W 5).toNat s.loads).run s with
        | .error (.later t) => exec .oload s = .next t
        | .error (.refuse code) => exec .oload s = .next ({ s with loads := s.loads + 1 }.reply k code [])
        | .ok ((secs, tmpls), s1) => does .oload [Config.loadHandle s.loads] fun t => t.loads = s.loads + 1 ∧ t.handles = s1.handles ++ [
            { handle := Config.loadHandle s.loads, pasid := p2, templates := tmpls, sections := secs.map fun e => (e.2.1, e.1.span) }])) ∧
    (asked 0x11 [] →
      ((∀ h ∈ s.handles, h.handle = W 1 → h.unloading = true) → tells .ounload 1 []) ∧
      ((∃ h ∈ s.handles, h.handle = W 1 ∧ h.unloading = false) → does .ounload [] fun t =>
        (∀ h ∈ t.handles, h.handle = W 1 → h.unloading = true) ∧ (∀ h ∈ s.handles, h.handle ≠ W 1 → h.unloading = false → h ∈ t.handles) ∧
        (s.launches = [] → s.queues = [] → ∀ h ∈ t.handles, h.handle ≠ W 1))) ∧
    -- control cores and on-ramps
    (asked 0x20 [0x13F, 0xFFFFF] →
      let n := (W 1).toNat % 64
      let v := s.cc n
      (v.on = true → tells .ccstart 1 []) ∧ (v.on = false → ¬ live p2 → tells .ccstart 2 []) ∧
      (v.on = false → live p2 → (W 3).toNat % 8 ≠ 0 → tells .ccstart 3 []) ∧
      (v.on = false → live p2 → (W 3).toNat % 8 = 0 → s.service = .reduced → 8 ≤ n → tells .ccstart 4 []) ∧
      (v.on = false → live p2 → (W 3).toNat % 8 = 0 → (s.service = .full ∨ n < 8) → s.ckpt.stopped = true → exec .ccstart s = .next s) ∧
      (v.on = false → live p2 → (W 3).toNat % 8 = 0 → (s.service = .full ∨ n < 8) → s.ckpt.stopped = false → does .ccstart [] fun t =>
        let native := (W 1).getLsbD 8
        let x := t.ctx (ctxKey (.cc n) 0)
        (t.cc n).on = true ∧ (t.cc n).pasid = p2 ∧ (t.cc n).bytecode = !native ∧ (t.cc n).nsp = W 4 ∧ (t.cc n).rqidx = 0 ∧ (t.cc n).seq = 0 ∧
        (native = false → (t.cc n).vpc = W 3) ∧ x.st = .running ∧ (∀ i, x.g = [] ∨ (native = true ∧ (i ≠ 14 → Tbl.get 0 x.g i = 0))) ∧
        (native = true → x.pc = W 3 ∧ Tbl.get 0 x.g 14 = W 4 ∧ x.live = 0x4000) ∧ t.mem = s.mem)) ∧
    (asked 0x21 [0x3F] →
      let n := (W 1).toNat % 64
      let v := s.cc n
      (v.on = false → tells .ccstop 1 []) ∧
      (v.on = true → does .ccstop [if v.bytecode then v.vpc else (s.ctx (ctxKey (.cc n) 0)).pc, if v.bytecode then 0 else 1] fun t =>
        t.cc n = { v with on := false } ∧ t.mem = s.mem)) ∧
    (asked 0x30 [0x11F, 0xFFFFF, 0xFFFFFFFFFFFFFFFF, 0xFFFFFFFFFFFFFFFF] →
      let n := (W 1).toNat % 32
      let v := s.streamer n
      let off : Prop := (W 3).toNat % 64 ≠ 0 ∨ 65536 < (W 4).toNat
      let theirs : Prop := v.bound = true ∧ v.pasid ≠ p2
      ((W 1).getLsbD 8 = false →
        (off → tells .onrbindBind 254 []) ∧ (¬ off → ¬ live p2 → tells .onrbindBind 1 []) ∧ (¬ off → live p2 → theirs → tells .onrbindBind 2 []) ∧
        (¬ off → live p2 → ¬ theirs → exec .onrbindBind s = .next ((s.setStreamer n { v with
          bound := true, pasid := p2, tbase := W 3, tcount := (W 4).toNat }).reply k 0 []))) ∧
      ((W 1).getLsbD 8 = true →
        (¬ live p2 → tells .onrbindUnbind 1 []) ∧ (live p2 → theirs → tells .onrbindUnbind 2 []) ∧
        (live p2 → ¬ theirs → s.idle n = false → exec .onrbindUnbind s = .next s) ∧
        (live p2 → ¬ theirs → s.idle n = true → exec .onrbindUnbind s = .next ((s.setStreamer n { v with
          bound := false, pasid := 0, tbase := 0, tcount := 0 }).reply k 0 [])))) ∧
    (asked 0x31 [0x1FFFF, 0xFFFFF, 0xFFFFFFFFFFFFFFFF, 0xFFFFFFFFFFFFFFFF, 0x1FFFFF] →
      let w := (W 1).toNat % 65536
      let off : Prop := (W 3).toNat % 65536 ≠ 0 ∨ (W 4).toNat % 65536 ≠ 0 ∨ W 4 = 0 ∨ 2 ^ 40 < (W 4).toNat
      ((W 1).getLsbD 16 = false →
        (off → tells .rwsetDefine 254 []) ∧ (¬ off → ¬ live p2 → tells .rwsetDefine 1 []) ∧
        (¬ off → live p2 → Tbl.find s.rwins w ≠ none → tells .rwsetDefine 2 []) ∧
        (¬ off → live p2 → Tbl.find s.rwins w = none → exec .rwsetDefine s = .next ({ s with rwins := Tbl.put s.rwins w {
          pasid := p2, base := (W 3).toNat, len := (W 4).toNat, put := (W 5).getLsbD 0, get := (W 5).getLsbD 1, any := (W 5).getLsbD 2
          modId := (W 5).toNat / 8 % 2 ^ 18 } }.reply k 0 []))) ∧
      ((W 1).getLsbD 16 = true →
        (Tbl.find s.rwins w = none → tells .rwsetDelete 3 []) ∧ (Tbl.find s.rwins w ≠ none → s.windowUsed w = true → exec .rwsetDelete s = .next s) ∧
        (Tbl.find s.rwins w ≠ none → s.windowUsed w = false → exec .rwsetDelete s = .next ({ s with rwins := Tbl.del s.rwins w }.reply k 0 [])))) ∧
    -- the debugger, identity, counters, updates
    (asked 0x40 [0x1FFFF, 7] →
      let op : Instr := if (W 2).getLsbD 0 then .dbgctlSetHalt else if (W 2).getLsbD 1 then .dbgctlClearHalt else if (W 2).getLsbD 2 then .dbgctlResume
        else .dbgctlSetHalt
      let a := (W 1).toNat % 65536
      let named (r : Core) : Prop := (∃ t, t < 4096 ∧ a = t ∧ r = if (W 1).getLsbD 16 then .c t else .a t) ∨ ∃ n, n < 64 ∧ a = 0x1040 + n ∧ r = .cc n
      ((∀ r, ¬ named r) → tells op 1 []) ∧
      (∀ r, named r → does op [] fun t => t.mem = s.mem ∧
        (t.core r).haltOn = (if (W 2).getLsbD 1 then false else if (W 2).getLsbD 0 then true else (s.core r).haltOn) ∧
        ((W 2).getLsbD 2 = false → t.ctxs = s.ctxs ∧ (t.core r).halted = (s.core r).halted) ∧
        ((W 2).getLsbD 2 = true → (t.core r).halted = none ∧ (∀ x, (s.core r).halted = some x →
          t.ctx (ctxKey r x) = { s.ctx (ctxKey r x) with pc := (s.ctx (ctxKey r x)).pc + 8 })))) ∧
    (asked 0x50 [] → does .attest [] fun t =>
      let r := s.imageDigest ++ s.recordDigest ++ bytesOf s.moduleId.toNat 8 ++ s.hostBytes (W 1) 32
      t = { s with mem := t.mem } ∧ ∀ j, t.byte j = if hostKey (W 2).toNat ≤ j ∧ j < hostKey (W 2).toNat + 512 then
        (r ++ signed r).getD (j - hostKey (W 2).toNat) 0 else s.byte j) ∧
    (asked 0x51 [] →
      ((W 2).toNat < 1049352 → tells .ctrread 1 []) ∧
      (1049352 ≤ (W 2).toNat → does .ctrread [1049352] fun t => t = { s with mem := t.mem } ∧
        ∀ j, t.byte j = if hostKey (W 1).toNat ≤ j ∧ j < hostKey (W 1).toNat + 1049352 then
          let o := j - hostKey (W 1).toNat
          BitVec.ofNat 8 (s.flash.word (o / 8) / 2 ^ (8 * (o % 8))) else s.byte j)) ∧
    (asked 0x52 [0xFFFFFFFFFFFFFFFF, 0xFFFFFFFFFFFFFFFF, 1] →
      let b := s.hostBytes (W 1) (W 2).toNat
      exec .fwupdate s = .next (
        if signatureChecks b = false then s.reply k 1 []
        else if W 3 = 0 then { s with nextImage := some b }.reply k 0 []
        else if Config.imageVersion b < s.recordVersion then s.reply k 2 []
        else { s with nextRecord := some b }.reply k 0 []))

/-- R38, R40 to R42, R45 to R56, R77, R78, R80 to R83, R88 to R91, R97, R158. The completion statement of the steps of user queues and of the firmware
complex. `n`, `m` and `v` are the parameters of the step. The model's own: status 4 for a poisoned packet (assumption 38), the lowest free window entry and
the waits of a fetch and of a SAVE (assumption 50), IRQ without a record (assumption 75), the set target's generation (assumption 84), status 2 before 8
(assumption 85), status 4 of a launch whose template cannot be read (assumption 104), and the directory that the hardware holds (assumption 41). -/
def Obligations.QueueEvents : Prop :=
  ∀ s : State, s.serving = true →
    let n := s.inp.n
    let m := s.inp.m
    let v := s.inp.v
    let u := s.queue n
    let live : Prop := n < 4096 ∧ (u.state = 1 ∨ u.state = 2)
    let raised (t : State) (ty : Nat) (q : Option Nat) (a b c : Word) : Prop := t.evSeq = s.evSeq + 1 ∧
      t.evq = s.evq ++ [{ etype := ty, qid := q, arg0 := a, arg1 := b, arg2 := c, seq := s.evSeq.toNat }]
    let room : Prop := s.evq.length < 4096
    let kicked (t : State) (q : Nat) : Prop := s.mapped q = false → (t.qdirOf q).getLsbD 0 = true
    -- the user page
    (¬ live → exec .doorbell s = .next s ∧ exec .wmSet s = .next s ∧ exec .wmClr s = .next s) ∧
    (live →
      (v.setWidth 32 = u.widx → exec .doorbell s = .next s) ∧
      (let far := (v.setWidth 32 - u.ridx).toNat;
        (v.setWidth 32 ≠ u.widx → 1 ≤ far → far ≤ u.size → ∃ t, exec .doorbell s = .next t ∧ t.queue n = { u with widx := v.setWidth 32 } ∧
          kicked t n ∧ t.mem = s.mem) ∧
        (v.setWidth 32 ≠ u.widx → (far = 0 ∨ u.size < far) → u.state = 1 → exec .doorbell s = .next { s.setQueue n { u with state := 2, err := 9 } with
          msix := s.msix ++ [u.vec] })) ∧
      (∃ t, exec .wmSet s = .next t ∧ t.queue n = { u with wm := u.wm ||| v } ∧ kicked t n ∧ t.mem = s.mem) ∧
      exec .wmClr s = .next (s.setQueue n { u with wm := u.wm &&& ~~~v })) ∧
    -- fetch
    (let a := u.ring + 64 * (u.ridx.toNat % u.size);
      s.ckptBusy = false → s.active n = true → u.state = 1 → u.widx ≠ u.ridx → u.win.length < 32 → u.ticket = none → u.failed = [] →
      u.failedWb = [] →
      (∀ tk s1, s.agentWords (workOf 0x1100 (2 * n)) u.pasid a 8 = (.error tk, s1) → exec .packetFetch s = .next (s1.setQueue n { s1.queue n with
        ticket := tk, fetching := true, writing := false })) ∧
      (∀ ws poison s1 s2 acc j, s.agentWords (workOf 0x1100 (2 * n)) u.pasid a 8 = (.ok (ws, poison), s1) →
        (if u.ridxWb = 0 then (AgentAcc.bad, s1) else s1.agentKey (workOf 0x1100 (2 * n)) u.pasid u.ridxWb 8 .write) = (acc, s2) →
        (∀ tk, acc ≠ .later tk) → s2.saving n = false → j < 32 → Tbl.find u.win j = none → (∀ i, i < j → Tbl.find u.win i ≠ none) →
        let p : BitVec 512 := BitVec.ofNat 512 (joinWords ws)
        let st := if poison then 4 else s2.fetchStatus n u.ridx p
        ∃ t, exec .packetFetch s = .next t ∧ t.queue n = { s2.queue n with
            ridx := u.ridx + 1, failed := [], failedWb := [], fetching := false, writing := false
            win := Tbl.put u.win j {
              idx := u.ridx, pkt := p, status := if st = 0 then none else some st, setGen := (s2.queue (if p.getLsbD 10 then fld p 27 16 else n)).gen } } ∧
          ∀ k, acc = .key k → ∀ i, i < 8 → t.byte (k + i) = BitVec.ofNat 8 ((u.ridx + 1).toNat / 2 ^ (8 * i)))) ∧
    (let a := u.ring + 64 * (u.ridx.toNat % u.size);
      s.ckptBusy = false → s.active n = true → u.state = 1 → u.widx ≠ u.ridx → u.win.length < 32 → u.ticket = none →
      ((a / 65536) ∈ u.failed → ∃ t, exec .packetFetch s = .next t ∧ (t.queue n).state = 2 ∧ (t.queue n).err = 4 ∧ (t.queue n).ridx = u.ridx ∧
        t.mem = s.mem) ∧
      (∀ ws poison s1, u.failed = [] → u.ridxWb ≠ 0 → (u.ridxWb / 65536) ∈ u.failedWb →
        s.agentWords (workOf 0x1100 (2 * n)) u.pasid a 8 = (.ok (ws, poison), s1) → s1.queues = s.queues → s1.mem = s.mem →
        ∃ t, exec .packetFetch s = .next t ∧ (t.queue n).ridx = u.ridx + 1 ∧ (t.queue n).state = 2 ∧ (t.queue n).err = 4 ∧ t.mem = s.mem)) ∧
    -- launch
    (∀ b e, s.packetBid n m = some b → Tbl.find u.win m = some e → e.ticket = none → s.granted b = true → s.olderGranted n e = false →
      let p := e.pkt
      let wm' := if p.getLsbD 9 then u.wm &&& ~~~BitVec.ofNat 64 (fld p 127 64) else u.wm
      let launched (t : State) : Prop := Tbl.find (t.queue n).win m = some { e with launched := true, ticket := none, failed := [], held := false } ∧
        (t.queue n).wm = wm'
      (pkType p = 1 → s.liveLaunch u.pasid (fld p 407 376) ≠ none → ∃ t, exec .packetLaunch s = .next t ∧
        Tbl.find (t.queue n).win m = some { e with status := some 2, ticket := none, failed := [] }) ∧
      (∀ r tk s1, pkType p = 1 → s.liveLaunch u.pasid (fld p 407 376) = none → s.leavesCd0 b.tiles = false →
        s.launchTmpl (workOf 0x1100 (2 * n)) u.pasid (fld p 255 192) e.failed = ((r, tk), s1) → s1.queues = s.queues →
        (r = .later → exec .packetLaunch s = .next (s1.setQueue n { u with win := Tbl.put u.win m { e with ticket := tk, held := tk.isNone } })) ∧
        (r = .bad → exec .packetLaunch s = .next (s1.setQueue n { u with
          win := Tbl.put u.win m { e with status := some 4, ticket := none, failed := [] } }))) ∧
      (∀ tm tk s1, pkType p = 1 → s.liveLaunch u.pasid (fld p 407 376) = none → s.leavesCd0 b.tiles = false →
        s.launchTmpl (workOf 0x1100 (2 * n)) u.pasid (fld p 255 192) e.failed = ((.ok tm, tk), s1) → s1.queues = s.queues → ∃ t, exec .packetLaunch s = .next t ∧ launched t ∧
        (let l := t.launch s1.fresh; l.id.toNat = fld p 407 376 ∧ l.pasid = u.pasid ∧ l.args = BitVec.ofNat 64 (fld p 319 256) ∧ l.tmpl = tm ∧
          l.x0 = fld p 351 344 ∧ l.y0 = fld p 359 352 ∧ l.w = fld p 367 360 ∧ l.h = fld p 375 368 ∧ l.st = .running ∧ l.origin = .packet n m) ∧
        ∀ i ∈ b.tiles, s1.fresh ∈ (t.tile i).runs) ∧
      (pkType p = 3 → p.getLsbD 10 = false → p.getLsbD 11 = false → ∃ t, exec .packetLaunch s = .next t ∧ Tbl.find (t.queue n).win m = none ∧
        (t.queue n).wm = wm' ||| BitVec.ofNat 64 (fld p 191 128)) ∧
      (pkType p = 4 → ∃ t, exec .packetLaunch s = .next t ∧ launched t ∧ t.fences = s.fences ++ [(n, m)]) ∧
      (∀ c, (pkType p = 2 ∨ pkType p = 5) → b.streamer = some c → ∃ t, exec .packetLaunch s = .next t ∧ launched t ∧
        (t.streamer c).starts = (s.streamer c).starts ++ [s.fresh] ∧ (t.copy s.fresh).st = .queued ∧ (t.copy s.fresh).origin = .packet n m ∧
        (t.copy s.fresh).pasid = u.pasid ∧ (t.copy s.fresh).engine = .stream c)) ∧
    -- completion
    (∀ e st, Tbl.find u.win m = some e → e.status = some st → e.ticket = none → u.state = 1 → e.pkt.getLsbD 10 = false →
      let set := BitVec.ofNat 64 (fld e.pkt 191 128)
      let ended (t : State) : Prop := Tbl.find (t.queue n).win m = none ∧ (t.queue n).wm = (if st = 0 ∨ st = 7 then u.wm ||| set else u.wm)
      (st = 0 → e.pkt.getLsbD 11 = false → ∃ t, exec .packetComplete s = .next t ∧ ended t ∧ t.mem = s.mem ∧ (t.queue n).state = 1 ∧
        t.msix = if e.pkt.getLsbD 12 then s.msix ++ [u.vec] else s.msix) ∧
      (st = 0 → e.pkt.getLsbD 11 = true → ((u.cpl + 16 * (e.idx.toNat % u.size)) / 65536) ∈ e.failed → ∃ t, exec .packetComplete s = .next t ∧ ended t ∧
        (t.queue n).state = 2 ∧ (t.queue n).err = 4 ∧ t.mem = s.mem) ∧
      (∀ k s1, (st ≠ 0 ∨ e.pkt.getLsbD 11 = true) → e.failed = [] →
        s.agentKey (workOf 0x1100 (2 * n)) u.pasid (u.cpl + 16 * (e.idx.toNat % u.size)) 16 .write = (.key k, s1) → s1.queues = s.queues →
        ∃ t, exec .packetComplete s = .next t ∧ ended t ∧ (st ≠ 0 → st ≠ 7 → (t.queue n).state = 2 ∧ (t.queue n).err = BitVec.ofNat 8 st) ∧
          ∀ i, i < 16 → t.byte (k + i) = BitVec.ofNat 8 ((1 + st * 2 ^ 32 + fld e.pkt 63 32 * 2 ^ 64 + e.idx.toNat * 2 ^ 96) / 2 ^ (8 * i)))) ∧
    (∀ e, (n, m) ∈ s.fences → Tbl.find u.win m = some e → e.status = none → e.pkt.getLsbD 10 = false → e.pkt.getLsbD 11 = false →
      let a := fld e.pkt 255 192
      let len := fld e.pkt 319 256
      ∃ t, exec .patchFenceComplete s = .next t ∧ (n, m) ∉ t.fences ∧ Tbl.find (t.queue n).win m = none ∧
        (∀ x ∈ t.tmplCache, x.1 = u.pasid → meetsLines a len x.2.1 64 = false) ∧
        (∀ x ∈ t.ccs, ∀ r ∈ x.2.sites, r.pasid = u.pasid → meetsLines a len r.addr 128 = false) ∧
        ∀ x ∈ t.cores, x.1 < 8256 → ∀ l ∈ x.2.icache, l.pasid = u.pasid → l.line < a / 64 ∨ (a + len - 1) / 64 < l.line) ∧
    -- the firmware's events
    (∀ t0, let x := s.slot n; x.st = 2 → x.idleSince = some t0 → x.idleRaised = false → t0 + 16384 ≤ s.now → room →
      let q := s.queue x.qid
      let idle (r : Nat) : Prop := ∃ t, exec .qidle s = .next t ∧ raised t 4 (some x.qid) (BitVec.ofNat 64 r) 0 0 ∧ t.slot n = { x with idleRaised := true }
      (q.state ≠ 1 → idle 3) ∧ (q.state = 1 → q.ridx = q.widx → q.win = [] → idle 1)) ∧
    (∀ x, Tbl.find (s.fw n).timers m = some x → x.since + x.period ≤ s.us → room → ∃ t, exec .timer s = .next t ∧
      raised t 5 none (BitVec.ofNat 64 m) (BitVec.ofNat 64 n) 0 ∧ Tbl.find (t.fw n).timers m = some { x with since := x.since + x.period }) ∧
    ((s.fw n).up = true → (s.fw n).handling = true → (s.fw n).takenAt + 2 ^ 24 ≤ s.now → room → ∃ t, exec .watchdogExpiry s = .next t ∧
      raised t 7 none 3 (BitVec.ofNat 64 n) 0 ∧ (t.fw n).up = true ∧ (t.fw n).handling = false ∧ (t.fw n).locks = [] ∧
      (t.ctx (ctxKey (.fc n) 0)).pc = s.firmwareEntry ∧ (t.ctx (ctxKey (.fc n) 0)).live = 0) ∧
    (∀ fc pre e post, fc < 16 → (s.fw fc).up = true → (s.fw fc).taking = true → (∀ i, i < fc → (s.fw i).up = false ∨ (s.fw i).taking = false) →
      s.evq = pre ++ e :: post → s.evHeld = [] → (∀ d ∈ pre, ∃ q, d.qid = some q ∧ s.locked q = true) → (∀ q, e.qid = some q → s.locked q = false) →
      exec .eventHandoff s = .next { s.setFw fc { s.fw fc with
        taking := false, ev := some e, handling := true, ageing := none, takenAt := s.now, locks := e.qid.toList } with evq := pre ++ post }) ∧
    (n < 16 → (s.fw n).up = true → (s.fw n).taking = false → ∃ t, exec .evqTake s = .next t ∧
      t.fw n = { s.fw n with handling := false, locks := [], taking := true } ∧ ∀ i, i ≠ n → t.fw i = s.fw i) ∧
    (n < 16 → exec .evqDone s = .next (s.setFw n { s.fw n with handling := false, locks := [] })) ∧
    -- locks, slots and timers
    (n < 16 →
      let f := s.fw n
      let q := v.toNat % 4096
      let j := v.toNat / 16 % 64
      let d := v.toNat / 1024 % 4096
      let claims (t : State) : State := { t with
        slots := t.slots.map fun (e : Nat × Machine.Slot) => (e.1, if e.2.saver = some n then { e.2 with saver := none } else e.2) }
      let answers (i : Instr) (x : Nat) : Prop := exec i s = .next ((claims s).setFw n { f with slotStat := some x })
      (f.locks.contains q = true → exec .qlockReq s = .next (s.setFw n { f with qlockStat := true })) ∧
      (f.locks.contains q = false → (2 ≤ f.locks.length ∨ s.locked q = true) → exec .qlockReq s = .next (s.setFw n { f with qlockStat := false })) ∧
      (f.locks.contains q = false → f.locks.length < 2 → s.locked q = false →
        exec .qlockReq s = .next (s.setFw n { f with qlockStat := true, locks := f.locks ++ [q] })) ∧
      ((s.slot j).st ≠ 0 → answers .map 1) ∧
      (let dir := s.qdirOf d;
        let dead : Prop := dir.getLsbD 8 = false ∨ dir.getLsbD 1 = true ∨ (s.queue d).state = 0 ∨ (s.queue d).state = 3;
        ((s.slot j).st = 0 → dead → answers .map 2) ∧
        ((s.slot j).st = 0 → ¬ dead → f.locks.contains d = false → answers .map 4) ∧
        ((s.slot j).st = 0 → ¬ dead → f.locks.contains d = true → ∃ t, exec .map s = .next t ∧ (t.fw n).slotStat = some 0 ∧
          (t.slot j).st = 2 ∧ (t.slot j).qid = d ∧ (t.slot j).eprio = (s.queue d).sched.toNat % 4 ∧
          t.qdirOf d = (dir &&& 0xFFFFFFFFFFFFFF00) ||| BitVec.ofNat 64 (j * 4 ||| 2))) ∧
      ((s.slot j).st ≠ 2 → answers .save 3 ∧ answers .setprio 3) ∧
      (let h := (s.slot j).qid;
        ((s.slot j).st = 2 → f.locks.contains h = false → answers .save 4) ∧
        ((s.slot j).st = 2 → f.locks.contains h = true → (s.queue h).fetching = true → exec .save s = .next
          (((claims s).setFw n { f with slotStat := none }).setSlot j { s.slot j with st := 3, saver := some n })) ∧
        ((s.slot j).st = 2 → f.locks.contains h = true → (s.queue h).fetching = false → ∃ t, exec .save s = .next t ∧
          (t.fw n).slotStat = some 0 ∧ t.slot j = {} ∧
          (t.qdirOf h).getLsbD 1 = false ∧
          ((s.queue h).state = 1 → (s.queue h).widx ≠ (s.queue h).ridx → (t.qdirOf h).getLsbD 0 = true)) ∧
        ((s.slot j).st = 2 → exec .setprio s = .next ((claims (s.setSlot j { s.slot j with eprio := v.toNat / 2 ^ 22 % 4 })).setFw n { f with slotStat := some 0 }))) ∧
      (let i := v.toNat % 16;
        (v.toNat / 16 % 2 ^ 32 = 0 → exec .timerSet s = .next (s.setFw n { f with timers := Tbl.del f.timers i })) ∧
        (v.toNat / 16 % 2 ^ 32 ≠ 0 → exec .timerSet s = .next (s.setFw n { f with
          timers := Tbl.put f.timers i { period := v.toNat / 16 % 2 ^ 32, since := s.us } }))))

/-- R93, R94, R112, R114, R116 to R120, R122 to R124. The completion statement of the steps of tickets, host translations, shoot-downs and
migrations. The model's own: an unreadable or misaligned migration descriptor ends with status 3 (assumption 38), what the pages of a failed ticket reach
(assumption 40), a tier copy that a checkpoint holds is no new frame (assumption 43), the stream as one event and the queues of a migration (assumption 69),
when the host acts, and an invalidation beyond 256 that changes nothing (assumption 72), leaves that reduced service cannot use (assumption 90), and the
agent that SDTIMEOUT names first (assumption 103). -/
def Obligations.MemoryEvents : Prop :=
  ∀ s : State, s.serving = true →
    let n := s.inp.n
    let v := s.inp.v
    let wait := s.sdCount
    let idle : Prop := ∀ e ∈ s.atsInv, Tbl.find s.shootdowns e.1 ≠ none
    let entered : Prop := ∀ e ∈ s.ccs, e.2.orphans = []
    -- tickets
    let retried (t : State) (k : Nat) : Prop := t.tickets = Tbl.del s.tickets k ∧ t.mem = s.mem ∧ t.ctxs = s.ctxs ∧
      ∀ u c, Tbl.find s.copies u = some c → Tbl.find t.copies u = some (if c.ticket = some k then { c with
        ticket := none, st := if c.st = .frozen ∧ c.drained = false then .running else c.st } else c)
    let failed (t : State) (k : Nat) (x : Ticket) : Prop := t.tickets = Tbl.del s.tickets k ∧ t.mem = s.mem ∧
      (∀ y c, Tbl.find s.ctxs y = some c → Tbl.find t.ctxs y = some (if c.await = .ticket k then { c with failed := x.page :: x.also ++ c.failed } else c)) ∧
      ∀ u c, Tbl.find s.copies u = some c → c.ticket = some k → c.st ∈ [CopyState.queued, .running, .frozen] →
        (t.copy u).st = .aborting ∧ (t.copy u).err = if c.err = 0 then 5 else c.err
    let settled (k : Nat) : Prop := ∀ e ∈ s.copies, e.2.ticket = some k → e.2.st ≠ .accepting
    (∀ k, entered → s.ticketNo v = some k → ∃ t, exec .xfDoneRetry s = .next t ∧ retried t k) ∧
    (s.ticketNo v = none → exec .xfDoneRetry s = .next s ∧ exec .xfDoneFail s = .next s) ∧
    (∀ k x, entered → s.ticketNo v = some k → Tbl.find s.tickets k = some x → settled k → ∃ t, exec .xfDoneFail s = .next t ∧ failed t k x) ∧
    (∀ x, entered → Tbl.find s.tickets n = some x →
      (x.pri ≠ none → ∃ t, exec .priResponse s = .next t ∧ retried t n) ∧
      (∀ p, x.pri = some p → settled n → p + 100000 ≤ s.us → ∃ t, exec .priTimeout s = .next t ∧ failed t n x) ∧
      (∀ p, x.pri = some p → s.us < p + 100000 → exec .priTimeout s = .next s)) ∧
    -- the host
    (∀ r, Tbl.find s.ats n = some r → r.answered = none →
      (s.invalidated r.pasid r.va = false → exec .atsResponse s = .next { s with ats := Tbl.put s.ats n { r with
        answered := some (if s.inp.flag then some v.toNat else none) } }) ∧
      (s.invalidated r.pasid r.va = true → exec .atsResponse s = .next s)) ∧
    (let va := v.toNat / 65536 * 65536;
      let pages := (v.toNat + s.inp.u.toNat + 65535) / 65536 - v.toNat / 65536;
      (16 ≤ wait → s.atsInv.length < 256 → s.inp.u ≠ 0 → exec .atsInvalidation s = .next { s with
        fresh := s.fresh + 1, atsInv := Tbl.put s.atsInv s.fresh { pasid := n, va := va, len := pages * 65536 } }) ∧
      (256 ≤ s.atsInv.length → exec .atsInvalidation s = .next s) ∧
      (wait < 16 → idle → Tbl.find s.shootdowns s.fresh = none → s.atsInv.length < 256 → s.inp.u ≠ 0 → exec .atsInvalidation s = .next { s with
        fresh := s.fresh + 1, sdNext := s.sdNext + 1, atsInv := Tbl.put s.atsInv s.fresh { pasid := n, va := va, len := pages * 65536 }
        shootdowns := Tbl.put s.shootdowns s.fresh { id := s.sdNext.toNat, since := s.now, pasid := n, va := va, npages := pages } })) ∧
    -- shoot-downs
    (16 ≤ wait → exec .sdReq s = .next s) ∧
    (n < 16 → wait < 16 →
      (∀ s1, s.fcRecord n v 32 = (.later, s1) → exec .sdReq s = .next s1) ∧
      (∀ s1, s.fcRecord n v 32 = (.bad, s1) → exec .sdReq s = .next (s1.setFw n { s1.fw n with sdResult := some 2 })) ∧
      (∀ r s1, s.fcRecord n v 32 = (.ok r, s1) → ∃ t, exec .sdReq s = .next t ∧ t.sdNext = s1.sdNext + 1 ∧
        (t.fw n).sd = s1.sdNext.toNat ∧ (t.fw n).sdResult = none ∧ t.shootdowns = Tbl.put s1.shootdowns s1.fresh {
          id := s1.sdNext.toNat, since := s1.now, fc := some n, pasid := r / 2 ^ 44 % 2 ^ 20, va := r / 2 ^ 64 % 2 ^ 64 / 65536 * 65536
          npages := r / 2 ^ 128 % 2 ^ 32, allp := r / 2 % 2 = 1, tables := r % 2 = 1 })) ∧
    (∀ d, Tbl.find s.shootdowns n = some d → s.migPending d = false → idle →
      let gone (e : Tlb) : Prop := d.allp = true ∨ (e.pasid = d.pasid ∧ (d.npages = 0 ∨ (d.va < e.va + (if e.huge then 2 ^ 25 else 2 ^ 16) ∧
        e.va < d.va + d.npages * 65536)))
      ∃ t, exec .shootdownComplete s = .next t ∧ t.shootdowns = Tbl.del s.shootdowns n ∧ t.atsInv = Tbl.del s.atsInv n ∧
        (∀ e, e ∈ t.tlb ↔ e ∈ s.tlb ∧ ¬ gone e) ∧ (d.tables = false → t.nodes = s.nodes) ∧ (d.tables = true → d.allp = true → ∀ e ∈ t.nodes, e.uses = []) ∧
        (∀ f, d.mig = none → d.fc = some f → (s.fw f).sd = d.id → (s.fw f).sdResult ≠ some 2 → (t.fw f).sdResult = some 0) ∧
        ∀ k m, d.mig = some k → Tbl.find s.migrations k = some m →
          (m.redirected = [] → Tbl.find t.migrations k = none) ∧
          ((s.fw m.fc).migOf = k → (s.fw m.fc).mig = none → (t.fw m.fc).mig = some (if d.forced then 5 else 0))) ∧
    (∀ d, Tbl.find s.shootdowns n = some d → (d.sent = false ∨ s.now < d.since + 16384) → exec .sdtimeout s = .next s) ∧
    (∀ d a r, let late := (s.inp.data.map BitVec.toNat).eraseDups.filter s.mayDelay
      Tbl.find s.shootdowns n = some d → d.timeouts = 0 → d.sent = true → late = a :: r → d.since + 16384 ≤ s.now → s.evq.length < 4096 →
      ∃ t, exec .sdtimeout s = .next t ∧ t.shootdowns = Tbl.put s.shootdowns n { d with
          missing := late, timeouts := 1, sent := false } ∧
        t.evq = s.evq ++ [{ etype := 3, qid := none, arg0 := BitVec.ofNat 64 d.id, arg1 := BitVec.ofNat 64 a, arg2 := BitVec.ofNat 64 late.length, seq := s.evSeq.toNat }] ∧
        ∀ f, d.fc = some f → (s.fw f).sd = d.id → (s.fw f).sdResult = none → (t.fw f).sdResult = some 1) ∧
    (∀ k d, idle → s.shootdowns.find? (fun e => e.2.id = v.toNat % 65536) = some (k, d) →
      exec .sdRetry s = .next { s with shootdowns := Tbl.put s.shootdowns k { d with since := s.now, sent := true } } ∧
      ∃ t, exec .sdForce s = .next t ∧ t.shootdowns = Tbl.del s.shootdowns k ∧ ∀ a ∈ (if d.timeouts = 0 then s.holding d else d.missing),
        (∀ e ∈ t.tlb, e.agent ≠ a) ∧
        ∀ u c, Tbl.find s.copies u = some c → c.engine.agent = a → c.st ∈ [CopyState.queued, .accepting, .running, .frozen] → (t.copy u).st = .aborting) ∧
    (∀ k d a, s.shootdowns.find? (fun e => e.2.id = v.toNat % 65536) = some (k, d) → 0 < d.timeouts →
      d.missing = [a] → s.evq.length < 4096 →
      ∃ t, exec .sdForce s = .next t ∧ t.evq = s.evq ++ [
        { etype := 7, qid := none, arg0 := 5, arg1 := BitVec.ofNat 64 a, arg2 := BitVec.ofNat 64 d.id, seq := s.evSeq.toNat }]) ∧
    -- migrations
    (n < 16 →
      let ends (s1 : State) (st : Nat) : Prop := exec .migReq s = .next (s1.setFw n { s1.fw n with migOf := 0, mig := some st })
      (∀ s1, s.fcRecord n v 32 = (.later, s1) → exec .migReq s = .next s1) ∧
      (∀ s1, s.fcRecord n v 32 = (.bad, s1) → ends s1 3) ∧
      (∀ r s1, s.fcRecord n v 32 = (.ok r, s1) →
        let frame := r / 2 ^ 192 % 2 ^ 64
        let home := r / 2 ^ 5 % 8
        let loc := r / 2 ^ 3 % 4
        (∀ s2, s1.leafOf (r / 2 ^ 44 % 2 ^ 20) (r / 2 ^ 128 % 2 ^ 64) = (none, s2) → ends s2 1) ∧
        (∀ leaf dpa huge s2, s1.leafOf (r / 2 ^ 44 % 2 ^ 20) (r / 2 ^ 128 % 2 ^ 64) = (some (leaf, dpa, huge), s2) →
          (2 ≤ leafLoc leaf → ends s2 1) ∧ (leafLoc leaf < 2 → leafMig leaf = true → ends s2 2) ∧
          (leafLoc leaf < 2 → leafMig leaf = false → (s2.newFrameOk frame home loc huge = false ∨ s2.tierCopyHeld frame huge = true) → ends s2 3) ∧
          (leafLoc leaf < 2 → leafMig leaf = false → s2.newFrameOk frame home loc huge = true → s2.tierCopyHeld frame huge = false → dpa % 8 = 0 → ∃ t m, exec .migReq s = .next t ∧
            (t.fw n).mig = none ∧ (t.fw n).migOf = s2.fresh ∧ t.wordAt (dpa / 8) = putBit leaf 54 true ∧ Tbl.find t.migrations s2.fresh = some m ∧ m.stage = 1 ∧
            m.pasid = r / 2 ^ 44 % 2 ^ 20 ∧ m.va = r / 2 ^ 128 % 2 ^ 64 ∧ m.leafDpa = dpa ∧ m.oldFrame = leafFrame leaf ∧ m.newFrame = frame ∧
            m.nhome = home ∧ m.nloc = loc ∧ m.fc = n)))) ∧
    (∀ m, Tbl.find s.migrations n = some m →
      (m.stage = 1 → wait < 16 → s.MemCanonical → m.leafDpa % 8 = 0 → (m.leafDpa + 8 ≤ m.newFrame ∨ m.newFrame + m.size ≤ m.leafDpa) →
        ∃ t, exec .migrationStreamEnd s = .next t ∧ Tbl.find t.migrations n = some { m with stage := 2 } ∧
          (∀ i, i < m.size → t.byte (m.newFrame + i) = s.byte (m.oldFrame + i)) ∧
          t.wordAt (m.leafDpa / 8) = m.leaf (s.wordAt (m.leafDpa / 8)) ∧
          t.shootdowns = Tbl.put s.shootdowns s.fresh {
            id := s.sdNext.toNat, since := s.now, pasid := m.pasid, va := m.va / 65536 * 65536, npages := 1, mig := some n }) ∧
      (let hit (e : Tlb) : Prop := e.agent = s.inp.m ∧ e.leafDpa = m.leafDpa ∧ leafFrame e.leaf = m.oldFrame;
        m.stage = 2 → (∃ e ∈ s.tlb, hit e) → ∃ t, exec .redirectNotice s = .next t ∧ t = { s with tlb := t.tlb } ∧
          t.tlb.length = s.tlb.length ∧ ∀ e ∈ s.tlb, (hit e → { e with leaf := m.leaf e.leaf } ∈ t.tlb) ∧ (¬ hit e → e ∈ t.tlb)) ∧
      (∀ a r, m.refused = a :: r → (m.stage ≠ 1 ∨ (m.queued.filter s.accessLive).length < 256) → exec .queueSpaceNotice s = .next { s with
        migrations := Tbl.put s.migrations n { m with refused := r, queued := m.queued.filter s.accessLive } }))

/-- R17 to R19, R126 to R141, R151 to R153, R162, R389, R390. The completion statement of the steps of copies, gathers and scatters. Copies are
named by the table entry that holds them, and so are gathers; the clauses say what the common path of each step does. The model's own: the lowest free
watermark slot (assumption 30), the order of the checks and of acceptance (assumptions 29, 31, 70), the words that an aborted copy poisons and the
status its packet takes (assumptions 32, 33), the streamer and the element size of a remote request, which its event gives (assumptions 61, 72), the error
code 8 of the timeout and the beats that count for it (assumption 77), a gather's order (assumption 73), the check of a ring header (assumption 96),
and the retry of a held access from its start (assumption 68). -/
def Obligations.CopyEvents : Prop :=
  ∀ s : State, s.serving = true →
    let n := s.inp.n
    let v := s.inp.v
    -- on-ramps
    (n < 32 →
      let r := s.streamer n
      let i := v.toNat % 2 ^ 16
      ((r.bound = false ∨ r.tcount ≤ i ∨ 8 ≤ s.onrampPend n) → exec .go s = .next (s.setStreamer n { r with drop := min 255 (r.drop + 1) })) ∧
      (r.bound = true → i < r.tcount → s.onrampPend n < 8 → ∃ t, exec .go s = .next t ∧
        t.copy s.fresh = { engine := .stream n, origin := .onramp, pasid := r.pasid, tmplAddr := some (r.tbase + BitVec.ofNat 64 (64 * i)), seq := s.fresh } ∧
        t.streamer n = { r with starts := r.starts ++ [s.fresh] }) ∧
      (r.bound = true → exec .cinvalWrite s = .next (s.setStreamer n { r with cache := [] })) ∧
      (r.bound = false → exec .cinvalWrite s = .next s)) ∧
    -- acceptance
    (∀ c c1, Tbl.find s.copies n = some c → (∀ e ∈ s.copies, e.1 = n → e.2 = c) → c.ticket = none → c.away = false → c.drained = false →
      c.slot = none → c.guarded = false → c.ringSlot = none →
      ((c.st = .accepting ∧ s.acceptTurn n = true) ∨ ∃ x, c.st = .queued ∧ c.engine = .stream x ∧ (s.streamer x).starts.head? = some n ∧ (s.streamer x).cur = none) →
      ((c.tmplAddr = none ∧ c1 = c) ∨ ∃ x a tm, c.engine = .stream x ∧ c.tmplAddr = some a ∧ c.origin = .onramp ∧
        (s.streamer x).cached c.pasid a.toNat = some tm ∧ c1 = { c with tmpl := tm, tmplAddr := none }) →
      (∀ x, c.engine = .stream x → c.origin = .onramp → (s.checkHeader c1).acceptError c1 ≠ 0 → ∃ t, exec .copyAccept s = .next t ∧ Tbl.find t.copies n = none ∧
        (t.streamer x).err = BitVec.ofNat 8 ((s.checkHeader c1).acceptError c1) ∧ (t.streamer x).done = (s.streamer x).done + 1 ∧ (t.streamer x).cur ≠ some n) ∧
      (∀ va, c.landsHere = true → c.remote = none → s.acceptError c1 = 0 → (∀ e, c.origin ≠ .fill e) → s.copyWin c1 (cpDst c1.tmpl) 1 = some (.glob va) →
        (s.guards < 1024 → ∃ t, exec .copyAccept s = .next t ∧ t.copy n = { c1 with st := .running, guarded := true }) ∧
        (1024 ≤ s.guards → ∃ t, exec .copyAccept s = .next t ∧ t.copy n = { c1 with st := .accepting })) ∧
      (∀ tl off r j, c.landsHere = true → c.remote = none → s.acceptError c1 = 0 → (∀ e, c.origin ≠ .fill e) → cpRing c1.tmpl = false →
        s.copyWin c1 (cpDst c1.tmpl) 1 = some (.spad tl off r) → s.freeWm tl = some j →
        ∃ t, exec .copyAccept s = .next t ∧ t.copy n = { c1 with st := .running, slot := some (tl, j) })) ∧
    (∀ c x a tk s1, Tbl.find s.copies n = some c → c.st = .accepting → c.ticket = none → c.away = false → c.drained = false → s.acceptTurn n = true →
      c.engine = .stream x → c.tmplAddr = some a →
      (s.streamer x).cached c.pasid a.toNat = none → s.copyAccess n c a.toNat 64 .read = (.fault tk, s1) →
      exec .copyAccept s = .next (s1.setCopy n { c with ticket := some tk })) ∧
    -- landing and the end
    (∀ c, Tbl.find s.copies n = some c → c.st = .running → c.w < c.total → c.remote = none → c.away = false → c.drained = false →
      s.behindCopy n (c.base + c.w * c.esz) c.esz = false → s.fillDead c = false →
      (∀ s1, s.copyElem n c.w = (none, s1) → exec .copyLand s = .next s1) ∧
      (∀ bs s1 k f s2, c.landsHere = true → s.copyElem n c.w = (some bs, s1) → s1.copyReach n (c.landAddr c.w) c.esz .write = (some (some [(k, c.esz, f)]), s2) →
        cpBar c.tmpl = 0 → s2.copy n = c → bs.length = c.esz → (∀ e ∈ bs, e.1 < 256) → ∃ t, exec .copyLand s = .next t ∧ (t.copy n).w = c.w + 1 ∧ (t.copy n).st = .running ∧
        ∀ i, i < c.esz → t.byte (k + i) = BitVec.ofNat 8 (bs.getD i (0, false)).1)) ∧
    (∀ c, Tbl.find s.copies n = some c → c.st = .running → c.away = false → c.drained = false → c.total ≤ c.w → c.landsHere = true → c.ringSlot = none →
      (∀ x q e, c.engine = .stream x → c.origin = .packet q e → ∃ t, exec .copyEnd s = .next t ∧ Tbl.find t.copies n = none ∧
        (t.streamer x).done = (s.streamer x).done + 1 ∧ (t.streamer x).err = (s.streamer x).err ∧ (t.streamer x).lastWm = c.total ∧
        ∀ w, Tbl.find (s.queue q).win e = some w → Tbl.find (t.queue q).win e = some { w with status := some (w.status.getD 0) }) ∧
      (∀ tl l g, c.engine = .tile tl → c.origin = .tile l g → (g, n) ∈ (s.tile tl).tags → ∃ t, exec .copyEnd s = .next t ∧
        t.copy n = { c with st := .ended, w := c.total, reported := c.total, ticket := none } ∧ t.mem = s.mem)) ∧
    (∀ c x, Tbl.find s.copies n = some c → c.st = .aborting → c.ticket = none → s.stays c = false → c.away = false → c.engine = .stream x →
      c.origin = .onramp → c.landsHere = true → s.behindCopy n (c.base + c.w * c.esz) ((c.total - c.w) * c.esz) = false →
      let poisons : Bool := c.tmplAddr.isNone && !(cpRing c.tmpl && c.ringSlot.isNone) && decide (c.w < c.total) && (c.guardedNow || s.acceptError c = 0)
      let r := s.poisonRange n (c.landAddr c.w) ((c.total - c.w) * c.esz)
      (poisons = true → r.1 = false → exec .copyAbortComplete s = .next r.2) ∧
      ((poisons = false ∨ r.1 = true) → ∃ t, exec .copyAbortComplete s = .next t ∧ Tbl.find t.copies n = none ∧
        (t.streamer x).err = BitVec.ofNat 8 c.err ∧ (t.streamer x).done = (s.streamer x).done + 1 ∧ (t.streamer x).cur ≠ some n ∧
        ∀ b tl off r, c.tmplAddr = none → c.guardedNow = true → cpRing c.tmpl = false → c.ringSlot = none → cpBar c.tmpl = 0 → b % 8 = 0 →
          c.landAddr c.w ≤ b → b < c.landAddr c.w + (c.total - c.w) * c.esz → b / 2 ^ 20 = c.landAddr c.w / 2 ^ 20 → s.copyWin c b 8 = some (.spad tl off r) → off + 8 ≤ s.spadBytes tl →
          t.isPoison (poolKey tl off / 8) = true)) ∧
    (∀ c, Tbl.find s.copies n = some c → c.active = true → c.guarded = true → exec .watermarkReport s = .next (s.setCopy n { c with reported := c.w })) ∧
    (∀ i, (s.ctx n).st = .blocked → (s.ctx n).await = .hold → (s.ctx n).waitAt = some i → Coded i →
      ∃ t, s.RunsAgain n i t ∧ exec .heldAccessRelease s = .next t) ∧
    -- remote copies
    (∀ r, Tbl.find s.rwins n = some r →
      let esz := (s.inp.data.headD 0).toNat
      let x := ((s.inp.data.drop 1).headD 16).toNat
      let len := s.inp.u.toNat
      let ok : Prop := (if s.inp.flag then r.get else r.put) = true ∧ (r.any = true ∨ r.modId = s.inp.m) ∧ v.toNat + len ≤ r.len ∧ len ≠ 0 ∧ esz ≤ 3 ∧
        len % 2 ^ esz = 0 ∧ 16 ≤ x ∧ x ≤ 31
      ((¬ ok ∨ s.ckptBusy = true) → exec .remoteCopyRequest s = .next s) ∧
      (ok → s.ckptBusy = false → ∃ t, exec .remoteCopyRequest s = .next t ∧ (t.streamer x).starts = (s.streamer x).starts ++ [s.fresh] ∧ (t.copy s.fresh).pasid = r.pasid ∧
        (t.copy s.fresh).total = len / 2 ^ esz ∧ (t.copy s.fresh).origin = .incoming ∧
        (if s.inp.flag then cpSrc (t.copy s.fresh).tmpl else cpDst (t.copy s.fresh).tmpl) = (r.base + v.toNat) % 2 ^ 64)) ∧
    (∀ c r, Tbl.find s.copies n = some c → c.active = true → c.st ≠ .aborting → c.remote = some r →
      let aborts (i : Instr) : Prop := exec i s = .next (s.setCopy n { c with st := .aborting, err := if c.err = 0 then 8 else c.err, ticket := none })
      (s.inp.flag = true → aborts .remotePutComplete) ∧
      (s.inp.flag = true → c.landsHere = false → exec .copyLand s = .next (s.setCopy n { c with remote := some { r with lastUs := s.us } })) ∧
      (c.landsHere = true → c.readsHere = false → s.turnsAway c = true → exec .copyLand s = .next (s.setCopy n { c with remote := some { r with lastUs := s.us } })) ∧
      (∀ x q e, s.inp.flag = false → c.landsHere = false → c.st = .running → c.total ≤ c.w → c.engine = .stream x → c.origin = .packet q e →
        ∃ t, exec .remotePutComplete s = .next t ∧ Tbl.find t.copies n = none ∧ (t.streamer x).done = (s.streamer x).done + 1 ∧
        ∀ w, Tbl.find (s.queue q).win e = some w → Tbl.find (t.queue q).win e = some { w with status := some (w.status.getD 0) }) ∧
      (r.lastUs + 50000 ≤ s.us → (c.st ≠ .accepting ∨ r.kind = .inPut) → c.landsHere = true → s.ckptBusy = false → aborts .remoteSourceTimeout) ∧
      (r.lastUs + 50000 ≤ s.us → (c.st ≠ .accepting ∨ r.kind = .inPut) → c.landsHere = false → aborts .remoteAckTimeout) ∧
      (s.us < r.lastUs + 50000 → exec .remoteSourceTimeout s = .next s ∧ exec .remoteAckTimeout s = .next s)) ∧
    -- gathers and scatters
    (∀ g, Tbl.find s.gathers n = some g →
      let m := s.inp.m
      let mine (e : Nat × Nat × List (Word × Bool)) : Bool := decide (g.owner e.2.1 = m)
      let rec0 := poolKey g.tile g.recOff
      let pend (t : State) : Nat := (t.wordAt (rec0 / 8)).toNat % 2 ^ 32
      let counter (i : Nat) : Nat := poolKey g.tile (g.cbase + 2 * (i / g.p))
      let counted (t : State) (rows : List (Nat × Nat × List (Word × Bool) × Bool)) : Prop := pend t = (pend s + 2 ^ 32 - 1) % 2 ^ 32 ∧
        (pend t = 0 → Tbl.find t.gathers n = none ∧ t.isEmpty (rec0 / 8) = false) ∧
        (pend t ≠ 0 → Tbl.find t.gathers n = some { g with rows := rows } ∧ t.isEmpty (rec0 / 8) = true)
      let apart (k len : Nat) : Prop := k + len ≤ rec0 ∨ rec0 + 8 ≤ k
      (g.scatter = false →
        (∀ e ∈ g.lists, mine e = true → g.rowOff e.2.1 + g.rb ≤ s.spadBytes m ∧ g.rowOff e.2.1 % 8 = 0 ∧ s.heldSpad m (g.rowOff e.2.1) g.rb none = false) →
        ∃ t g', exec .gatherSublistArrival s = .next t ∧ Tbl.find t.gathers n = some g' ∧ t.mem = s.mem ∧ g'.lists = g.lists.filter (fun e => !mine e) ∧
          g'.rows.map (fun r => (r.1, r.2.1)) = g.rows.map (fun r => (r.1, r.2.1)) ++ (g.lists.filter mine).map (fun e => (e.1, e.2.1)) ∧
          ∀ r ∈ g'.rows.drop g.rows.length, r.2.2.2 = false ∧ r.2.2.1.map Prod.fst =
            (List.range (g.rb / 8)).map fun i => s.wordAt (poolKey m (g.rowOff r.2.1) / 8 + i)) ∧
      (∀ k idx ws bad, g.rows.find? (fun e => e.1 = m) = some (k, idx, ws, bad) → rec0 % 8 = 0 → s.gaHeld g idx = false →
        (g.inTable idx = true → apart (counter idx) 2) →
        (g.scatter = false → s.heldSpad g.tile (g.loc + k * g.rb) g.rb none = false → g.inTable idx = true → ws.length * 8 = g.rb → (g.loc + k * g.rb) % 8 = 0 → apart (poolKey g.tile (g.loc + k * g.rb)) g.rb →
          (counter idx + 2 ≤ poolKey g.tile (g.loc + k * g.rb) ∨ poolKey g.tile (g.loc + k * g.rb) + g.rb ≤ counter idx / 8 * 8) →
          ∃ t, exec .gatherRowArrival s = .next t ∧ counted t (g.rows.filter fun e => decide (e.1 ≠ k)) ∧
            ∀ i, i < ws.length → t.wordAt (poolKey g.tile (g.loc + k * g.rb) / 8 + i) = (ws.getD i (0, false)).1 ∧
              t.isEmpty (poolKey g.tile (g.loc + k * g.rb) / 8 + i) = false) ∧
        (g.scatter = true → ∃ t, exec .scatterAck s = .next t ∧ counted t (g.rows.filter fun e => decide (e.1 ≠ k)) ∧
          ((t.wordAt (rec0 / 8)).getLsbD 33 = ((s.wordAt (rec0 / 8)).getLsbD 33 || !g.inTable idx)))) ∧
      (∀ k idx w ws, g.scatter = true → g.lists.find? (fun e => e.1 = m) = some (k, idx, w :: ws) →
        (∀ e ∈ g.lists, e.1 < k → g.owner e.2.1 ≠ g.owner idx) →
        let o := g.owner idx
        g.rowOff idx + g.rb ≤ s.spadBytes o → s.heldSpad o (g.rowOff idx) g.rb none = false → g.rowOff idx % 8 = 0 →
        ∃ t, exec .scatterRowArrival s = .next t ∧ Tbl.find t.gathers n = some { g with
            lists := g.lists.filter (fun e => decide (e.1 ≠ k)), rows := g.rows ++ [(k, idx, w :: ws, false)] } ∧
          ∀ i, i < (w :: ws).length → t.wordAt (poolKey o (g.rowOff idx) / 8 + i) = ((w :: ws).getD i (0, false)).1 ∧
            t.isPoison (poolKey o (g.rowOff idx) / 8 + i) = ((w :: ws).getD i (0, false)).2))

/-- R112, R146, R149, R159, R162 to R167, R174. The completion statement of the steps of the run queue, of waits that end, and of messages. The model's
own: the lowest of the free contexts (assumption 108), the retry of a waiting instruction from its start (assumption 68), a ring header whose TAIL lies
beyond the ring (assumption 96), a message that a mailbox cannot take (assumption 31), and the order of a stream of messages (assumption 73). -/
def Obligations.StrandEvents : Prop :=
  ∀ s : State, s.serving = true →
    let n := s.inp.n
    let c := s.inp.core
    let cs := s.core c
    -- the run queue
    (∀ pre e post, c.isTile = true → cs.run = none → cs.halted = none → cs.runq = pre ++ e :: post → e.level ≤ 3 →
      let ready (d : RunEntry) : Prop := (s.ctx (ctxKey c d.ctx)).st = .ready
      ready e → (∀ d ∈ pre, ready d → d.level < e.level) → (∀ d ∈ post, ready d → d.level ≤ e.level) →
      exec .dispatch s = .next ((s.setCore c { cs with
        run := some e.ctx, runSince := s.now, runq := cs.runq.filter fun d => decide (d.ctx ≠ e.ctx) }).setCtx (ctxKey c e.ctx) {
          s.ctx (ctxKey c e.ctx) with st := .running })) ∧
    (∀ e, cs.runq.find? (fun d => d.ctx = n) = some e →
      (e.level < 3 → e.since + 4096 ≤ s.now → exec .runqueueAgeing s = .next (s.setCore c { cs with
        runq := (cs.runq.filter fun d => decide (d.ctx ≠ e.ctx)) ++ [{ e with level := e.level + 1, since := s.now }] })) ∧
      ((3 ≤ e.level ∨ s.now < e.since + 4096) → exec .runqueueAgeing s = .next s)) ∧
    (∀ x, c.isTile = true → cs.run = some x → cs.halted = none →
      (cs.runSince + 16384 ≤ s.now → (∃ e ∈ cs.runq, (s.ctx (ctxKey c e.ctx)).st = .ready) → ∃ t, exec .timeSlice s = .next t ∧ (t.core c).run = none ∧
        (t.core c).runq = cs.runq ++ [{ ctx := x, level := (s.ctx (ctxKey c x)).prio, since := s.now }] ∧
        t.ctx (ctxKey c x) = { (s.ctx (ctxKey c x)).settled with st := .ready, failed := (s.ctx (ctxKey c x)).failed }) ∧
      ((s.now < cs.runSince + 16384 ∨ cs.runq = []) → exec .timeSlice s = .next s)) ∧
    -- waits that end
    (∀ i, (s.ctx n).st = .blocked → (s.ctx n).waitAt = some i → Coded i → ∃ t, s.RunsAgain n i t ∧
      ((s.ctx n).await ∈ [Await.hold, .refusals, .launches, .port, .window, .stream, .elements, .vector, .ack, .steal 4] → exec .blockedWake s = .next t) ∧
      (∀ k, (s.ctx n).await ∈ [Await.queue k, .full k, .empty k, .ring k, .collective k] → exec .blockedWake s = .next t) ∧
      (∀ k r, (s.ctx n).await ∈ [Await.matrix k r, .expert k (r.map fun w => (w.toNat, 0))] → (s.ctx n).await ≠ .expert k none → exec .blockedWake s = .next t) ∧
      (∀ k, (s.ctx n).await = .ticket k → Tbl.find s.tickets k = none → exec .blockedWake s = .next t) ∧
      (∀ x b d, (s.ctx n).await = .barrier b d → i = .bwait x →
        let left : Prop := (s.bar b).phase ≠ ((s.ctx n).gReg x.a.toNat).toNat % 16
        (left → exec .bwaitWake s = .next t) ∧ (¬ left → exec .bwaitWake s = .next s) ∧
        (¬ left → ∀ k, d = some k → k ≤ s.now → exec .bwaitTimeout s = .next t) ∧
        (∀ k, d = some k → s.now < k → exec .bwaitTimeout s = .next s))) ∧
    (∀ k, (s.ctx n).st = .blocked → (s.ctx n).waitAt = none → (s.ctx n).await = .ticket k → Tbl.find s.tickets k = none → (coreOfIx (n / 32)).isTile = true →
      ∃ t, exec .blockedWake s = .next t ∧ (t.ctx n).st = .ready ∧ (t.ctx n).pc = (s.ctx n).pc ∧ (t.ctx n).failed = (s.ctx n).failed ∧ t.mem = s.mem ∧ t.cur = s.cur ∧ t.curX = s.curX) ∧
    (∀ k, (s.ctx n).await = .ticket k → Tbl.find s.tickets k ≠ none → exec .blockedWake s = .next s) ∧
    -- messages
    (∀ m, Tbl.find s.msgs n = some m → s.deliverable n m = true →
      let r := m.target
      let cfg := Tbl.get 0 (s.core r).mbcfg m.mbox
      let armed : Prop := cfg.getLsbD 0 = true ∧ cfg.toNat / 2 % 4 = 0
      let data : Prop := cfg.getLsbD 0 = true ∧ cfg.toNat / 2 % 4 = 1
      (∀ x, m.kind ≠ .hop → armed → s.freeCtx r m.launch = some x → s.admits r m.launch (s.noticed n m) = true → (s.launch m.launch).st ≠ .stopping →
        ∃ t, exec .taskMessageArrival s = .next t ∧ Tbl.find t.msgs n = none ∧
          let y := t.ctx (ctxKey r x)
          y.st = .ready ∧ y.pc = Tbl.get 0 (s.core r).mbpc m.mbox ∧ y.launch = m.launch ∧ y.prio = m.mbox ∧ y.vl = 64 ∧ y.inh = false ∧
          y.strandId = 0x80000000 + BitVec.ofNat 32 x ∧ (∀ i, i < m.payload.length → i < 16 → Tbl.get 0 y.g i = m.payload.getD i 0) ∧
          (∀ i, i < 16 → y.live.getLsbD i = (decide (i < m.payload.length) || decide (i = 14))) ∧
          (t.core r).runq = (s.core r).runq ++ [{ ctx := x, level := m.mbox, since := s.now }]) ∧
      (m.kind ≠ .hop → armed → s.freeCtx r m.launch = none → (s.core r).listing n m.mbox = none → (s.core r).ctxList.length < 64 →
        exec .taskMessageArrival s = .next ((s.setCore r { s.core r with
          ctxList := (s.core r).ctxList ++ [{ msg := n, reservedUntil := none }] }).setMsg n { m with st := .listed })) ∧
      (m.kind ≠ .hop → ¬ armed → ¬ data → s.evq.length < 4096 → ∃ t, exec .taskMessageArrival s = .next t ∧ Tbl.find t.msgs n = none ∧
        s.Raised t 7 none 4 (BitVec.ofNat 64 (m.toTile ||| (if m.toA then 0 else 2 ^ 16) ||| m.mbox * 2 ^ 17)) (BitVec.ofNat 64 m.fromTile)) ∧
      (let off := cfg.toNat / 2 ^ 12 % 2 ^ 20;
        let key := poolKey m.toTile off;
        let h := s.ring key;
        m.kind ≠ .hop → data → s.dataHeld m = false → off + 16 ≤ s.spadBytes m.toTile → key % 8 = 0 → s.isPoison (key / 8) = false →
        s.isPoison (key / 8 + 1) = false → Tbl.get false s.hard (key / 8) = false → Tbl.get false s.hard (key / 8 + 1) = false →
        h.ok (s.spadBytes m.toTile) = true → 8 * m.payload.length ≤ 2 ^ h.slotlg → h.free ≠ 0 → s.ringSt key = {} →
        let slot := poolKey m.toTile (h.slotOff h.tailSlot)
        (slot + 8 * m.payload.length ≤ key / 8 * 8 ∨ key / 8 * 8 + 24 ≤ slot) → ∃ t, exec .dataMessageArrival s = .next t ∧ Tbl.find t.msgs n = none ∧
          t.ringSt key = {} ∧ ∀ i, i < m.payload.length → t.wordAt (slot / 8 + i) = m.payload.getD i 0 ∧ t.isEmpty (slot / 8 + i) = false) ∧
      (∀ x v, m.kind = .hop → m.carried = some v → s.freeCtx r m.launch = some x → s.admits r m.launch (s.noticed n m) = true →
        (s.launch v.launch).st ≠ .stopping → ctxKey r x ≠ m.srcCtx → ∃ t, exec .hopMessageArrival s = .next t ∧ Tbl.find t.msgs n = none ∧
          let y := t.ctx (ctxKey r x)
          y.st = .ready ∧ y.pc = v.pc ∧ y.strandId = v.strandId ∧ y.prio = v.prio ∧ y.launch = v.launch ∧ y.live = v.live ∧ y.vl = v.vl ∧
          y.vec = v.vec ∧ y.rm = v.rm ∧ y.aflags = v.aflags ∧ ∀ i, i < 16 → v.live.getLsbD i = true → Tbl.get 0 y.g i = Tbl.get 0 v.g i) ∧
      (m.kind = .hop → m.carried ≠ none → s.freeCtx r m.launch = none → (s.core r).listing n m.mbox = none → (s.core r).ctxList.length < 64 →
        exec .hopMessageArrival s = .next ((s.setCore r { s.core r with
          ctxList := (s.core r).ctxList ++ [{ msg := n, reservedUntil := none }] }).setMsg n { m with st := .listed }))) ∧
    -- notices
    (∀ pre e post, c.isTile = true → cs.ctxList = pre ++ e :: post → (∀ d ∈ pre, d.reservedUntil ≠ none) → e.reservedUntil = none →
      let u := (Tbl.get {} s.msgs e.msg).launch
      (∀ d ∈ cs.ctxList, s.isProducer (Tbl.get {} s.msgs d.msg).launch c.tileNo = false) → s.mayHold c u = true → s.reserved c < s.freeCount c u →
      exec .contextFreeNotice s = .next (s.setCore c { cs with ctxList := pre ++ { e with reservedUntil := some (s.now + 512) } :: post })) ∧
    (∀ pre e post, c.isTile = true →
      let key := poolKey c.tileNo ((Tbl.get 0 cs.mbcfg n).toNat / 2 ^ 12 % 2 ^ 20)
      Tbl.get [] cs.ringList n = pre ++ e :: post → (∀ d ∈ pre, d.msg ≠ e.msg) → e.reservedUntil = none → (s.ring key).free ≠ 0 →
      ((s.ringSt key).waiting.filter s.claimLive).head? = some (claimMsg e.msg) → exec .ringSpaceNotice s = .next (s.setCore c { cs with
        ringList := Tbl.set [] cs.ringList n (pre ++ { e with reservedUntil := some (s.now + 512) } :: post) })) ∧
    (∀ e k, e ∈ cs.ctxList → e.msg = n → e.reservedUntil = some k → k ≤ s.now → cs.ringList = [] →
      exec .noticeReservationExpiry s = .next (s.setCore c { cs with
        ctxList := (cs.ctxList.filter fun d => decide (d.msg ≠ n)) ++ [{ msg := n, reservedUntil := none, lapsed := true }] })) ∧
    (∀ m k, Tbl.find s.msgs n = some m → m.st = .unlisted k →
      (k + 2048 ≤ s.now → exec .unlistedResend s = .next (s.setMsg n { m with st := .resend })) ∧
      (s.now < k + 2048 → exec .unlistedResend s = .next s))

/-- R30, R45, R138, R158, R170 to R176, R215, R216, R399 to R401. The completion statement of the steps of launches. That a drain or resume descriptor
which cannot be read ends with status 3 is the model's choice (assumption 38), and so are what a save area holds (assumption 39), the registers that a start
beside a producer sets and a shared tile's record (assumptions 91, 92), status 4 of a launch whose template cannot be read (assumption 104), a launch
that waits (assumption 55), and the position of a launch without a queue (assumption 105). -/
def Obligations.LaunchEvents : Prop :=
  ∀ s : State, s.serving = true →
    let n := s.inp.n
    let v := s.inp.v
    let l := s.launch n
    let here : Prop := Tbl.find s.launches n = some l
    let bytes (t : State) (k len x : Nat) : Prop := ∀ i, i < len → t.byte (k + i) = BitVec.ofNat 8 (x / 2 ^ (8 * i))
    let gone (t : State) : Prop := Tbl.find t.launches n = none ∧ ∀ i ∈ l.tilesOf, n ∉ (t.tile i).runs
    let ended : Prop := ((l.st = .running ∨ l.st = .draining) ∧ s.halted n = true ∧ s.quiet n = true) ∨
      (l.st = .faulted ∧ ∀ e ∈ s.copies, e.2.ofLaunch n = true → e.2.st = .ended ∨ e.2.st = .aborted)
    let word : Nat := l.id.toNat * 2 ^ 32 + l.status
    -- retirement
    (here → ended →
      (∀ q e, l.origin = .packet q e → ∃ t, exec .launchComplete s = .next t ∧ gone t ∧
        ∀ w, Tbl.find (s.queue q).win e = some w → Tbl.find (t.queue q).win e = some { w with status := some (w.status.getD l.status) }) ∧
      (∀ c slot r ws p k s1, l.origin = .port c slot r [] ws p → l.failed = [] → l.status < 2 ^ 32 →
        s.agentKeys (workOf (0x1040 + c) (n + 1)) l.pasid 8 .atomic [(r + 0x60).toNat] = (.ok [some k], s1) → s1.launches = s.launches → (s1.cc c).orphans = [] →
        k + 8 ≤ 2 ^ 52 → ∃ t, exec .launchComplete s = .next t ∧ gone t ∧ bytes t k 8 word ∧ (t.cc c).argSlots = (s1.cc c).argSlots.erase slot) ∧
      (∀ a i q, l.origin = .tile a i q 0 → ∃ t, exec .launchComplete s = .next t ∧ gone t) ∧
      (∀ a i q d k s1, l.origin = .tile a i q d → d ≠ 0 → l.failed = [] → l.status < 2 ^ 32 →
        s.agentKey (workOf 0x1100 (2 * n + 1)) l.pasid d.toNat 8 .write = (.key k, s1) → s1.launches = s.launches → k + 8 ≤ 2 ^ 52 →
        ∃ t, exec .launchComplete s = .next t ∧ gone t ∧ bytes t k 8 word)) ∧
    (here → ¬ ended → exec .launchComplete s = .next s) ∧
    -- starts
    (let byPort : Prop := ∃ c slot r ps ws p, l.origin = .port c slot r ps ws p
      let byTile : Prop := ∃ a i q d, l.origin = .tile a i q d
      ∀ ev, (ev = Instr.portLaunchStart ∧ byPort) ∨ (ev = Instr.tileLaunchStart ∧ byTile) →
      let held : Prop := byPort ∨ s.holdsTmpl l.pasid l.tmplAddr.toNat = true
      (¬ held → l.st = .waiting → exec ev s = .next (s.setLaunch n { l with st := .faulted, status := 4, ticket := none })) ∧
      (held → s.launchBid n = none → exec ev s = .next s) ∧
      (∀ b, held → s.launchBid n = some b → l.ticket = none →
        (s.leavesCd0 b.tiles = true → exec ev s = .next (s.setLaunch n { l with st := .faulted, status := 8, ticket := none })) ∧
        (s.leavesCd0 b.tiles = false → s.granted b = false → exec ev s = .next s) ∧
        (∀ r tk s1, s.leavesCd0 b.tiles = false → s.granted b = true →
          s.launchTmpl (workOf 0x1100 (2 * n + 1)) l.pasid l.tmplAddr.toNat l.failed = ((r, tk), s1) → s1.launches = s.launches →
          (r = .later → exec ev s = .next (s1.setLaunch n { l with ticket := tk, held := tk.isNone })) ∧
          (r = .bad → exec ev s = .next (s1.setLaunch n { l with st := .faulted, status := 4, ticket := none }))) ∧
        (∀ tm tk s1, s.leavesCd0 b.tiles = false → s.granted b = true → s.launchTmpl (workOf 0x1100 (2 * n + 1)) l.pasid l.tmplAddr.toNat l.failed = ((.ok tm, tk), s1) →
          ∃ t, exec ev s = .next t ∧ t.launch n = { l with tmpl := tm, st := .running } ∧ ∀ i ∈ l.tilesOf, n ∈ (t.tile i).runs))) ∧
    (∀ r, (s.tile n).retained = some r →
      (r.since + 10000 ≤ s.us → (s.tile n).runs ≠ [] → exec .retentionExpiry s = .next (s.setTile n { s.tile n with retained := none })) ∧
      (r.since + 10000 ≤ s.us → (s.tile n).runs = [] → ∃ t, exec .retentionExpiry s = .next t ∧ (t.tile n).retained = none ∧
        (∀ k, poolKey n 0 ≤ k → k < poolKey (n + 1) 0 → t.byte k = 0) ∧ ∀ k, (k < poolKey n 0 ∨ poolKey (n + 1) 0 ≤ k) → t.byte k = s.byte k) ∧
      (s.us < r.since + 10000 → exec .retentionExpiry s = .next s)) ∧
    -- drains and resumptions
    (n < 16 →
      let drains (s1 : State) (x : Nat) : Prop := exec .drainReq s = .next (s1.setFw n { s1.fw n with drainOf := 0, drain := some x })
      let resumes (s1 : State) (x : Nat) : Prop := exec .resumeReq s = .next (s1.setFw n { s1.fw n with resumeOf := 0, resume := some x })
      (∀ s1, s.fcRecord n v 32 = (.later, s1) → exec .drainReq s = .next s1 ∧ exec .resumeReq s = .next s1) ∧
      (∀ s1, s.fcRecord n v 32 = (.bad, s1) → drains s1 3 ∧ resumes s1 3) ∧
      (∀ r s1, s.fcRecord n v 32 = (.ok r, s1) →
        let live := s1.liveLaunch (r / 2 ^ 44 % 2 ^ 20) (r / 2 ^ 64 % 2 ^ 32)
        let grace := r / 2 ^ 128 % 2 ^ 32
        let area := r / 2 ^ 192 % 2 ^ 64
        (live = none → drains s1 1 ∧ resumes s1 1) ∧
        (∀ u, live = some u →
          let k := s1.launch u
          let fine : Prop := s1.saveOk k area = true ∧ grace ≤ 1000
          ((k.st = .waiting ∨ k.st = .faulted) → drains s1 1 ∧ resumes s1 1) ∧
          ((k.st = .draining ∨ k.st = .stopping ∨ k.st = .resuming) → drains s1 2 ∧ resumes s1 2) ∧
          (k.st = .saved → drains s1 2) ∧ (k.st = .running → resumes s1 2) ∧
          (k.st = .running → s1.hasDependent u = true → drains s1 2) ∧
          (k.st = .running → s1.hasDependent u = false → ¬ fine → drains s1 3) ∧
          (k.st = .running → s1.hasDependent u = false → fine → exec .drainReq s = .next ((s1.setLaunch u { k with
            st := .draining, grace := s1.us + grace, drainFc := n, save := BitVec.ofNat 64 area }).setFw n { s1.fw n with drainOf := u, drain := none })) ∧
          (k.st = .saved → ¬ fine → resumes s1 3) ∧
          (k.st = .saved → fine → (k.save ≠ BitVec.ofNat 64 area ∨ s1.areaIntact u = false) → resumes s1 4) ∧
          (k.st = .saved → fine → k.save = BitVec.ofNat 64 area → s1.areaIntact u = true →
            (s1.rectFree k.tilesOf k.producer (some (tmplPart k.tmpl)) = false → resumes s1 5) ∧
            (s1.rectFree k.tilesOf k.producer (some (tmplPart k.tmpl)) = true → ∃ t, exec .resumeReq s = .next t ∧
              t.launch u = { k with st := .resuming, resumeFc := n } ∧ (t.fw n).resume = none ∧ (t.fw n).resumeOf = u ∧ ∀ i ∈ k.tilesOf, u ∈ (t.tile i).runs))))) ∧
    (here → l.st = .draining → l.grace ≤ s.us → ∃ t, exec .drainGraceExpiry s = .next t ∧ t.launch n = { l with st := .stopping } ∧
      ((∀ p ∈ s.ctxsOf n, ∀ b d, (s.ctx (ctxKey p.1 p.2)).await ≠ .barrier b d) → t.mem = s.mem) ∧
      (∀ p ∈ s.ctxsOf n, let x := s.ctx (ctxKey p.1 p.2); let y := t.ctx (ctxKey p.1 p.2);
        y.st = .saved ∧ y.pc = x.pc ∧ y.g = x.g ∧ y.live = x.live ∧ y.strandId = x.strandId ∧ y.waitAt = x.waitAt) ∧
      (∀ p ∈ s.ctxsOf n, (t.core p.1).run ≠ some p.2) ∧
      ∀ u c, Tbl.find s.copies u = some c → s.goesWith n c = true → (c.st = .running ∨ c.st = .frozen) →
        Tbl.find t.copies u = some { c with st := .frozen, drained := true, ticket := none }) ∧
    (here → l.st = .draining → s.us < l.grace → exec .drainGraceExpiry s = .next s) ∧
    (here → l.st = .stopping → s.settled n = true → l.drainFc < 16 → ∃ t r, exec .drainComplete s = .next t ∧ t.launch n = { l with st := .saved } ∧
      ((s.fw l.drainFc).drainOf = n → (s.fw l.drainFc).drain = none → (t.fw l.drainFc).drain = some 0) ∧ Tbl.find t.saved n = some r ∧ r.ctxs = (s.ctxsOf n).map (fun p => (ctxKey p.1 p.2, s.ctx (ctxKey p.1 p.2))) ∧
      (∀ p ∈ s.ctxsOf n, s.alone n p.1.tileNo = true → (t.ctx (ctxKey p.1 p.2)).st = .free) ∧ ∀ i ∈ l.tilesOf, n ∉ (t.tile i).runs) ∧
    (here → l.st = .stopping → s.settled n = false → exec .drainComplete s = .next s) ∧
    (here → l.st = .resuming → (s.resumeWrites n).savedWrites n = true → exec .resumeComplete s = .next (s.resumeWrites n)) ∧
    (here → l.st = .resuming → (s.resumeWrites n).savedWrites n = false → ∃ t, exec .resumeComplete s = .next t ∧ t.launch n = { l with st := .running } ∧
      (l.resumeFc < 16 → (s.fw l.resumeFc).resumeOf = n → (s.fw l.resumeFc).resume = none → (t.fw l.resumeFc).resume = some 0) ∧
      Tbl.find t.saved n = none ∧ ∀ e ∈ (Tbl.get {} s.saved n).ctxs, (∀ d ∈ (Tbl.get {} s.saved n).ctxs, d.1 = e.1 → d = e) →
        (t.ctx e.1).pc = e.2.pc ∧ (t.ctx e.1).g = e.2.g ∧ (t.ctx e.1).live = e.2.live ∧ (t.ctx e.1).strandId = e.2.strandId ∧
        (t.ctx e.1).st = (if e.2.await = .none then .ready else .blocked) ∧ (t.ctx e.1).cyc = e.2.cyc)

/-- R99, R166, R179 to R189, R192 to R196, R392, R395 to R398. The completion statement of the steps of expert paging, deques, counters and
collectives. The tree in which a sum is formed stands in `data` (assumption 35). -/
def Obligations.ExpertEvents : Prop :=
  ∀ s : State, s.serving = true →
    let n := s.inp.n
    let m := s.inp.m
    let v := s.inp.v
    -- commands of the firmware
    (n < 16 →
      let j := v.toNat / 16 % 2 ^ 14
      let e := s.entry j
      let st := ertState e
      let answers (i : Instr) (x : Nat) : Prop := exec i s = .next (s.setFw n { s.fw n with xstat := x })
      let becomes (i : Instr) (e' : Ert) : Prop := exec i s = .next ((s.setEntry j e').setFw n { s.fw n with xstat := 0 })
      let moves (i : Instr) (drain : Bool) (src dst : Nat) : Prop := ∃ t, exec i s = .next t ∧ (t.fw n).xstat = 0 ∧
        ertState (t.entry j) = (if drain then 3 else 1) ∧ ertFs (t.entry j) = false ∧ fld (t.entry j) 167 128 = 0 ∧
        (t.streamer s.fillStreamer).starts = (s.streamer s.fillStreamer).starts ++ [s.fresh] ∧
        let c := t.copy s.fresh
        c.origin = (if drain then .drain j else .fill j) ∧ c.pasid = ertPasid e ∧ cpSrc c.tmpl = src ∧ cpDst c.tmpl = dst ∧ c.total = ertSize e * 8192 ∧
        c.engine = .stream s.fillStreamer
      ((st ≠ 0 ∨ ertLv e = true) → answers .config 1) ∧ (st = 0 → ertLv e = false → ertPin e ≠ 0 → answers .config 2) ∧
      (∀ s1, st = 0 → ertLv e = false → ertPin e = 0 →
        (s.fcRecord n (s.fw n).xarg 64 = (.later, s1) → exec .config s = .next s1) ∧
        (s.fcRecord n (s.fw n).xarg 64 = (.bad, s1) → exec .config s = .next (s1.setFw n { s1.fw n with xstat := 3 })) ∧
        (∀ r w, s.fcRecord n (s.fw n).xarg 64 = (.ok r, s1) → w = BitVec.ofNat 512 r → imageOk w = false → exec .config s = .next (s1.setFw n { s1.fw n with xstat := 3 })) ∧
        (∀ r w, s.fcRecord n (s.fw n).xarg 64 = (.ok r, s1) → w = BitVec.ofNat 512 r → imageOk w = true → ∃ t, exec .config s = .next t ∧ (t.fw n).xstat = 0 ∧
          ∀ i, i < 512 → (t.entry j).getLsbD i = (w.getLsbD i && decide ((2 ≤ i ∧ i ≤ 3) ∨ (24 ≤ i ∧ i ≤ 57) ∨ (96 ≤ i ∧ i ≤ 111) ∨
            (192 ≤ i ∧ i ≤ 247) ∨ (256 ≤ i ∧ i ≤ 311) ∨ (320 ≤ i ∧ i ≤ 364))))) ∧
      (st ≠ 0 → answers .fill 1) ∧ (st = 0 → ertPin e ≠ 0 → answers .fill 2) ∧ (st = 0 → ertPin e = 0 → moves .fill false (ertTaddr e) (ertHaddr e)) ∧
      (st ≠ 2 → answers .evict 1 ∧ answers .setwb 1) ∧ (st = 2 → ertPin e ≠ 0 → answers .evict 2) ∧
      (st = 2 → ertPin e = 0 → ertWb e = true → moves .evict true (ertHaddr e) (ertTaddr e)) ∧
      (st = 2 → ertPin e = 0 → ertWb e = false → becomes .evict (ertSet e 1 0 0)) ∧
      (st = 2 → becomes .setwb (ertSet e 3 3 ((s.fw n).xarg.toNat % 2))) ∧
      (st = 1 → answers .flush 1) ∧ (st ≠ 1 → ertLv e = false → answers .flush 0) ∧
      (st ≠ 1 → ertLv e = true → ∃ t, exec .flush s = .next t ∧ (t.fw n).xstat = 0 ∧ t.ert = s.ert ∧ (t.layby (ertLayby e)).recs =
        (s.layby (ertLayby e)).recs.map fun p => if p.released then p else { p with
          record := recSet (recSet p.record 127 72 0) 43 43 1, released := true }) ∧
      (∀ s1, s.fcRecord n (s.fw n).xarg 64 = (.later, s1) → exec .setrep s = .next s1) ∧
      (∀ s1, (s.fcRecord n (s.fw n).xarg 64 = (.bad, s1) ∨ ∃ r, s.fcRecord n (s.fw n).xarg 64 = (.ok r, s1) ∧ imageOk (BitVec.ofNat 512 r) = false) →
        exec .setrep s = .next (s1.setFw n { s1.fw n with xstat := 3 })) ∧
      (∀ s1 r w, s.fcRecord n (s.fw n).xarg 64 = (.ok r, s1) → w = BitVec.ofNat 512 r → imageOk w = true → ∃ t, exec .setrep s = .next t ∧ (t.fw n).xstat = 0 ∧
        ∀ i, i < 512 → (t.entry j).getLsbD i = if 320 ≤ i ∧ i ≤ 364 then w.getLsbD i else (s1.entry j).getLsbD i) ∧
      ((ertLv e = false ∨ ertPin e = 0 ∨ ertUsable e = false) → becomes .clrpin (ertSet (ertSet e 79 64 0) 7 7 0))) ∧
    (s.ertTick + 65536 ≤ s.now → ∃ t, exec .ertAgeing s = .next t ∧ t.ertTick = s.ertTick + 65536 ∧ ∀ j, t.entry j =
      if ertState (s.entry j) = 2 ∧ ertPin (s.entry j) = 0 then ertSet (s.entry j) 95 80 (min 65535 (ertAge (s.entry j) + 1)) else s.entry j) ∧
    (s.now < s.ertTick + 65536 → exec .ertAgeing s = .next s) ∧
    -- requests and replies
    (∀ r, s.expert.find? (fun e => e.1 = n) = some (n, r) → r.reply = none →
      let e := s.entry r.entry
      let alien : Prop := ertPasid e = 0 ∨ ertPasid e ≠ (s.launch r.launch).pasid
      let replied (t : State) (x : Nat) (w : BitVec 128) : Prop := t.expert.find? (fun e => e.1 = n) = some (n, { r with reply := some (x, w) })
      let asked (p : State → Prop) : Prop := ∃ t, exec .expertRequest s = .next t ∧ p t
      (alien → asked fun t => replied t 4 r.record ∧ t.ert = s.ert ∧ t.laybys = s.laybys) ∧
      (∀ p k, ¬ alien → (r.kind = .look ∨ r.kind = .park) → s.placements r.entry (decide (r.kind = .look)) = p → p[ertRr e % p.length]? = some k →
        ertPin (s.entry k) < 65535 → asked fun t => replied t (if k = r.entry then 0 else 1) (recResolved r.record (ertHaddr (s.entry k)) k) ∧
          ertPin (t.entry k) = ertPin (s.entry k) + 1 ∧ ertAge (t.entry k) = 0 ∧ ertRr (t.entry r.entry) = (ertRr e + 1) % 4) ∧
      (¬ alien → (r.kind = .look ∨ r.kind = .park) → s.placements r.entry (decide (r.kind = .look)) = [] →
        let parked : Parked := { launch := r.launch, tile := r.tile, record := r.record, released := false }
        let starts : Prop := r.kind = .look ∧ ertState e = 0 ∧ ertFerr e = false
        (ertLv e = true → (s.layby (ertLayby e)).recs.length < 1024 → asked fun t => replied t 2 r.record ∧
          (t.layby (ertLayby e)).recs = (s.layby (ertLayby e)).recs ++ [parked] ∧ (starts → (t.copy s.fresh).origin = .fill r.entry)) ∧
        (ertLv e = true → 1024 ≤ (s.layby (ertLayby e)).recs.length → asked fun t => replied t 3 r.record ∧ t.laybys = s.laybys) ∧
        (∀ j, ertLv e = false → j < 512 → (s.layby j).bound = false → (∀ i, i < j → (s.layby i).bound = true) → asked fun t => replied t 2 r.record ∧
          (t.layby j).recs = [parked] ∧ (t.layby j).bound = true ∧ (t.layby j).entry = r.entry ∧ ertLv (t.entry r.entry) = true ∧
          ertLayby (t.entry r.entry) = j ∧ (starts → ertState (t.entry r.entry) = 1 ∧ (t.copy s.fresh).origin = .fill r.entry) ∧
          (¬ starts → ertState (t.entry r.entry) = ertState e)) ∧
        (ertLv e = false → (∀ i, i < 512 → (s.layby i).bound = true) → asked fun t => replied t 3 r.record ∧ t.laybys = s.laybys)) ∧
      (¬ alien → r.kind = .unpin →
        (ertPin e = 0 → asked fun t => replied t 5 r.record ∧ t.entry r.entry = ertSet e 7 7 1) ∧
        (ertPin e ≠ 0 → (ertUsable e = false ∨ ertLv e = false) → asked fun t => replied t 0 r.record ∧ t.entry r.entry = ertSet e 79 64 (ertPin e - 1)))) ∧
    (∀ r q, s.expert.find? (fun e => e.1 = n) = some (n, r) → r.reply = some q →
      let x := s.ctx r.key
      let s1 : State := { s with expert := s.expert.filter fun e => decide (e.1 ≠ n) }
      (x.await ≠ .expert n none → exec .expertReply s = .next s1) ∧
      (∀ i, x.await = .expert n none → x.st = .blocked → x.waitAt = some i → Coded i →
        ∃ t, (s1.setCtx r.key { x with await := .expert n (some q) }).RunsAgain r.key i t ∧ exec .expertReply s = .next t)) ∧
    -- laybys and deques
    (let l := s.layby n;
      let tl := s.tile m;
      ∀ pre p post, l.recs = pre ++ p :: post → (∀ o ∈ pre, o.tile ≠ m) → p.tile = m → p.released = true →
        ((s.launch p.launch).st = .running ∨ (s.launch p.launch).st = .draining) → (∀ e ∈ tl.dqList, e.msg ≠ n) →
        let pushed (i : Instr) : Prop := ∃ t, exec i s = .next t ∧ (t.tile m).deque = tl.deque ++ [p.record] ∧ (t.layby n).recs = pre ++ post
        let listed (i : Instr) : Prop := exec i s = .next ((s.setTile m { tl with
          dqList := tl.dqList ++ [{ msg := n, reservedUntil := none }] }).setLayby n { l with retryAt := Tbl.del l.retryAt m })
        (Tbl.find l.retryAt m = none → tl.dqRoom = true → pushed .laybyDelivery) ∧
        (Tbl.find l.retryAt m = none → tl.dqRoom = false → tl.dqList.length < 16 → listed .laybyDelivery) ∧
        (Tbl.find l.retryAt m = none → tl.dqRoom = false → 16 ≤ tl.dqList.length → exec .laybyDelivery s = .next (s.setLayby n { l with
          retryAt := Tbl.put l.retryAt m s.now })) ∧
        (∀ k, Tbl.find l.retryAt m = some k → exec .laybyDelivery s = .next s ∧ (s.now < k + 2048 → exec .laybyRetry s = .next s) ∧
          (k + 2048 ≤ s.now → tl.dqRoom = true → pushed .laybyRetry) ∧
          (k + 2048 ≤ s.now → tl.dqRoom = false → tl.dqList.length < 16 → listed .laybyRetry))) ∧
    (let tl := s.tile n;
      (∀ pre e post, tl.dqFree ≠ 0 → tl.dqList = pre ++ e :: post → (∀ d ∈ pre, d.reservedUntil ≠ none) → e.reservedUntil = none →
        exec .dequeSpaceNotice s = .next (s.setTile n { tl with dqList := pre ++ { e with reservedUntil := some (s.now + 512) } :: post })) ∧
      (∀ pre e post k, tl.dqList = pre ++ e :: post → e.reservedUntil = some k → k ≤ s.now → (∀ d ∈ pre ++ post, d.reservedUntil = none) →
        exec .dequeReservationExpiry s = .next (s.setTile n { tl with dqList := pre ++ post ++ [{ e with reservedUntil := none, lapsed := true }] }))) ∧
    (∀ x, Tbl.find s.steals n = some x →
      (x.reply = none →
        let d := (s.tile x.victim).deque
        let k := min ((d.length + 1) / 2) x.r
        ∃ t, exec .stealRequest s = .next t ∧ Tbl.find t.steals n = some { x with reply := some (d.take k) } ∧ (t.tile x.victim).deque = d.drop k) ∧
      (∀ recs, x.reply = some recs →
        let tl := s.tile x.thief
        let s1 := ({ s with steals := Tbl.del s.steals n }).setTile x.thief { tl.dqFreed with stealRes := tl.stealRes - x.r, deque := tl.deque ++ recs }
        let y := s.ctx x.ctx
        ((∀ i, y.await ≠ .steal i) → exec .stealReply s = .next s1) ∧
        (∀ k i, y.await = .steal k → (tl.deque ++ recs ≠ [] ∨ 3 ≤ k) → y.st = .blocked → y.waitAt = some i → Coded i →
          ∃ t, (s1.setCtx x.ctx { y with await := .steal 4 }).RunsAgain x.ctx i t ∧ exec .stealReply s = .next t) ∧
        (∀ k w, y.await = .steal k → tl.deque ++ recs = [] → k < 3 → neighbour (s.launch y.launch) x.thief (x.dir + (k + 1)) = some w →
          ∃ t q, exec .stealReply s = .next t ∧ (t.ctx x.ctx).await = .steal (k + 1) ∧ Tbl.find t.steals s.fresh = some q ∧ q.victim = w ∧
            q.thief = x.thief ∧ q.ctx = x.ctx ∧ q.reply = none ∧ q.dir = x.dir))) ∧
    -- counters and collectives
    (∀ e, Tbl.find s.elems n = some e →
      let off := e.base + 8 * (e.key.toNat % e.nb)
      let k := poolKey e.toTile off
      (s.spadBytes e.toTile < e.base + 8 * e.nb → s.evq.length < 4096 → ∃ t, exec .sendkArrival s = .next t ∧ Tbl.find t.elems n = none ∧ t.mem = s.mem ∧
        s.Raised t 7 none 2 (BitVec.ofNat 64 (e.toTile ||| e.fromTile * 2 ^ 16)) (BitVec.ofNat 64 e.base)) ∧
      (e.base + 8 * e.nb ≤ s.spadBytes e.toTile → s.heldSpad e.toTile off 8 none = true → exec .sendkArrival s = .next s) ∧
      (e.base + 8 * e.nb ≤ s.spadBytes e.toTile → s.heldSpad e.toTile off 8 none = false → k % 8 = 0 → e.snap = true →
        (∀ o ∈ s.elems, o.1 < n → o.2.snap = true → o.2.toTile ≠ e.toTile ∨ o.2.base ≠ e.base) → ∃ t, exec .sendkArrival s = .next t ∧
        Tbl.find t.elems n = none ∧ t.wordAt (k / 8) = e.val ∧ t.isPoison (k / 8) = e.poison ∧ t.isEmpty (k / 8) = false ∧
        ∀ i, (i < k ∨ k + 8 ≤ i) → t.byte i = s.byte i) ∧
      (e.base + 8 * e.nb ≤ s.spadBytes e.toTile → s.heldSpad e.toTile off 8 none = false → k % 8 = 0 → e.snap = false → ∃ t, exec .sendkArrival s = .next t ∧
        Tbl.find t.elems n = none ∧ (e.float = false → t.wordAt (k / 8) = s.wordAt (k / 8) + e.val) ∧
        (e.float = true → (t.wordAt (k / 8)).toNat / 2 ^ 32 = (s.wordAt (k / 8)).toNat / 2 ^ 32) ∧
        t.isPoison (k / 8) = ((s.load k 8).1.2 || e.poison) ∧ t.isEmpty (k / 8) = false ∧ ∀ i, (i < k ∨ k + 8 ≤ i) → t.byte i = s.byte i)) ∧
    (∀ r, Tbl.find s.colls n = some r →
      (r.parts.length ≠ r.tiles.length → exec .collectiveResult s = .next s) ∧
      (r.parts.length = r.tiles.length → r.kind = .gbar → exec .collectiveResult s = .next { s with colls := Tbl.del s.colls n }) ∧
      (r.parts.length = r.tiles.length →
        let ps := r.parts
        let lane := rredLane r.cmd s.inp.data ps
        let at_ (t p : Nat) : Nat := poolKey t p / 8
        (∀ p tl, r.kind = .kmerge → r.parts.filter (fun p => p.rank = 0) = [p] → r.tiles[0]? = some tl → p.off % 8 = 0 →
          s.heldSpad tl p.off (8 * (r.ctl.toNat / 2 ^ 8 % 8 + 1)) none = false →
          ∃ t, exec .collectiveResult s = .next t ∧ Tbl.find t.colls n = none ∧ ∀ i, i < r.ctl.toNat / 2 ^ 8 % 8 + 1 →
            t.wordAt (at_ tl p.off + i) = (gateMerge (r.ctl.toNat / 2 ^ 8 % 8 + 1) (ps.flatMap fun q => q.words.map Prod.fst)).getD i 0 ∧
            t.isEmpty (at_ tl p.off + i) = false) ∧
        (r.kind = .rred → r.parts.Pairwise (fun p q => p.rank ≠ q.rank) → r.tiles.Nodup → (∀ p ∈ r.parts, p.off % 8 = 0 ∧ p.off + 256 ≤ 2 ^ 20) →
          (∀ p ∈ r.parts, ∀ tl, r.tiles[p.rank]? = some tl → s.heldSpad tl p.off 256 none = false) →
          ∃ t, exec .collectiveResult s = .next t ∧ Tbl.find t.colls n = none ∧ ∀ p ∈ r.parts, (p.rank = 0 ∨ r.cmd / 4 % 2 = 1) →
            ∀ tl, r.tiles[p.rank]? = some tl → ∀ i, i < 32 →
              (t.wordAt (at_ tl p.off + i)).toNat % 2 ^ 32 = (lane (2 * i)).1.toNat ∧
              (t.wordAt (at_ tl p.off + i)).toNat / 2 ^ 32 = (lane (2 * i + 1)).1.toNat ∧
              t.isPoison (at_ tl p.off + i) = ((lane (2 * i)).2 || (lane (2 * i + 1)).2) ∧
              t.isEmpty (at_ tl p.off + i) = false)))

/-- R190, R198, R224, R236, R239, R253, R255 to R260, R362, R367 to R373, R375 to R381. The completion statement of the steps of a tile's engines. The model's
own: every poisoned element of an operand is logged as the product starts (assumption 22), the formats of block pages and error code 5 of a block that
does not match (assumption 37), the steps of the stochastic source and the order of conversions (assumption 71), poison of accumulator elements
(assumption 98), and how a captured vector command and the elements of a stream are held (assumptions 94, 97). -/
def Obligations.EngineEvents : Prop :=
  ∀ s : State, s.serving = true →
    let t := s.inp.n
    let m := s.inp.m
    let tl := s.tile t
    let bitOf (v : TReg) (r c : Nat) : Prop := Tbl.get false v.poison (64 * r + c) = true
    -- starts
    (s.inp.engine = .vector → tl.vecRun ≠ none → exec .engineCommandStart s = .next s) ∧
    (s.inp.engine = .vector → ∀ v r, s.vecEntries t = v :: r → tl.vecRun = none →
      (v.stage = .done → exec .engineCommandStart s = .next (s.setTile t { tl with vecQ := r, vecRun := some v })) ∧
      (∀ i, v.stage = .own i → exec .engineCommandStart s = .next s) ∧
      ∀ o, v.stage = .held o →
        let k := s.opsFill t o
        let p := k.vecPerform t v.ctx v.launch o
        (k.opsReady t o = false → exec .engineCommandStart s = .next k) ∧
        (k.opsReady t o = true → exec .engineCommandStart s = .next (p.2.setTile t { p.2.tile t with
          vecQ := r, vecRun := some { v with flags := p.1.1, stage := .done } }))) ∧
    (s.inp.engine = .copy → ∀ u r, tl.copyQ = u :: r →
      ((s.copy u).st ≠ .queued → exec .engineCommandStart s = .next (s.setTile t { tl with copyQ := r })) ∧
      ((s.copy u).st = .queued → 4 ≤ s.engineActive t → exec .engineCommandStart s = .next s) ∧
      ((s.copy u).st = .queued → s.engineActive t < 4 → s.claimWaits t = false → (s.copy u).drained = false →
        exec .engineCommandStart s = .next ((s.setTile t { tl with copyQ := r }).setCopy u { s.copy u with st := .accepting }))) ∧
    (s.inp.engine = .matrix → ∀ c r, tl.matQ = c :: r → tl.matRun = none →
      let a := s.treg t c.ta
      let b := s.treg t c.tb
      let hit (v : TReg) (cfg : Word) : Prop := ∃ i j, i < cfgRows cfg ∧ j < cfgCols cfg ∧ bitOf v i j
      let lost : Prop := ∃ i, i < 4096 ∧ Tbl.get false (s.acc t c.acc).bad i = true
      -- the steps of the stochastic source that the command's conversions take, once
      let own : MatCmd := if c.begun then c else { c with seed := tl.rndseed }
      let seed' := if c.begun = false ∧ rndMode c.mode 0 = .stoch then lfsrAfter tl.rndseed c.conversions else tl.rndseed
      (c.kind ≠ .mma → exec .engineCommandStart s = .next (s.setTile t { tl with matQ := r, matRun := some own, rndseed := seed' })) ∧
      (c.kind = .mma → (a.sem ≠ .full ∨ b.sem ≠ .full) → exec .engineCommandStart s = .next s) ∧
      (c.kind = .mma → a.sem = .full → b.sem = .full → ∃ k, exec .engineCommandStart s = .next k ∧ (k.tile t).matQ = r ∧
        (k.tile t).matRun = some own ∧ (k.acc t c.acc).val = (s.acc t c.acc).val ∧ (k.acc t c.acc).bad = (s.acc t c.acc).bad ∧
        ((k.acc t c.acc).poison = true ↔ (s.acc t c.acc).poison = true ∨ lost ∨ hit a c.cfga ∨ hit b c.cfgb) ∧
        (¬ lost → ¬ hit a c.cfga → ¬ hit b c.cfgb → (k.tile t).errlog = tl.errlog))) ∧
    (s.inp.engine = .load → ∀ c r, tl.loadQ = c :: r → c.started = false →
      let v := s.treg t c.reg
      let n := c.rows.length
      let k := poolKey t (c.b.toNat % 2 ^ 20)
      (c.kind = .tst → v.sem ≠ .full → exec .engineCommandStart s = .next s) ∧
      (c.kind = .tst → v.sem = .full → exec .engineCommandStart s = .next (s.setTile t { tl with loadQ := { c with started := true } :: r })) ∧
      (c.kind ≠ .tst → v.sem ≠ .empty → exec .engineCommandStart s = .next s) ∧
      (c.kind = .tld → v.sem = .empty → ∃ u, exec .engineCommandStart s = .next u ∧ u.mem = s.mem ∧
        u.treg t c.reg = { sem := .loading, cfg := c.cfg } ∧ (u.tile t).loadQ = { c with started := true, seed := tl.rndseed } :: r) ∧
      ((c.kind = .tldx ∨ c.kind = .tldxsg) → v.sem = .empty →
        (s.heldSpad t (c.b.toNat % 2 ^ 20) (4 * n) none = true → exec .engineCommandStart s = .next s) ∧
        (s.heldSpad t (c.b.toNat % 2 ^ 20) (4 * n) none = false → (∀ b ∈ (s.loadParts [(k, 4 * n, none)]).1, b.2 = false) →
          ∃ u x, exec .engineCommandStart s = .next u ∧ u.mem = s.mem ∧ u.treg t c.reg = { sem := .loading, cfg := c.cfg } ∧
            (u.tile t).loadQ = { c with started := true, seed := tl.rndseed, index := x } :: r ∧ ∀ i, i < n → Tbl.get 0 x i = Memory.read s.mem (k + 4 * i) 4))) ∧
    -- rows
    (∀ c r, tl.loadQ = c :: r → c.started = true → m ∈ c.rows → c.ticket = none → cfgOk c.cfg = true →
      let f := cfgFmt c.cfg
      let cols := cfgCols c.cfg
      let n := blockSize (cfgBgeo c.cfg)
      let w := cfgRaw c.cfg
      let work := loadWork t c.id
      let a := c.a + BitVec.ofNat 64 m * c.b
      let left := c.rows.filter fun i => decide (i ≠ m)
      let now : LoadCmd := { c with issued := max c.issued (m + 1) }
      let s0 := s.setTile t { tl with loadQ := now :: r }
      let goes (k : State) : Prop := exec .tileLoadRowArrival s = .next k
      -- the row leaves the command, which with its last row leaves the unit
      let gone (u : State) (fl : BitVec 6) : Prop :=
        (left ≠ [] → (u.tile t).loadQ = { now with rows := left, flags := c.flags ||| fl } :: r) ∧
        (left = [] → (u.tile t).loadQ = r ∧ (c.kind ≠ .tst → (u.treg t c.reg).sem = .full ∧ (u.treg t c.reg).base = c.base) ∧
          ((s.ctx c.ctx).st ≠ .free → (u.ctx c.ctx).aflags = (s.ctx c.ctx).aflags ||| c.flags ||| fl))
      let lands (k : State) (q : List (Nat × Bool) × List Nat) : Prop :=
        let e := rowMantissas f n c.base (rndMode c.mode 0) q.1 q.2 { seed := lfsrAfter c.seed (m * cols), flags := 0 }
        ∃ u, goes u ∧ u.mem = k.mem ∧ (u.tile t).rndseed = (k.tile t).rndseed ∧ gone u e.2.flags ∧
          ∀ j, j < cols → Tbl.get 0 (u.treg t c.reg).elem (64 * m + j) = e.1.1.getD j 0 ∧
            (bitOf (u.treg t c.reg) m j ↔ (q.1.getD j (0, false)).2 = true)
      let poisons (u : State) : Prop := ∀ j, j < cols → bitOf (u.treg t c.reg) m j ∧ Tbl.get 0 (u.treg t c.reg).elem (64 * m + j) = 0
      let logged (u : State) (code : Nat) : Prop := (u.tile t).errlog =
        if tl.errlog.length < 16 then tl.errlog ++ [BitVec.ofNat 64 (2 ^ 63 + code * 2 ^ 24 + c.reg * 2 ^ 20 + m * 2 ^ 8)] else tl.errlog
      let spoils (code : Nat) : Prop := ∃ u, goes u ∧ poisons u ∧ logged u code ∧ gone u 0
      let drops (code : Nat) : Prop := ∃ u, goes u ∧ logged u code ∧ gone u 0
      let remote (k : State) (t' off : Nat) (u : State) : Prop := goes u ∧ gone u 0 ∧ (k.evq.length < 4096 →
        k.Raised u 7 none 2 (BitVec.ofNat 64 (t' ||| t * 2 ^ 16)) (BitVec.ofNat 64 off))
      let raw (k : State) (ps : List (Nat × Nat × Option Nat)) : Prop := lands (k.loadParts ps).2 (rowOf f cols n (k.loadParts ps).1)
      let tickets (k : State) (z : Nat) : Prop := goes (k.setTile t { k.tile t with loadQ := { now with ticket := some z } :: (k.tile t).loadQ.tail })
      -- what stops a row of a `tld`
      let stops (q : EngAcc) (k : State) : Prop :=
        (q = .noWin → spoils 2) ∧ (∀ t' off, q = .remoteBad t' off → ∃ u, remote k t' off u ∧ poisons u) ∧ (q = .wait → goes k) ∧
        (∀ z, q = .fault z → tickets k z)
      ((c.mayIssue m = false ∨ s.rowBehind t c m = true) → goes s) ∧
      (c.mayIssue m = true → s.rowBehind t c m = false →
        (c.kind = .tld → c.failed = true → spoils 7) ∧
        (∀ pg k0, c.kind = .tld → c.failed = false → (if blockType f then s0.pageBlock t c.pasid a else (none, s0)) = (pg, k0) →
          (∀ q k, (∀ x, pg = some x → some x.1 ≠ pageOf f) → k0.engAccess t c.x true c.launch a w .read work = (q, k) →
            stops q k ∧ ∀ ps, q = .ok ps →
              ((∃ p ∈ ps, p.2.2 = some 15) → spoils 6) ∧
              ((∀ p ∈ ps, p.2.2 ≠ some 15) → (∃ p ∈ ps, p.2.2 ≠ none ∧ p.2.2 ≠ some 0 ∧ p.2.2 ≠ pageOf f) → spoils 5) ∧
              ((∀ p ∈ ps, p.2.2 = none ∨ p.2.2 = some 0 ∨ p.2.2 = pageOf f) → (∀ p ∈ ps, p.2.2 ≠ some 15) → raw k ps)) ∧
          (∀ x, pg = some x → some x.1 = pageOf f →
            let off := a.toNat % 65536
            let unit := a - BitVec.ofNat 64 off
            (blockSpan f cols n x.2 off = none → spoils 5) ∧
            ∀ e d q k, blockSpan f cols n x.2 off = some (e, d) →
              k0.engAccess t c.x true c.launch (unit + BitVec.ofNat 64 e.1) e.2 .read work = (q, k) →
              stops q k ∧ ∀ ps q' k', q = .ok ps → k.engAccess t c.x true c.launch (unit + BitVec.ofNat 64 d.1) d.2 .read work = (q', k') →
                stops q' k' ∧ ∀ ds, q' = .ok ds →
                  let es := k'.loadParts ps
                  let ns := es.2.loadParts ds
                  lands ns.2 (blockDecode f cols n (off / x.2) es.1 ns.1))) ∧
        (c.kind = .tldx →
          let a := c.a.toNat + Tbl.get 0 c.index m * w
          let own : Prop := a / 2 ^ 20 = 0xFF000000000 ∧ a % 2 ^ 20 + w ≤ s0.spadBytes t
          (¬ own → spoils 8) ∧ (own → s0.heldSpad t (a % 2 ^ 20) w none = true → goes s0) ∧
          (own → s0.heldSpad t (a % 2 ^ 20) w none = false → raw s0 [(poolKey t (a % 2 ^ 20), w, none)])) ∧
        (c.kind = .tldxsg → subgroupOf (s0.launch c.launch) t (c.ctl.toNat % 64) = none → spoils 8) ∧
        (∀ g, c.kind = .tldxsg → subgroupOf (s0.launch c.launch) t (c.ctl.toNat % 64) = some g →
          let e := Tbl.get 0 c.index m
          let i := if c.filt then e % 2 ^ 29 else e
          let per := c.ctl.toNat / 2 ^ 16 % 2 ^ 16
          let j := g.tileOf (i / per)
          let off := c.a.toNat % 2 ^ 20 + i % per * w
          let df := c.ctl.toNat / 2 ^ 32 % 2 ^ 20 + i % per
          let beyond : Prop := s0.spadBytes j < off + w
          let noFilt : Prop := c.filt = true ∧ s0.spadBytes j < df + 1
          let held : Prop := s0.heldSpad j off w none = true ∨ (c.filt = true ∧ s0.heldSpad j df 1 none = true)
          let old := (s0.byte (poolKey j df)).toNat
          let bit : Prop := old.testBit (e / 2 ^ 29) = true
          let set := s0.store (poolKey j df) 1 (old ||| 2 ^ (e / 2 ^ 29)) false
          (g.size * per ≤ i → spoils 8) ∧
          (i < g.size * per →
            (beyond → ∃ u, remote s0 j off u ∧ poisons u) ∧ (¬ beyond → noFilt → ∃ u, remote s0 j df u ∧ poisons u) ∧
            (¬ beyond → ¬ noFilt → held → goes s0) ∧
            (¬ beyond → ¬ noFilt → ¬ held → c.filt = false → raw s0 [(poolKey j off, w, none)]) ∧
            (¬ beyond → ¬ noFilt → ¬ held → c.filt = true → ¬ bit → raw set [(poolKey j off, w, none)]) ∧
            (¬ beyond → ¬ noFilt → ¬ held → c.filt = true → bit → ∃ u, goes u ∧ gone u 0 ∧
              (u.tile t).dupdrop.toNat = min (2 ^ 32 - 1) (tl.dupdrop.toNat + 1) ∧
              ∀ j, Tbl.get 0 (u.treg t c.reg).elem j = Tbl.get 0 (s.treg t c.reg).elem j))) ∧
        (c.kind = .tst → c.rows.head? ≠ some m → goes s) ∧
        (c.kind = .tst → c.rows.head? = some m → c.failed = true → drops 7) ∧
        (∀ q k, c.kind = .tst → c.rows.head? = some m → c.failed = false → s0.engAccess t c.x true c.launch a (cfgStore c.cfg) .write work = (q, k) →
          (q = .noWin → drops 2) ∧ (∀ t' off, q = .remoteBad t' off → ∃ u, remote k t' off u) ∧ (q = .wait → goes k) ∧
          (∀ z, q = .fault z → tickets k z) ∧
          ∀ ps, q = .ok ps →
            ((∃ p ∈ ps, p.2.2 = some 15) → drops 6) ∧
            ((∀ p ∈ ps, p.2.2 ≠ some 15) → (∃ p ∈ ps, p.2.2 ≠ none ∧ p.2.2 ≠ some 0 ∧ (limbsOf f ≠ 0 ∨ p.2.2 ≠ pageOf f)) → drops 5) ∧
            ((∀ p ∈ ps, p.2.2 = none ∨ p.2.2 = some 0 ∨ (limbsOf f = 0 ∧ p.2.2 = pageOf f)) → (∀ p ∈ ps, p.2.2 ≠ some 15) →
              ∃ u, goes u ∧ gone u 0 ∧ u.mem = (k.storeParts ps ((k.treg t c.reg).rowBytes c.cfg m)).mem)))) ∧
    -- products
    (∀ c p r, tl.matRun = some c → c.kind = .mma → c.pairs = p :: r →
      let v := s.acc t c.acc
      let a := s.treg t c.ta
      let b := s.treg t c.tb
      let P := operandBase (cfgFmt c.cfga) a.base + operandBase (cfgFmt c.cfgb) b.base
      let A := if v.anchored then min v.anchor P else P
      let el (k : Nat) : Int := v.int k * 2 ^ (if v.anchored then v.anchor - A else 0) + 2 ^ (P - A) * ((List.range 32).map fun i =>
        let x := a.operand c.cfga p.1 (k / 64) i
        let y := b.operand c.cfgb p.2 i (k % 64)
        x.1 * y.1 * 2 ^ (x.2 + y.2 + (44 - operandG (cfgFmt c.cfga) - operandG (cfgFmt c.cfgb)))).sum
      ∃ u, exec .mmaComplete s = .next u ∧ u.mem = s.mem ∧
        (let v' := u.acc t c.acc;
          v'.anchored = true ∧ v'.anchor = A ∧ v'.poison = v.poison ∧ v'.bad = [] ∧ (∀ k, k < 4096 → v'.int k = min (2 ^ 95 - 1) (max (-2 ^ 95) (el k))) ∧
          (v'.ovf = true ↔ v.ovf = true ∨ ∃ k, k < 4096 ∧ (el k < -2 ^ 95 ∨ 2 ^ 95 - 1 < el k))) ∧
        (r ≠ [] → (u.tile t).matRun = some { c with pairs := r } ∧ (u.tile t).treg = tl.treg) ∧
        (r = [] → (u.tile t).matRun = none ∧ ∀ i, (u.treg t i).sem =
          if (i = c.ta ∧ c.relA = true) ∨ (i = c.tb ∧ c.relB = true) then .empty else (s.treg t i).sem)) ∧
    -- the other commands of the matrix engine
    (∀ c, tl.matRun = some c →
      let a := s.acc t c.acc
      let waits : Prop := (s.ctx c.ctx).await = .matrix c.id none
      (c.kind = .accz → ∃ u, exec .matrixCommandComplete s = .next u ∧ u.acc t c.acc = {} ∧ (u.tile t).matRun = none ∧ (∀ k, u.ctx k = s.ctx k) ∧
        ∀ n, n ≠ c.acc → u.acc t n = s.acc t n) ∧
      (c.kind = .accstat → ∃ u, exec .matrixCommandComplete s = .next u ∧ (u.tile t).matRun = none ∧ (u.tile t).acc = tl.acc ∧
        (waits → (u.ctx c.ctx).await = .matrix c.id (some (BitVec.ofNat 64 a.anchor ||| (if a.anchored then 2 ^ 9 else 0) |||
          (if a.ovf then 2 ^ 10 else 0) ||| (if a.poison then 2 ^ 11 else 0))))) ∧
      (∀ act fd, c.kind = .accrd → c.active = act → BitVec.ofNat 6 c.fd = fd → 16 ≤ fd.toNat → fd.toNat < 48 → c.fd < 64 → t < 4096 →
        ∃ u, exec .matrixCommandComplete s = .next u ∧ (u.tile t).matRun = none ∧ (waits → (u.ctx c.ctx).await = .matrix c.id (some 0)) ∧
          u.mem = s.mem ∧ (u.acc t c.acc).val = a.val ∧
          ((u.acc t c.acc).poison = true ↔ a.poison = true ∨ ∃ l, l < 64 ∧ act.getLsbD l = true ∧ Tbl.get false a.bad (64 * c.row + l) = true) ∧
          ∀ l, l < 64 →
            let y := (u.core (.c t)).fReg (fd.toNat - 16)
            let z := (s.core (.c t)).fReg (fd.toNat - 16)
            if act.getLsbD l then y.bad l = false ∧ ∃ p, y.at l = (accLane a c.ty c.row (rndMode c.mode 0) l p).1 else y.at l = z.at l ∧ y.bad l = z.bad l) ∧
      (c.kind = .accwb → c.ticket ≠ none → exec .matrixCommandComplete s = .next s) ∧
      (∀ e k, c.kind = .accwb → c.ticket = none → s.wbGo t c 65 = (e, k) → ∃ u, exec .matrixCommandComplete s = .next u ∧ u.mem = k.mem ∧
        (e.rows ≠ [] → (u.tile t).matRun = some e) ∧ (e.rows = [] → (u.tile t).matRun = none ∧
          ((k.ctx e.ctx).st ≠ .free → (u.ctx e.ctx).aflags = (k.ctx e.ctx).aflags ||| e.flags))) ∧
      (∀ i rest fuel ps k, c.kind = .accwb → c.rows = i :: rest → c.failed = false →
        s.engAccess t c.x false c.launch (c.addr + BitVec.ofNat 64 (i * wbWidth c.ty c.bsz - c.carry.length)) (wbWidth c.ty c.bsz + c.carry.length) .write
          (matWork t c.id) = (.ok ps, k) →
        (∀ p ∈ ps, p.2.2 = none ∨ p.2.2 = some 0 ∨ p.2.2 = pageOf c.ty) →
        (∀ l, l < 64 → Tbl.get false (k.acc t c.acc).bad (64 * i + l) = false) →
        let q := wbRow (k.acc t c.acc) c.ty c.bsz c.base i (rndMode c.mode 0) { seed := lfsrAfter c.seed (64 * i), flags := 0 }
        -- a word that the next row shares is written with that row
        let bs := c.carry ++ q.1
        let len := bs.length - (if rest.head? = some (i + 1) then (c.addr.toNat + (i + 1) * wbWidth c.ty c.bsz) % 8 else 0)
        s.wbGo t c (fuel + 1) = ((k.storeParts ps (bs.take len)).wbGo t { c with rows := rest, carry := bs.drop len, flags := c.flags ||| q.2.flags } fuel))) ∧
    -- the vector engine and the streams
    (∀ v, tl.vecRun = some v → ∃ u, exec .vectorCommandComplete s = .next u ∧ u.tile t = { tl with vecRun := none } ∧ u.mem = s.mem ∧
      ((s.ctx v.ctx).st ≠ .free → u.ctx v.ctx = { s.ctx v.ctx with aflags := (s.ctx v.ctx).aflags ||| v.flags })) ∧
    (let v := s.strm t m;
      let len := fld v.desc 287 256 * fld v.desc 127 112 * fld v.desc 191 176 * fld v.desc 255 240
      let writes := fld v.desc 288 288 = 1
      let p := tl.fetchAt m
      let room : Prop := v.fetched.length < prefetchSize (tmplPart (s.launch v.launch).tmpl)
      (v.bound = false → exec .streamElementFetch s = .next s) ∧
      (v.bound = true →
        (writes → exec .streamElementFetch s = .next (s.performPushed t m)) ∧
        (¬ writes → (len ≤ p ∨ ¬ room) → exec .streamElementFetch s = .next s) ∧
        (∀ e k, ¬ writes → p < len → room → s.fetchElem t m = (some e, k) → exec .streamElementFetch s = .next
          (k.setStrm t m { k.strm t m with fetched := (k.strm t m).fetched ++ [(p, e.1, e.2)] })) ∧
        (∀ k, ¬ writes → p < len → room → s.fetchElem t m = (none, k) → exec .streamElementFetch s = .next k)))
end

