-- ==== Sys2Proof/Laws/Crypto.lean ====
section
/-! SUPPORT. The lengths of what the hash and the signature give (R32, R34), which the layout of an attestation report rests on. -/

namespace Sys2Proof.Machine

@[simp] theorem bytesOf_length (v n : Nat) : (bytesOf v n).length = n := by
  induction n generalizing v with
  | zero => rfl
  | succ n ih => simp [bytesOf, ih]

@[simp] theorem keccakRound_length (a : List Word) (c : Word) : (keccakRound a c).length = 25 := by simp [keccakRound]

theorem foldRounds_length (l : List Word) (a : List Word) (h : a.length = 25) : (l.foldl keccakRound a).length = 25 := by
  induction l generalizing a with
  | nil => exact h
  | cons c l ih => exact ih _ (keccakRound_length a c)

theorem keccak_length (a : List Word) (h : a.length = 25) : (keccak a).length = 25 := foldRounds_length _ _ h

theorem absorbAll_length (n : Nat) (a : List Word) (b : List Byte) (h : a.length = 25) : (absorbAll n a b).length = 25 := by
  induction n generalizing a b with
  | zero => exact h
  | succ n ih => exact ih _ _ (keccak_length _ (by simp))

theorem lanesBytes_length (a : List Word) (h : a.length = 25) : (lanesBytes a).length = 136 := by
  simp [lanesBytes, List.length_flatMap, h]

theorem squeeze_length (n : Nat) (a : List Word) (h : a.length = 25) : (squeeze n a).length = 136 * n := by
  induction n generalizing a with
  | zero => rfl
  | succ n ih => simp [squeeze, lanesBytes_length a h, ih _ (keccak_length a h)]; omega

@[simp] theorem shake256_length (m : List Byte) (n : Nat) : (shake256 m n).length = n := by
  simp only [shake256, List.length_take]
  rw [squeeze_length _ _ (absorbAll_length _ _ _ (by simp))]
  omega

@[simp] theorem edEncode_length (p : EdPoint) : (edEncode p).length = 57 := bytesOf_length _ 57

@[simp] theorem edSign_length (k m : List Byte) : (edSign k m).length = 114 := by simp [edSign]

@[simp] theorem digest_length (b : List Byte) : (digest b).length = 64 := shake256_length b 64

@[simp] theorem signed_length (b : List Byte) : (signed b).length = 114 := edSign_length _ _

/-- A report is 168 bytes with a nonce of 32 (R96). -/
theorem report_length (s : State) (n : List Byte) (h : n.length = 32) : (s.report n).length = 168 := by
  simp [State.report, State.imageDigest, State.recordDigest, h]

end Sys2Proof.Machine
end

