-- ==== Sys2Proof/Laws/Encoding.lean ====
section
/-! SUPPORT. The encoder's words as numbers, and that the decoder's fields read them back (R283, R284, R220). -/

namespace Sys2Proof

theorem append_toNat {m n : Nat} (a : BitVec m) (b : BitVec n) : (a ++ b).toNat = a.toNat * 2 ^ n + b.toNat := by
  rw [BitVec.toNat_append, Nat.shiftLeft_eq, Nat.mul_comm, Nat.two_pow_add_eq_or_of_lt b.isLt]

theorem extract_of_div {w : Word} {lo n v : Nat} (h : w.toNat / 2 ^ lo % 2 ^ n = v) : (w.extractLsb' lo n).toNat = v := by
  rw [BitVec.extractLsb'_toNat, Nat.shiftRight_eq_div_pow, h]

theorem getLsbD_of_div {w : Word} {lo : Nat} {b : Bool} (h : w.toNat / 2 ^ lo % 2 = b.toNat) : w.getLsbD lo = b := by
  rw [BitVec.getLsbD, Nat.testBit_eq_decide_div_mod_eq, h]
  cases b <;> rfl

theorem encR_toNat (op fn : Nat) (x : FmtR) : (encR op fn x).toNat =
    (op % 256) * 2 ^ 56 + (fn % 16) * 2 ^ 52 + x.pk.toNat * 2 ^ 49 + x.pn.toNat * 2 ^ 48 + x.d.toNat * 2 ^ 42 + x.a.toNat * 2 ^ 36 + x.b.toNat * 2 ^ 30 + x.c.toNat * 2 ^ 24 + x.ma.toNat * 2 ^ 21 + x.mb.toNat * 2 ^ 18 + x.mc.toNat * 2 ^ 15 + x.clamp.toNat * 2 ^ 13 + x.scale.toNat * 2 ^ 10 + x.dt.toNat * 2 ^ 5 + x.rm.toNat * 2 ^ 2 := by
  unfold encR encHead
  simp only [append_toNat, BitVec.toNat_ofNat, BitVec.toNat_ofBool]
  omega

theorem fmtR_encR (op fn : Nat) (x : FmtR) : fmtR (encR op fn x) = x := by
  have h := encR_toNat op fn x
  obtain ⟨pk, pn, d, a, b, c, ma, mb, mc, clamp, scale, dt, rm⟩ := x
  simp only at h
  have := pk.isLt; have := Bool.toNat_le pn; have := d.isLt; have := a.isLt; have := b.isLt; have := c.isLt; have := ma.isLt; have := mb.isLt; have := mc.isLt; have := clamp.isLt; have := scale.isLt; have := dt.isLt; have := rm.isLt
  simp only [fmtR, FmtR.mk.injEq]
  refine ⟨?_, ?_, ?_, ?_, ?_, ?_, ?_, ?_, ?_, ?_, ?_, ?_, ?_⟩
  all_goals first
    | (apply BitVec.eq_of_toNat_eq; apply extract_of_div; rw [h]; omega)
    | (apply getLsbD_of_div; rw [h]; omega)

/-- `OP`, `FN` and the predicate of a format R word. -/
theorem encR_head (op fn : Nat) (x : FmtR) : (encR op fn x).toNat / 2 ^ 48 =
    (op % 256) * 2 ^ 8 + (fn % 16) * 2 ^ 4 + x.pk.toNat * 2 + x.pn.toNat := by
  have h := encR_toNat op fn x
  obtain ⟨pk, pn, d, a, b, c, ma, mb, mc, clamp, scale, dt, rm⟩ := x
  simp only at h ⊢
  have := pk.isLt; have := Bool.toNat_le pn; have := d.isLt; have := a.isLt; have := b.isLt; have := c.isLt; have := ma.isLt; have := mb.isLt; have := mc.isLt; have := clamp.isLt; have := scale.isLt; have := dt.isLt; have := rm.isLt
  rw [h]
  omega

theorem encR_op (op fn : Nat) (x : FmtR) : (encR op fn x).toNat >>> 56 = op % 256 := by
  have h := encR_head op fn x
  have := x.pk.isLt; have := Bool.toNat_le x.pn
  rw [Nat.shiftRight_eq_div_pow]
  omega

theorem encR_fn (op fn : Nat) (x : FmtR) : ((encR op fn x).toNat >>> 52) % 16 = fn % 16 := by
  have h := encR_head op fn x
  have := x.pk.isLt; have := Bool.toNat_le x.pn
  rw [Nat.shiftRight_eq_div_pow]
  omega

theorem encI_toNat (op fn : Nat) (x : FmtI) : (encI op fn x).toNat =
    (op % 256) * 2 ^ 56 + (fn % 16) * 2 ^ 52 + x.pk.toNat * 2 ^ 49 + x.pn.toNat * 2 ^ 48 + x.d.toNat * 2 ^ 42 + x.a.toNat * 2 ^ 36 + x.la.toNat * 2 ^ 35 + x.it.toNat * 2 ^ 32 + x.imm.toNat := by
  unfold encI encHead
  simp only [append_toNat, BitVec.toNat_ofNat, BitVec.toNat_ofBool]
  omega

theorem fmtI_encI (op fn : Nat) (x : FmtI) : fmtI (encI op fn x) = x := by
  have h := encI_toNat op fn x
  obtain ⟨pk, pn, d, a, la, it, imm⟩ := x
  simp only at h
  have := pk.isLt; have := Bool.toNat_le pn; have := d.isLt; have := a.isLt; have := Bool.toNat_le la; have := it.isLt; have := imm.isLt
  simp only [fmtI, FmtI.mk.injEq]
  refine ⟨?_, ?_, ?_, ?_, ?_, ?_, ?_⟩
  all_goals first
    | (apply BitVec.eq_of_toNat_eq; apply extract_of_div; rw [h]; omega)
    | (apply getLsbD_of_div; rw [h]; omega)

/-- `OP`, `FN` and the predicate of a format I word. -/
theorem encI_head (op fn : Nat) (x : FmtI) : (encI op fn x).toNat / 2 ^ 48 =
    (op % 256) * 2 ^ 8 + (fn % 16) * 2 ^ 4 + x.pk.toNat * 2 + x.pn.toNat := by
  have h := encI_toNat op fn x
  obtain ⟨pk, pn, d, a, la, it, imm⟩ := x
  simp only at h ⊢
  have := pk.isLt; have := Bool.toNat_le pn; have := d.isLt; have := a.isLt; have := Bool.toNat_le la; have := it.isLt; have := imm.isLt
  rw [h]
  omega

theorem encI_op (op fn : Nat) (x : FmtI) : (encI op fn x).toNat >>> 56 = op % 256 := by
  have h := encI_head op fn x
  have := x.pk.isLt; have := Bool.toNat_le x.pn
  rw [Nat.shiftRight_eq_div_pow]
  omega

theorem encI_fn (op fn : Nat) (x : FmtI) : ((encI op fn x).toNat >>> 52) % 16 = fn % 16 := by
  have h := encI_head op fn x
  have := x.pk.isLt; have := Bool.toNat_le x.pn
  rw [Nat.shiftRight_eq_div_pow]
  omega

theorem encM_toNat (op fn : Nat) (x : FmtM) : (encM op fn x).toNat =
    (op % 256) * 2 ^ 56 + (fn % 16) * 2 ^ 52 + x.pk.toNat * 2 ^ 49 + x.pn.toNat * 2 ^ 48 + x.dr.toNat * 2 ^ 42 + x.base.toNat * 2 ^ 36 + x.idx.toNat * 2 ^ 30 + x.lbase.toNat * 2 ^ 29 + x.lidx.toNat * 2 ^ 28 + x.sc.toNat * 2 ^ 26 + x.ord.toNat * 2 ^ 24 + x.size.toNat * 2 ^ 20 + x.off.toNat := by
  unfold encM encHead
  simp only [append_toNat, BitVec.toNat_ofNat, BitVec.toNat_ofBool]
  omega

theorem fmtM_encM (op fn : Nat) (x : FmtM) : fmtM (encM op fn x) = x := by
  have h := encM_toNat op fn x
  obtain ⟨pk, pn, dr, base, idx, lbase, lidx, sc, ord, size, off⟩ := x
  simp only at h
  have := pk.isLt; have := Bool.toNat_le pn; have := dr.isLt; have := base.isLt; have := idx.isLt; have := Bool.toNat_le lbase; have := Bool.toNat_le lidx; have := sc.isLt; have := ord.isLt; have := size.isLt; have := off.isLt
  simp only [fmtM, FmtM.mk.injEq]
  refine ⟨?_, ?_, ?_, ?_, ?_, ?_, ?_, ?_, ?_, ?_, ?_⟩
  all_goals first
    | (apply BitVec.eq_of_toNat_eq; apply extract_of_div; rw [h]; omega)
    | (apply getLsbD_of_div; rw [h]; omega)

/-- `OP`, `FN` and the predicate of a format M word. -/
theorem encM_head (op fn : Nat) (x : FmtM) : (encM op fn x).toNat / 2 ^ 48 =
    (op % 256) * 2 ^ 8 + (fn % 16) * 2 ^ 4 + x.pk.toNat * 2 + x.pn.toNat := by
  have h := encM_toNat op fn x
  obtain ⟨pk, pn, dr, base, idx, lbase, lidx, sc, ord, size, off⟩ := x
  simp only at h ⊢
  have := pk.isLt; have := Bool.toNat_le pn; have := dr.isLt; have := base.isLt; have := idx.isLt; have := Bool.toNat_le lbase; have := Bool.toNat_le lidx; have := sc.isLt; have := ord.isLt; have := size.isLt; have := off.isLt
  rw [h]
  omega

theorem encM_op (op fn : Nat) (x : FmtM) : (encM op fn x).toNat >>> 56 = op % 256 := by
  have h := encM_head op fn x
  have := x.pk.isLt; have := Bool.toNat_le x.pn
  rw [Nat.shiftRight_eq_div_pow]
  omega

theorem encM_fn (op fn : Nat) (x : FmtM) : ((encM op fn x).toNat >>> 52) % 16 = fn % 16 := by
  have h := encM_head op fn x
  have := x.pk.isLt; have := Bool.toNat_le x.pn
  rw [Nat.shiftRight_eq_div_pow]
  omega

theorem encE_toNat (op fn : Nat) (x : FmtE) : (encE op fn x).toNat =
    (op % 256) * 2 ^ 56 + (fn % 16) * 2 ^ 52 + x.pk.toNat * 2 ^ 49 + x.pn.toNat * 2 ^ 48 + x.d.toNat * 2 ^ 42 + x.a.toNat * 2 ^ 36 + x.b.toNat * 2 ^ 30 + x.c.toNat * 2 ^ 24 + x.la.toNat * 2 ^ 23 + x.lb.toNat * 2 ^ 22 + x.lc.toNat * 2 ^ 21 + x.cmd.toNat := by
  unfold encE encHead
  simp only [append_toNat, BitVec.toNat_ofNat, BitVec.toNat_ofBool]
  omega

theorem fmtE_encE (op fn : Nat) (x : FmtE) : fmtE (encE op fn x) = x := by
  have h := encE_toNat op fn x
  obtain ⟨pk, pn, d, a, b, c, la, lb, lc, cmd⟩ := x
  simp only at h
  have := pk.isLt; have := Bool.toNat_le pn; have := d.isLt; have := a.isLt; have := b.isLt; have := c.isLt; have := Bool.toNat_le la; have := Bool.toNat_le lb; have := Bool.toNat_le lc; have := cmd.isLt
  simp only [fmtE, FmtE.mk.injEq]
  refine ⟨?_, ?_, ?_, ?_, ?_, ?_, ?_, ?_, ?_, ?_⟩
  all_goals first
    | (apply BitVec.eq_of_toNat_eq; apply extract_of_div; rw [h]; omega)
    | (apply getLsbD_of_div; rw [h]; omega)

/-- `OP`, `FN` and the predicate of a format E word. -/
theorem encE_head (op fn : Nat) (x : FmtE) : (encE op fn x).toNat / 2 ^ 48 =
    (op % 256) * 2 ^ 8 + (fn % 16) * 2 ^ 4 + x.pk.toNat * 2 + x.pn.toNat := by
  have h := encE_toNat op fn x
  obtain ⟨pk, pn, d, a, b, c, la, lb, lc, cmd⟩ := x
  simp only at h ⊢
  have := pk.isLt; have := Bool.toNat_le pn; have := d.isLt; have := a.isLt; have := b.isLt; have := c.isLt; have := Bool.toNat_le la; have := Bool.toNat_le lb; have := Bool.toNat_le lc; have := cmd.isLt
  rw [h]
  omega

theorem encE_op (op fn : Nat) (x : FmtE) : (encE op fn x).toNat >>> 56 = op % 256 := by
  have h := encE_head op fn x
  have := x.pk.isLt; have := Bool.toNat_le x.pn
  rw [Nat.shiftRight_eq_div_pow]
  omega

theorem encE_fn (op fn : Nat) (x : FmtE) : ((encE op fn x).toNat >>> 52) % 16 = fn % 16 := by
  have h := encE_head op fn x
  have := x.pk.isLt; have := Bool.toNat_le x.pn
  rw [Nat.shiftRight_eq_div_pow]
  omega

theorem encJ_toNat (op fn : Nat) (x : FmtJ) : (encJ op fn x).toNat =
    (op % 256) * 2 ^ 56 + (fn % 16) * 2 ^ 52 + x.pk.toNat * 2 ^ 49 + x.pn.toNat * 2 ^ 48 + x.reg.toNat * 2 ^ 42 + x.off.toNat := by
  unfold encJ encHead
  simp only [append_toNat, BitVec.toNat_ofNat, BitVec.toNat_ofBool]
  omega

theorem fmtJ_encJ (op fn : Nat) (x : FmtJ) : fmtJ (encJ op fn x) = x := by
  have h := encJ_toNat op fn x
  obtain ⟨pk, pn, reg, off⟩ := x
  simp only at h
  have := pk.isLt; have := Bool.toNat_le pn; have := reg.isLt; have := off.isLt
  simp only [fmtJ, FmtJ.mk.injEq]
  refine ⟨?_, ?_, ?_, ?_⟩
  all_goals first
    | (apply BitVec.eq_of_toNat_eq; apply extract_of_div; rw [h]; omega)
    | (apply getLsbD_of_div; rw [h]; omega)

/-- `OP`, `FN` and the predicate of a format J word. -/
theorem encJ_head (op fn : Nat) (x : FmtJ) : (encJ op fn x).toNat / 2 ^ 48 =
    (op % 256) * 2 ^ 8 + (fn % 16) * 2 ^ 4 + x.pk.toNat * 2 + x.pn.toNat := by
  have h := encJ_toNat op fn x
  obtain ⟨pk, pn, reg, off⟩ := x
  simp only at h ⊢
  have := pk.isLt; have := Bool.toNat_le pn; have := reg.isLt; have := off.isLt
  rw [h]
  omega

theorem encJ_op (op fn : Nat) (x : FmtJ) : (encJ op fn x).toNat >>> 56 = op % 256 := by
  have h := encJ_head op fn x
  have := x.pk.isLt; have := Bool.toNat_le x.pn
  rw [Nat.shiftRight_eq_div_pow]
  omega

theorem encJ_fn (op fn : Nat) (x : FmtJ) : ((encJ op fn x).toNat >>> 52) % 16 = fn % 16 := by
  have h := encJ_head op fn x
  have := x.pk.isLt; have := Bool.toNat_le x.pn
  rw [Nat.shiftRight_eq_div_pow]
  omega

/-- The reserved bits [1:0] of a format R word are 0. -/
theorem encR_reserved (op fn : Nat) (x : FmtR) : (encR op fn x).extractLsb' 0 2 = 0 := by
  apply BitVec.eq_of_toNat_eq
  apply extract_of_div
  rw [encR_toNat]
  show _ = 0
  omega

end Sys2Proof
end

