-- ==== Sys2Proof/Laws/Tables.lean ====
section
/-! SUPPORT. Tables keyed by numbers: reading after writing, and the canonical form that every write keeps. -/

namespace Sys2Proof

variable {α : Type}

@[simp] theorem Tbl.find_del_self (m : Tbl α) (k : Nat) : Tbl.find (Tbl.del m k) k = none := by
  induction m with
  | nil => rfl
  | cons e r ih =>
    by_cases h : e.1 = k
    · simpa [Tbl.del, h] using ih
    · simpa [Tbl.del, Tbl.find, h] using ih

theorem Tbl.find_del_ne (m : Tbl α) {k j : Nat} (h : j ≠ k) : Tbl.find (Tbl.del m k) j = Tbl.find m j := by
  induction m with
  | nil => rfl
  | cons e r ih =>
    by_cases h1 : e.1 = k
    · have h2 : e.1 ≠ j := fun h3 => h (by omega)
      simpa [Tbl.del, Tbl.find, h1, h2, h1 ▸ h2] using ih
    · simp only [Tbl.del, h1, if_false, Tbl.find, ih]

theorem Tbl.find_ins_self (m : Tbl α) (k : Nat) (v : α) (h : Tbl.find m k = none) : Tbl.find (Tbl.ins m k v) k = some v := by
  induction m with
  | nil => simp [Tbl.ins, Tbl.find]
  | cons e r ih =>
    have h1 : e.1 ≠ k := fun h1 => by simp [Tbl.find, h1] at h
    have h2 : Tbl.find r k = none := by simpa [Tbl.find, h1] using h
    by_cases h3 : k < e.1
    · simp [Tbl.ins, Tbl.find, h3]
    · simpa [Tbl.ins, Tbl.find, h3, h1] using ih h2

theorem Tbl.find_ins_ne (m : Tbl α) {k j : Nat} (v : α) (h : j ≠ k) : Tbl.find (Tbl.ins m k v) j = Tbl.find m j := by
  induction m with
  | nil => simp [Tbl.ins, Tbl.find, h.symm]
  | cons e r ih =>
    by_cases h3 : k < e.1
    · simp [Tbl.ins, Tbl.find, h3, h.symm]
    · simp only [Tbl.ins, h3, if_false, Tbl.find, ih]

@[simp] theorem Tbl.find_put_self (m : Tbl α) (k : Nat) (v : α) : Tbl.find (Tbl.put m k v) k = some v :=
  Tbl.find_ins_self _ _ _ (Tbl.find_del_self m k)

theorem Tbl.find_put_ne (m : Tbl α) {k j : Nat} (v : α) (h : j ≠ k) : Tbl.find (Tbl.put m k v) j = Tbl.find m j := by
  rw [Tbl.put, Tbl.find_ins_ne _ v h, Tbl.find_del_ne m h]

@[simp] theorem Tbl.get_put_self (d : α) (m : Tbl α) (k : Nat) (v : α) : Tbl.get d (Tbl.put m k v) k = v := by simp [Tbl.get]

theorem Tbl.get_put_ne (d : α) (m : Tbl α) {k j : Nat} (v : α) (h : j ≠ k) : Tbl.get d (Tbl.put m k v) j = Tbl.get d m j := by
  simp [Tbl.get, Tbl.find_put_ne m v h]

variable [DecidableEq α]

@[simp] theorem Tbl.get_set_self (d : α) (m : Tbl α) (k : Nat) (v : α) : Tbl.get d (Tbl.set d m k v) k = v := by
  by_cases h : v = d <;> simp [Tbl.set, Tbl.get, h]

theorem Tbl.get_set_ne (d : α) (m : Tbl α) {k j : Nat} (v : α) (h : j ≠ k) : Tbl.get d (Tbl.set d m k v) j = Tbl.get d m j := by
  by_cases hv : v = d <;> simp [Tbl.set, Tbl.get, hv, Tbl.find_del_ne m h, Tbl.find_put_ne m v h]

theorem Tbl.get_set (d : α) (m : Tbl α) (k j : Nat) (v : α) : Tbl.get d (Tbl.set d m k v) j = if j = k then v else Tbl.get d m j := by
  split
  · next h => simp [h]
  · next h => exact Tbl.get_set_ne d m v h

theorem Tbl.wfFrom_mono (d : α) (m : Tbl α) {a b : Nat} (h : a ≤ b) (w : Tbl.wfFrom d b m = true) : Tbl.wfFrom d a m = true := by
  cases m with
  | nil => rfl
  | cons e r => simp [Tbl.wfFrom] at *; exact ⟨by omega, w.2⟩

theorem Tbl.wfFrom_del (d : α) (m : Tbl α) (a k : Nat) (w : Tbl.wfFrom d a m = true) : Tbl.wfFrom d a (Tbl.del m k) = true := by
  induction m generalizing a with
  | nil => rfl
  | cons e r ih =>
    simp [Tbl.wfFrom] at w
    by_cases h : e.1 = k
    · simpa [Tbl.del, h] using ih a (Tbl.wfFrom_mono d r (by omega) w.2.2)
    · simp [Tbl.del, h, Tbl.wfFrom, w, ih _ w.2.2]

theorem Tbl.wfFrom_ins (d : α) (m : Tbl α) (a k : Nat) (v : α) (hv : v ≠ d) (ha : a ≤ k) (hf : Tbl.find m k = none)
    (w : Tbl.wfFrom d a m = true) : Tbl.wfFrom d a (Tbl.ins m k v) = true := by
  induction m generalizing a with
  | nil => simp [Tbl.ins, Tbl.wfFrom, hv, ha]
  | cons e r ih =>
    simp [Tbl.wfFrom] at w
    have h1 : e.1 ≠ k := fun h1 => by simp [Tbl.find, h1] at hf
    have h2 : Tbl.find r k = none := by simpa [Tbl.find, h1] using hf
    by_cases h3 : k < e.1
    · simp [Tbl.ins, h3, Tbl.wfFrom, hv, ha, w]
    · simp [Tbl.ins, h3, Tbl.wfFrom, w, ih (e.1 + 1) (by omega) h2 w.2.2]

/-- A canonical table stays canonical when an entry is written. -/
theorem Tbl.wf_set (d : α) (m : Tbl α) (k : Nat) (v : α) (w : Tbl.wf d m = true) : Tbl.wf d (Tbl.set d m k v) = true := by
  by_cases hv : v = d
  · simpa [Tbl.set, hv, Tbl.wf] using Tbl.wfFrom_del d m 0 k w
  · simpa [Tbl.set, hv, Tbl.wf, Tbl.put] using
      Tbl.wfFrom_ins d _ 0 k v hv (Nat.zero_le k) (Tbl.find_del_self m k) (Tbl.wfFrom_del d m 0 k w)

theorem Tbl.wfFrom_filter (d : α) (m : Tbl α) (a : Nat) (p : Nat × α → Bool) (w : Tbl.wfFrom d a m = true) :
    Tbl.wfFrom d a (m.filter p) = true := by
  induction m generalizing a with
  | nil => rfl
  | cons e r ih =>
    simp [Tbl.wfFrom] at w
    by_cases h : p e = true
    · simp [h, Tbl.wfFrom, w, ih _ w.2.2]
    · simpa [List.filter_cons, h] using ih a (Tbl.wfFrom_mono d r (by omega) w.2.2)

/-- A canonical table stays canonical when entries are dropped. -/
theorem Tbl.wf_filter (d : α) (m : Tbl α) (p : Nat × α → Bool) (w : Tbl.wf d m = true) : Tbl.wf d (m.filter p) = true :=
  Tbl.wfFrom_filter d m 0 p w

/-- Two canonical tables that read the same are the same data. -/
theorem Tbl.wfFrom_find (d : α) (m : Tbl α) (a k : Nat) (h : k < a) (w : Tbl.wfFrom d a m = true) : Tbl.find m k = none := by
  induction m generalizing a with
  | nil => rfl
  | cons e r ih =>
    simp [Tbl.wfFrom] at w
    have : e.1 ≠ k := by omega
    simpa [Tbl.find, this] using ih (e.1 + 1) (by omega) w.2.2

end Sys2Proof
end

