-- ==== Sys2Proof/Laws/State.lean ====
section
/-! SUPPORT. What each update of the state leaves: the fields it does not name come with `simps` on each update; here the parts of
the state read back by name. -/

namespace Sys2Proof.Machine

variable (s : State)

@[simp] theorem State.setCtx_ctx_self (k : Nat) (c : Ctx) : (s.setCtx k c).ctx k = c := by simp [State.ctx]

theorem State.setCtx_ctx_ne {k j : Nat} (c : Ctx) (h : j ≠ k) : (s.setCtx k c).ctx j = s.ctx j := by
  simp [State.ctx, Tbl.get_set_ne _ _ _ h]

@[simp] theorem State.setCtx_core (k : Nat) (c : Ctx) (x : Core) : (s.setCtx k c).core x = s.core x := rfl
@[simp] theorem State.setCtx_tile (k : Nat) (c : Ctx) (t : Nat) : (s.setCtx k c).tile t = s.tile t := rfl
@[simp] theorem State.setCtx_cc (k : Nat) (c : Ctx) (n : Nat) : (s.setCtx k c).cc n = s.cc n := rfl
@[simp] theorem State.setCtx_launch (k : Nat) (c : Ctx) (u : Nat) : (s.setCtx k c).launch u = s.launch u := rfl
@[simp] theorem State.setCtx_ot (k : Nat) (c : Ctx) (u t : Nat) : (s.setCtx k c).ot u t = s.ot u t := rfl
@[simp] theorem State.setCtx_myKey (k : Nat) (c : Ctx) : (s.setCtx k c).myKey = s.myKey := rfl
@[simp] theorem State.setCtx_myCore (k : Nat) (c : Ctx) : (s.setCtx k c).myCore = s.myCore := rfl
@[simp] theorem State.setCtx_myTile (k : Nat) (c : Ctx) : (s.setCtx k c).myTile = s.myTile := rfl

@[simp] theorem State.setMe_me (c : Ctx) : (s.setMe c).me = c := by simp [State.me, State.setMe, State.ctx]
@[simp] theorem State.setMe_mem (c : Ctx) : (s.setMe c).mem = s.mem := rfl
@[simp] theorem State.setMe_core (c : Ctx) (x : Core) : (s.setMe c).core x = s.core x := rfl
@[simp] theorem State.setMe_tile (c : Ctx) (t : Nat) : (s.setMe c).tile t = s.tile t := rfl
@[simp] theorem State.setMe_cc (c : Ctx) (n : Nat) : (s.setMe c).cc n = s.cc n := rfl
@[simp] theorem State.setMe_launch (c : Ctx) (u : Nat) : (s.setMe c).launch u = s.launch u := rfl
@[simp] theorem State.setMe_ot (c : Ctx) (u t : Nat) : (s.setMe c).ot u t = s.ot u t := rfl
@[simp] theorem State.setMe_cur (c : Ctx) : (s.setMe c).cur = s.cur := rfl
@[simp] theorem State.setMe_curX (c : Ctx) : (s.setMe c).curX = s.curX := rfl
@[simp] theorem State.setMe_myKey (c : Ctx) : (s.setMe c).myKey = s.myKey := rfl
@[simp] theorem State.setMe_myCore (c : Ctx) : (s.setMe c).myCore = s.myCore := rfl
@[simp] theorem State.setMe_myTile (c : Ctx) : (s.setMe c).myTile = s.myTile := rfl

@[simp] theorem State.setCore_core_self (x : Core) (v : CoreSt) : (s.setCore x v).core x = v := by simp [State.core]
@[simp] theorem State.setCore_ctx (x : Core) (v : CoreSt) (k : Nat) : (s.setCore x v).ctx k = s.ctx k := rfl
@[simp] theorem State.setCore_me (x : Core) (v : CoreSt) : (s.setCore x v).me = s.me := rfl
@[simp] theorem State.setCore_tile (x : Core) (v : CoreSt) (t : Nat) : (s.setCore x v).tile t = s.tile t := rfl
@[simp] theorem State.setCore_myKey (x : Core) (v : CoreSt) : (s.setCore x v).myKey = s.myKey := rfl

@[simp] theorem State.setMyCore_myCore (v : CoreSt) : (s.setMyCore v).myCore = v := by simp [State.myCore, State.setMyCore, State.core]
@[simp] theorem State.setMyCore_me (v : CoreSt) : (s.setMyCore v).me = s.me := rfl
@[simp] theorem State.setMyCore_mem (v : CoreSt) : (s.setMyCore v).mem = s.mem := rfl
@[simp] theorem State.setMyCore_tile (v : CoreSt) (t : Nat) : (s.setMyCore v).tile t = s.tile t := rfl
@[simp] theorem State.setMyCore_cur (v : CoreSt) : (s.setMyCore v).cur = s.cur := rfl

@[simp] theorem State.setTile_tile_self (t : Nat) (v : Tile) : (s.setTile t v).tile t = v := by simp [State.tile]
@[simp] theorem State.setTile_ctx (t : Nat) (v : Tile) (k : Nat) : (s.setTile t v).ctx k = s.ctx k := rfl
@[simp] theorem State.setTile_me (t : Nat) (v : Tile) : (s.setTile t v).me = s.me := rfl
@[simp] theorem State.setTile_core (t : Nat) (v : Tile) (x : Core) : (s.setTile t v).core x = s.core x := rfl

@[simp] theorem State.setOt_ot_self (u t : Nat) (v : OnTile) : (s.setOt u t v).ot u t = v := by simp [State.ot]
@[simp] theorem State.setOt_me (u t : Nat) (v : OnTile) : (s.setOt u t v).me = s.me := rfl
@[simp] theorem State.setOt_core (u t : Nat) (v : OnTile) (x : Core) : (s.setOt u t v).core x = s.core x := rfl

@[simp] theorem State.setCc_cc_self (n : Nat) (v : CtlCore) : (s.setCc n v).cc n = v := by simp [State.cc]
@[simp] theorem State.setFw_fw_self (n : Nat) (v : FwCore) : (s.setFw n v).fw n = v := by simp [State.fw]
@[simp] theorem State.setStreamer_streamer_self (n : Nat) (v : Streamer) : (s.setStreamer n v).streamer n = v := by simp [State.streamer]
@[simp] theorem State.setSlot_slot_self (n : Nat) (v : Slot) : (s.setSlot n v).slot n = v := by simp [State.slot]
@[simp] theorem State.setQueue_queue_self (n : Nat) (v : UQueue) : (s.setQueue n v).queue n = v := by simp [State.queue]
@[simp] theorem State.setCmd_cmd_self (n : Nat) (v : CmdSlot) : (s.setCmd n v).cmd n = v := by simp [State.cmd]
@[simp] theorem State.setLayby_layby_self (n : Nat) (v : Layby) : (s.setLayby n v).layby n = v := by simp [State.layby]
@[simp] theorem State.setLaunch_launch_self (u : Nat) (v : Launch) : (s.setLaunch u v).launch u = v := by simp [State.launch]
@[simp] theorem State.setCopy_copy_self (u : Nat) (v : Copy) : (s.setCopy u v).copy u = v := by simp [State.copy]

@[simp] theorem State.unwait_me : s.unwait.me = s.me := rfl
@[simp] theorem State.unwait_ctx (k : Nat) : s.unwait.ctx k = s.ctx k := rfl
@[simp] theorem State.unwait_core (x : Core) : s.unwait.core x = s.core x := rfl
@[simp] theorem State.unwait_tile (t : Nat) : s.unwait.tile t = s.tile t := rfl

@[simp] theorem State.atNpc_me : s.atNpc.me = { s.me with pc := s.me.pc + 8 } := by simp [State.atNpc]
@[simp] theorem State.atNpc_mem : s.atNpc.mem = s.mem := rfl
@[simp] theorem State.atNpc_cur : s.atNpc.cur = s.cur := rfl

-- What a context keeps when it no longer waits

@[simp] theorem Ctx.settled_st (c : Ctx) : c.settled.st = c.st := rfl
@[simp] theorem Ctx.settled_pc (c : Ctx) : c.settled.pc = c.pc := rfl
@[simp] theorem Ctx.settled_g (c : Ctx) : c.settled.g = c.g := rfl
@[simp] theorem Ctx.settled_live (c : Ctx) : c.settled.live = c.live := rfl
@[simp] theorem Ctx.settled_strandId (c : Ctx) : c.settled.strandId = c.strandId := rfl
@[simp] theorem Ctx.settled_prio (c : Ctx) : c.settled.prio = c.prio := rfl
@[simp] theorem Ctx.settled_launch (c : Ctx) : c.settled.launch = c.launch := rfl
@[simp] theorem Ctx.settled_vl (c : Ctx) : c.settled.vl = c.vl := rfl
@[simp] theorem Ctx.settled_vec (c : Ctx) : c.settled.vec = c.vec := rfl
@[simp] theorem Ctx.settled_code (c : Ctx) : c.settled.code = c.code := rfl
@[simp] theorem Ctx.settled_rpc (c : Ctx) : c.settled.rpc = c.rpc := rfl
@[simp] theorem Ctx.settled_arg (c : Ctx) : c.settled.arg = c.arg := rfl
@[simp] theorem Ctx.settled_inh (c : Ctx) : c.settled.inh = c.inh := rfl
@[simp] theorem Ctx.settled_rm (c : Ctx) : c.settled.rm = c.rm := rfl
@[simp] theorem Ctx.settled_aflags (c : Ctx) : c.settled.aflags = c.aflags := rfl
@[simp] theorem Ctx.settled_cyc (c : Ctx) : c.settled.cyc = c.cyc := rfl
@[simp] theorem Ctx.settled_cycFrom (c : Ctx) : c.settled.cycFrom = c.cycFrom := rfl
@[simp] theorem Ctx.settled_await (c : Ctx) : c.settled.await = .none := rfl
@[simp] theorem Ctx.settled_waitAt (c : Ctx) : c.settled.waitAt = none := rfl
@[simp] theorem Ctx.settled_data (c : Ctx) : c.settled.data = [] := rfl
@[simp] theorem Ctx.settled_undo (c : Ctx) : c.settled.undo = none := rfl
@[simp] theorem Ctx.settled_line (c : Ctx) : c.settled.line = none := rfl
@[simp] theorem Ctx.settled_regs (c : Ctx) : c.settled.regs = [] := rfl
@[simp] theorem Ctx.settled_settled (c : Ctx) : c.settled.settled = c.settled := rfl

end Sys2Proof.Machine
end

