-- ==== Sys2Proof/Laws/Memory.lean ====
section
/-! SUPPORT. Memory: reading after writing, and the canonical form that every memory operation keeps (R5, R233). -/

namespace Sys2Proof.Machine

@[simp] theorem Memory.get_set_self (m : List Host.Cell) (k : Nat) (b : Byte) : Memory.get (Memory.set m k b) k = b :=
  Tbl.get_set_self _ _ _ _

theorem Memory.get_set_ne (m : List Host.Cell) {k j : Nat} (b : Byte) (h : j ≠ k) :
    Memory.get (Memory.set m k b) j = Memory.get m j := Tbl.get_set_ne _ _ _ h

theorem Memory.wf_set (m : List Host.Cell) (k : Nat) (b : Byte) (w : Memory.wf m = true) : Memory.wf (Memory.set m k b) = true :=
  Tbl.wf_set _ _ _ _ w

theorem Memory.wf_filter (m : List Host.Cell) (p : Host.Cell → Bool) (w : Memory.wf m = true) : Memory.wf (m.filter p) = true :=
  Tbl.wf_filter _ _ _ w

theorem Memory.wf_write (m : List Host.Cell) (k n v : Nat) (w : Memory.wf m = true) : Memory.wf (Memory.write m k n v) = true := by
  induction n generalizing m k v with
  | zero => exact w
  | succ n ih => exact ih _ _ _ (Memory.wf_set m k _ w)

/-- Cells written one after another. -/
theorem Memory.wf_foldl {β : Type} (key : β → Nat) (val : β → Byte) (l : List β) (m : List Host.Cell) (w : Memory.wf m = true) :
    Memory.wf (l.foldl (fun m e => Memory.set m (key e) (val e)) m) = true := by
  induction l generalizing m with
  | nil => exact w
  | cons e r ih => exact ih _ (Memory.wf_set m _ _ w)

theorem Memory.get_write_out (m : List Host.Cell) (k n v j : Nat) (h : j < k ∨ k + n ≤ j) :
    Memory.get (Memory.write m k n v) j = Memory.get m j := by
  induction n generalizing m k v with
  | zero => rfl
  | succ n ih =>
    rw [Memory.write, ih _ _ _ (by omega)]
    exact Memory.get_set_ne m _ (by omega)

/-- What is written is read back, modulo the width. -/
theorem Memory.read_write (m : List Host.Cell) (k n v : Nat) : Memory.read (Memory.write m k n v) k n = v % 256 ^ n := by
  induction n generalizing m k v with
  | zero => simp [Memory.read, Nat.mod_one]
  | succ n ih =>
    rw [Memory.write, Memory.read, Memory.get_write_out _ _ _ _ _ (by omega), ih]
    rw [Memory.get_set_self, BitVec.toNat_ofNat, show 256 ^ (n + 1) = 2 ^ 8 * 256 ^ n by rw [pow_succ']; rfl, Nat.mod_mul]
    rfl

theorem State.reset_memCanonical : State.reset.MemCanonical := rfl

-- The mem component of the operations on words

@[simp] theorem State.setPoison_byte (s : State) (w : Nat) (b : Bool) (k : Nat) : (s.setPoison w b).byte k = s.byte k := rfl
@[simp] theorem State.setEmpty_byte (s : State) (w : Nat) (b : Bool) (k : Nat) : (s.setEmpty w b).byte k = s.byte k := rfl

@[simp] theorem State.countSoft_mem (s : State) (k : Nat) : (s.countSoft k).mem = s.mem := by
  simp only [State.countSoft]; split <;> rfl

@[simp] theorem State.raiseEvent_mem (s : State) (e : Nat) (q : Option Nat) (a b c : Word) : (s.raiseEvent e q a b c).mem = s.mem := by
  simp only [State.raiseEvent]; split <;> [rfl; split <;> rfl]

@[simp] theorem State.raiseError_mem (s : State) (c : Nat) (a b : Word) : (s.raiseError c a b).mem = s.mem := State.raiseEvent_mem ..

theorem State.foldl_mem {β : Type} (f : State → β → State) (h : ∀ s b, (f s b).mem = s.mem) (l : List β) (s : State) :
    (l.foldl f s).mem = s.mem := by
  induction l generalizing s with
  | nil => rfl
  | cons b r ih => rw [List.foldl_cons, ih, h]

@[simp] theorem State.checkWord_mem (s : State) (w : Nat) : (s.checkWord w).mem = s.mem := by
  unfold State.checkWord
  split
  · split
    · rfl
    · split <;> simp
  · split
    · simp only [State.raiseError_mem]
      rw [State.foldl_mem]
      intros
      rfl
    · split <;> simp

@[simp] theorem State.checkWords_mem (s : State) (k n : Nat) : (s.checkWords k n).mem = s.mem :=
  State.foldl_mem _ (fun s _ => State.checkWord_mem s _) _ _

@[simp] theorem State.touchFrame_mem (s : State) (k : Nat) : (s.touchFrame k).mem = s.mem := by
  simp only [State.touchFrame]; split <;> rfl

/-- A read changes no byte. -/
@[simp] theorem State.load_mem (s : State) (k n : Nat) : (s.load k n).2.mem = s.mem := State.checkWords_mem s k n

/-- A word write changes the bytes it names and no other. -/
theorem State.storeWord_mem (s : State) (k n v : Nat) (p : Bool) : (s.storeWord k n v p).mem = Memory.write s.mem k n v := by
  unfold State.storeWord
  by_cases h : n < 8 <;> cases p <;> simp [h]

theorem State.storeWord_canonical (s : State) (k n v : Nat) (p : Bool) (w : s.MemCanonical) : (s.storeWord k n v p).MemCanonical := by
  rw [State.MemCanonical, State.storeWord_mem]; exact Memory.wf_write _ _ _ _ w

theorem State.storeGo_canonical (s : State) (k n v : Nat) (p : Bool) (f : Nat) (w : s.MemCanonical) :
    (s.storeGo k n v p f).MemCanonical := by
  induction f generalizing s k n v with
  | zero => exact w
  | succ f ih =>
    rw [State.storeGo]
    split
    · exact w
    · exact ih _ _ _ _ (State.storeWord_canonical s _ _ _ _ w)

/-- A write keeps the canonical form. -/
theorem State.store_canonical (s : State) (k n v : Nat) (p : Bool) (w : s.MemCanonical) : (s.store k n v p).MemCanonical :=
  State.storeGo_canonical s k n v p n w

theorem State.storeGo_byte_out (s : State) (k n v : Nat) (p : Bool) (f j : Nat) (h : j < k ∨ k + n ≤ j) :
    (s.storeGo k n v p f).byte j = s.byte j := by
  induction f generalizing s k n v with
  | zero => rfl
  | succ f ih =>
    rw [State.storeGo]
    split
    · rfl
    · rw [ih _ _ _ _ (by omega), State.byte, State.storeWord_mem]
      exact Memory.get_write_out _ _ _ _ _ (by omega)

/-- A write leaves every byte outside it. -/
theorem State.store_byte_out (s : State) (k n v : Nat) (p : Bool) (j : Nat) (h : j < k ∨ k + n ≤ j) :
    (s.store k n v p).byte j = s.byte j := State.storeGo_byte_out s k n v p n j h

theorem State.store8_canonical (s : State) (k : Nat) (v : Word) (w : s.MemCanonical) : (s.store8 k v).MemCanonical :=
  State.storeWord_canonical _ _ _ _ _ w

theorem State.clearRange_canonical (s : State) (a b : Nat) (w : s.MemCanonical) : (s.clearRange a b).MemCanonical :=
  Memory.wf_filter _ _ w

end Sys2Proof.Machine
end

