-- ==== Sys2Proof/Laws/Native.lean ====
section
/-! SUPPORT. What the shared frame of a native instruction can do, said once: the traps at decode, a predicate that is 0, a dead source, a queue
that is not ready, the effect; and taking a trap and returning from one. -/

namespace Sys2Proof.Machine

@[simp] theorem issued_pc (s : State) (i : Instr) : (s.issued i).me.pc = s.me.pc := by
  unfold State.issued
  split
  · split <;> simp
  · rfl

@[simp] theorem issued_mem (s : State) (i : Instr) : (s.issued i).mem = s.mem := by
  unfold State.issued
  split
  · split <;> rfl
  · rfl

/-- An instruction that does not act by lanes finds the state as it was. -/
theorem issued_scalar (s : State) (i : Instr) (h : byLanes i = false) : s.issued i = s := by
  unfold State.issued
  split <;> simp [h]

theorem atIssue_scalar (s : State) (i : Instr) (h : byLanes i = false) : s.atIssue i = s.atNpc := by
  simp [State.atIssue, issued_scalar s i h]

/-- An instruction that issues has its effect in the state at NPC. -/
theorem native_of_issues (i : Instr) (b : M Unit) (s : State) (h : s.Issues i) :
    native i b s = .next (match b.run (s.atIssue i) with
      | .ok (_, t) => t.finish i
      | .error e => s.stopNative i e) := by
  have h2 : ¬ (s.me.await = .none ∧ byLanes i = false ∧ s.predicate i = false) := by
    rintro ⟨h1, h2, h3⟩
    obtain h | h | h := h.enabled <;> simp_all
  simp only [native, State.runNative, h.legal, h.written, h.values, h.live, h.ready, h.pushes, State.atIssue, State.atNpc, issued_pc, ite_self]
  have h3 : (decide (s.me.await = .none) && !byLanes i && !s.predicate i) = false := by simpa [and_assoc] using h2
  simp only [h3, Bool.false_eq_true, if_false] <;> rfl

/-- The effect runs to its end. -/
theorem native_ok (i : Instr) (b : M Unit) (s t : State) (h : s.Issues i) (hb : b.run (s.atIssue i) = .ok ((), t)) :
    native i b s = .next (t.finish i) := by
  rw [native_of_issues i b s h, hb]

/-- An instruction that the decoder's rules refuse traps in place. -/
theorem native_illegal (i : Instr) (b : M Unit) (s : State) {c : Nat} {a : Word} (h : decodeTrap i s = some (c, a)) :
    native i b s = .next (s.takeTrap c a s.me.pc) := by
  simp [native, State.runNative, h]

/-- A dead source traps in place. -/
theorem native_stale (i : Instr) (b : M Unit) (s : State) {r : Nat} (h1 : decodeTrap i s = none)
    (h2 : s.me.await ≠ .none ∨ byLanes i = true ∨ s.predicate i = true) (hw : vecWait i s = false) (hd : s.me.data = [])
    (hv : valueTrap i s = false) (h3 : staleField i s = some r) :
    native i b s = .next (s.takeTrap tcStale (w64 r) s.me.pc) := by
  have h4 : ¬ (s.me.await = .none ∧ byLanes i = false ∧ s.predicate i = false) := by
    rintro ⟨h, h5, h6⟩
    obtain h7 | h7 | h7 := h2 <;> simp_all
  have h5 : (decide (s.me.await = .none) && !byLanes i && !s.predicate i) = false := by simpa [and_assoc] using h4
  simp [native, State.runNative, h1, hv, h3, hw, hd, h5]

/-- Under a trap handler the trap is an entry of the context and nothing else. -/
theorem takeTrap_handler (s : State) (c : Nat) (a r : Word) (h : s.me.hasHandler = true) :
    s.takeTrap c a r = s.unwait.setMe (s.me.trapEntry c a r) := by
  simp [State.takeTrap, h]

@[simp] theorem trapEntry_pc (c : Ctx) (n : Nat) (a r : Word) : (c.trapEntry n a r).pc = c.vec := rfl
@[simp] theorem trapEntry_code (c : Ctx) (n : Nat) (a r : Word) : (c.trapEntry n a r).code = w64 n := rfl
@[simp] theorem trapEntry_rpc (c : Ctx) (n : Nat) (a r : Word) : (c.trapEntry n a r).rpc = r := rfl
@[simp] theorem trapEntry_arg (c : Ctx) (n : Nat) (a r : Word) : (c.trapEntry n a r).arg = a := rfl
@[simp] theorem trapEntry_inh (c : Ctx) (n : Nat) (a r : Word) : (c.trapEntry n a r).inh = true := rfl
@[simp] theorem trapEntry_g (c : Ctx) (n : Nat) (a r : Word) : (c.trapEntry n a r).g = c.g := rfl
@[simp] theorem trapReturn_pc (c : Ctx) : c.trapReturn.pc = c.rpc := rfl
@[simp] theorem trapReturn_inh (c : Ctx) : c.trapReturn.inh = false := rfl

-- The effects that read and write registers

@[simp] theorem run_apply {α : Type} (f : State → α × State) (s : State) : run f s = .ok (f s) := rfl
@[simp] theorem upd_apply (f : State → State) (s : State) : upd f s = .ok ((), f s) := rfl

theorem bind_ok {α β : Type} (m : M α) (f : α → M β) (s : State) {a : α} {t : State} (h : m s = .ok (a, t)) :
    (m >>= f) s = f a t := by
  simp [Bind.bind, StateT.bind, Except.bind, h]

@[simp] theorem pure_apply {α : Type} (a : α) (s : State) : (pure a : M α) s = .ok (a, s) := rfl

end Sys2Proof.Machine
end

