-- ==== Sys2Proof/Laws/PerInstr.lean ====
section
/-! SUPPORT. Facts about every instruction as syntax, one lemma per constructor: `Words`, that the decoder's tables read back the fields which the
encoder wrote into the word of a native instruction (R283, R284, R292). -/

namespace Sys2Proof.Laws.Words

-- The functions of each major opcode
theorem op01 (w : Word) (h : w.toNat >>> 56 = 0x01) : decodeRaw w = rawOp01 ((w.toNat >>> 52) % 16) w := by
  unfold decodeRaw; rw [h]; rfl
theorem op02 (w : Word) (h : w.toNat >>> 56 = 0x02) : decodeRaw w = rawOp02 ((w.toNat >>> 52) % 16) w := by
  unfold decodeRaw; rw [h]; rfl
theorem op03 (w : Word) (h : w.toNat >>> 56 = 0x03) : decodeRaw w = rawOp03 ((w.toNat >>> 52) % 16) w := by
  unfold decodeRaw; rw [h]; rfl
theorem op04 (w : Word) (h : w.toNat >>> 56 = 0x04) : decodeRaw w = rawOp04 ((w.toNat >>> 52) % 16) w := by
  unfold decodeRaw; rw [h]; rfl
theorem op08 (w : Word) (h : w.toNat >>> 56 = 0x08) : decodeRaw w = rawOp08 ((w.toNat >>> 52) % 16) w := by
  unfold decodeRaw; rw [h]; rfl
theorem op09 (w : Word) (h : w.toNat >>> 56 = 0x09) : decodeRaw w = rawOp09 ((w.toNat >>> 52) % 16) w := by
  unfold decodeRaw; rw [h]; rfl
theorem op0A (w : Word) (h : w.toNat >>> 56 = 0x0A) : decodeRaw w = rawOp0A ((w.toNat >>> 52) % 16) w := by
  unfold decodeRaw; rw [h]; rfl
theorem op10 (w : Word) (h : w.toNat >>> 56 = 0x10) : decodeRaw w = rawOp10 ((w.toNat >>> 52) % 16) w := by
  unfold decodeRaw; rw [h]; rfl
theorem op11 (w : Word) (h : w.toNat >>> 56 = 0x11) : decodeRaw w = rawOp11 ((w.toNat >>> 52) % 16) w := by
  unfold decodeRaw; rw [h]; rfl
theorem op12 (w : Word) (h : w.toNat >>> 56 = 0x12) : decodeRaw w = rawOp12 ((w.toNat >>> 52) % 16) w := by
  unfold decodeRaw; rw [h]; rfl
theorem op13 (w : Word) (h : w.toNat >>> 56 = 0x13) : decodeRaw w = rawOp13 ((w.toNat >>> 52) % 16) w := by
  unfold decodeRaw; rw [h]; rfl
theorem op20 (w : Word) (h : w.toNat >>> 56 = 0x20) : decodeRaw w = rawOp20 ((w.toNat >>> 52) % 16) w := by
  unfold decodeRaw; rw [h]; rfl
theorem op21 (w : Word) (h : w.toNat >>> 56 = 0x21) : decodeRaw w = rawOp21 ((w.toNat >>> 52) % 16) w := by
  unfold decodeRaw; rw [h]; rfl
theorem op22 (w : Word) (h : w.toNat >>> 56 = 0x22) : decodeRaw w = rawOp22 ((w.toNat >>> 52) % 16) w := by
  unfold decodeRaw; rw [h]; rfl
theorem op23 (w : Word) (h : w.toNat >>> 56 = 0x23) : decodeRaw w = rawOp23 ((w.toNat >>> 52) % 16) w := by
  unfold decodeRaw; rw [h]; rfl
theorem op30 (w : Word) (h : w.toNat >>> 56 = 0x30) : decodeRaw w = rawOp30 ((w.toNat >>> 52) % 16) w := by
  unfold decodeRaw; rw [h]; rfl
theorem op31 (w : Word) (h : w.toNat >>> 56 = 0x31) : decodeRaw w = rawOp31 ((w.toNat >>> 52) % 16) w := by
  unfold decodeRaw; rw [h]; rfl
theorem op32 (w : Word) (h : w.toNat >>> 56 = 0x32) : decodeRaw w = rawOp32 ((w.toNat >>> 52) % 16) w := by
  unfold decodeRaw; rw [h]; rfl
theorem op40 (w : Word) (h : w.toNat >>> 56 = 0x40) : decodeRaw w = rawOp40 ((w.toNat >>> 52) % 16) w := by
  unfold decodeRaw; rw [h]; rfl

/-- A native instruction's word names it, with its fields. -/
def Statement (i : Instr) : Prop := i.pred.isSome = true → decodeRaw (encode i) = i

theorem add (x : FmtR) : Statement (.add x) := fun _ =>
  ((op01 _ (encR_op 0x01 0 x)).trans (congrArg (fun n => rawOp01 n _) (encR_fn 0x01 0 x))).trans (congrArg Instr.add (fmtR_encR 0x01 0 x))
theorem sub (x : FmtR) : Statement (.sub x) := fun _ =>
  ((op01 _ (encR_op 0x01 1 x)).trans (congrArg (fun n => rawOp01 n _) (encR_fn 0x01 1 x))).trans (congrArg Instr.sub (fmtR_encR 0x01 1 x))
theorem mul (x : FmtR) : Statement (.mul x) := fun _ =>
  ((op01 _ (encR_op 0x01 2 x)).trans (congrArg (fun n => rawOp01 n _) (encR_fn 0x01 2 x))).trans (congrArg Instr.mul (fmtR_encR 0x01 2 x))
theorem mulh (x : FmtR) : Statement (.mulh x) := fun _ =>
  ((op01 _ (encR_op 0x01 3 x)).trans (congrArg (fun n => rawOp01 n _) (encR_fn 0x01 3 x))).trans (congrArg Instr.mulh (fmtR_encR 0x01 3 x))
theorem mulhu (x : FmtR) : Statement (.mulhu x) := fun _ =>
  ((op01 _ (encR_op 0x01 4 x)).trans (congrArg (fun n => rawOp01 n _) (encR_fn 0x01 4 x))).trans (congrArg Instr.mulhu (fmtR_encR 0x01 4 x))
theorem div (x : FmtR) : Statement (.div x) := fun _ =>
  ((op01 _ (encR_op 0x01 5 x)).trans (congrArg (fun n => rawOp01 n _) (encR_fn 0x01 5 x))).trans (congrArg Instr.div (fmtR_encR 0x01 5 x))
theorem divu (x : FmtR) : Statement (.divu x) := fun _ =>
  ((op01 _ (encR_op 0x01 6 x)).trans (congrArg (fun n => rawOp01 n _) (encR_fn 0x01 6 x))).trans (congrArg Instr.divu (fmtR_encR 0x01 6 x))
theorem rem (x : FmtR) : Statement (.rem x) := fun _ =>
  ((op01 _ (encR_op 0x01 7 x)).trans (congrArg (fun n => rawOp01 n _) (encR_fn 0x01 7 x))).trans (congrArg Instr.rem (fmtR_encR 0x01 7 x))
theorem remu (x : FmtR) : Statement (.remu x) := fun _ =>
  ((op01 _ (encR_op 0x01 8 x)).trans (congrArg (fun n => rawOp01 n _) (encR_fn 0x01 8 x))).trans (congrArg Instr.remu (fmtR_encR 0x01 8 x))
theorem min (x : FmtR) : Statement (.min x) := fun _ =>
  ((op01 _ (encR_op 0x01 9 x)).trans (congrArg (fun n => rawOp01 n _) (encR_fn 0x01 9 x))).trans (congrArg Instr.min (fmtR_encR 0x01 9 x))
theorem max (x : FmtR) : Statement (.max x) := fun _ =>
  ((op01 _ (encR_op 0x01 10 x)).trans (congrArg (fun n => rawOp01 n _) (encR_fn 0x01 10 x))).trans (congrArg Instr.max (fmtR_encR 0x01 10 x))
theorem minu (x : FmtR) : Statement (.minu x) := fun _ =>
  ((op01 _ (encR_op 0x01 11 x)).trans (congrArg (fun n => rawOp01 n _) (encR_fn 0x01 11 x))).trans (congrArg Instr.minu (fmtR_encR 0x01 11 x))
theorem maxu (x : FmtR) : Statement (.maxu x) := fun _ =>
  ((op01 _ (encR_op 0x01 12 x)).trans (congrArg (fun n => rawOp01 n _) (encR_fn 0x01 12 x))).trans (congrArg Instr.maxu (fmtR_encR 0x01 12 x))
theorem and (x : FmtR) : Statement (.and x) := fun _ =>
  ((op02 _ (encR_op 0x02 0 x)).trans (congrArg (fun n => rawOp02 n _) (encR_fn 0x02 0 x))).trans (congrArg Instr.and (fmtR_encR 0x02 0 x))
theorem or (x : FmtR) : Statement (.or x) := fun _ =>
  ((op02 _ (encR_op 0x02 1 x)).trans (congrArg (fun n => rawOp02 n _) (encR_fn 0x02 1 x))).trans (congrArg Instr.or (fmtR_encR 0x02 1 x))
theorem xor (x : FmtR) : Statement (.xor x) := fun _ =>
  ((op02 _ (encR_op 0x02 2 x)).trans (congrArg (fun n => rawOp02 n _) (encR_fn 0x02 2 x))).trans (congrArg Instr.xor (fmtR_encR 0x02 2 x))
theorem shl (x : FmtR) : Statement (.shl x) := fun _ =>
  ((op02 _ (encR_op 0x02 3 x)).trans (congrArg (fun n => rawOp02 n _) (encR_fn 0x02 3 x))).trans (congrArg Instr.shl (fmtR_encR 0x02 3 x))
theorem shr (x : FmtR) : Statement (.shr x) := fun _ =>
  ((op02 _ (encR_op 0x02 4 x)).trans (congrArg (fun n => rawOp02 n _) (encR_fn 0x02 4 x))).trans (congrArg Instr.shr (fmtR_encR 0x02 4 x))
theorem sra (x : FmtR) : Statement (.sra x) := fun _ =>
  ((op02 _ (encR_op 0x02 5 x)).trans (congrArg (fun n => rawOp02 n _) (encR_fn 0x02 5 x))).trans (congrArg Instr.sra (fmtR_encR 0x02 5 x))
theorem clz (x : FmtR) : Statement (.clz x) := fun _ =>
  ((op02 _ (encR_op 0x02 6 x)).trans (congrArg (fun n => rawOp02 n _) (encR_fn 0x02 6 x))).trans (congrArg Instr.clz (fmtR_encR 0x02 6 x))
theorem ctz (x : FmtR) : Statement (.ctz x) := fun _ =>
  ((op02 _ (encR_op 0x02 7 x)).trans (congrArg (fun n => rawOp02 n _) (encR_fn 0x02 7 x))).trans (congrArg Instr.ctz (fmtR_encR 0x02 7 x))
theorem popc (x : FmtR) : Statement (.popc x) := fun _ =>
  ((op02 _ (encR_op 0x02 8 x)).trans (congrArg (fun n => rawOp02 n _) (encR_fn 0x02 8 x))).trans (congrArg Instr.popc (fmtR_encR 0x02 8 x))
theorem bext (x : FmtR) : Statement (.bext x) := fun _ =>
  ((op02 _ (encR_op 0x02 9 x)).trans (congrArg (fun n => rawOp02 n _) (encR_fn 0x02 9 x))).trans (congrArg Instr.bext (fmtR_encR 0x02 9 x))
theorem bins (x : FmtR) : Statement (.bins x) := fun _ =>
  ((op02 _ (encR_op 0x02 10 x)).trans (congrArg (fun n => rawOp02 n _) (encR_fn 0x02 10 x))).trans (congrArg Instr.bins (fmtR_encR 0x02 10 x))
theorem seq (x : FmtR) : Statement (.seq x) := fun _ =>
  ((op03 _ (encR_op 0x03 0 x)).trans (congrArg (fun n => rawOp03 n _) (encR_fn 0x03 0 x))).trans (congrArg Instr.seq (fmtR_encR 0x03 0 x))
theorem sne (x : FmtR) : Statement (.sne x) := fun _ =>
  ((op03 _ (encR_op 0x03 1 x)).trans (congrArg (fun n => rawOp03 n _) (encR_fn 0x03 1 x))).trans (congrArg Instr.sne (fmtR_encR 0x03 1 x))
theorem slt (x : FmtR) : Statement (.slt x) := fun _ =>
  ((op03 _ (encR_op 0x03 2 x)).trans (congrArg (fun n => rawOp03 n _) (encR_fn 0x03 2 x))).trans (congrArg Instr.slt (fmtR_encR 0x03 2 x))
theorem sltu (x : FmtR) : Statement (.sltu x) := fun _ =>
  ((op03 _ (encR_op 0x03 3 x)).trans (congrArg (fun n => rawOp03 n _) (encR_fn 0x03 3 x))).trans (congrArg Instr.sltu (fmtR_encR 0x03 3 x))
theorem sle (x : FmtR) : Statement (.sle x) := fun _ =>
  ((op03 _ (encR_op 0x03 4 x)).trans (congrArg (fun n => rawOp03 n _) (encR_fn 0x03 4 x))).trans (congrArg Instr.sle (fmtR_encR 0x03 4 x))
theorem sleu (x : FmtR) : Statement (.sleu x) := fun _ =>
  ((op03 _ (encR_op 0x03 5 x)).trans (congrArg (fun n => rawOp03 n _) (encR_fn 0x03 5 x))).trans (congrArg Instr.sleu (fmtR_encR 0x03 5 x))
theorem sel (x : FmtR) : Statement (.sel x) := fun _ =>
  ((op03 _ (encR_op 0x03 6 x)).trans (congrArg (fun n => rawOp03 n _) (encR_fn 0x03 6 x))).trans (congrArg Instr.sel (fmtR_encR 0x03 6 x))
theorem mov (x : FmtR) : Statement (.mov x) := fun _ =>
  ((op03 _ (encR_op 0x03 7 x)).trans (congrArg (fun n => rawOp03 n _) (encR_fn 0x03 7 x))).trans (congrArg Instr.mov (fmtR_encR 0x03 7 x))
theorem movi (x : FmtI) : Statement (.movi x) := fun _ =>
  ((op04 _ (encI_op 0x04 0 x)).trans (congrArg (fun n => rawOp04 n _) (encI_fn 0x04 0 x))).trans (congrArg Instr.movi (fmtI_encI 0x04 0 x))
theorem addi (x : FmtI) : Statement (.addi x) := fun _ =>
  ((op04 _ (encI_op 0x04 1 x)).trans (congrArg (fun n => rawOp04 n _) (encI_fn 0x04 1 x))).trans (congrArg Instr.addi (fmtI_encI 0x04 1 x))
theorem andi (x : FmtI) : Statement (.andi x) := fun _ =>
  ((op04 _ (encI_op 0x04 2 x)).trans (congrArg (fun n => rawOp04 n _) (encI_fn 0x04 2 x))).trans (congrArg Instr.andi (fmtI_encI 0x04 2 x))
theorem ori (x : FmtI) : Statement (.ori x) := fun _ =>
  ((op04 _ (encI_op 0x04 3 x)).trans (congrArg (fun n => rawOp04 n _) (encI_fn 0x04 3 x))).trans (congrArg Instr.ori (fmtI_encI 0x04 3 x))
theorem xori (x : FmtI) : Statement (.xori x) := fun _ =>
  ((op04 _ (encI_op 0x04 4 x)).trans (congrArg (fun n => rawOp04 n _) (encI_fn 0x04 4 x))).trans (congrArg Instr.xori (fmtI_encI 0x04 4 x))
theorem shli (x : FmtI) : Statement (.shli x) := fun _ =>
  ((op04 _ (encI_op 0x04 5 x)).trans (congrArg (fun n => rawOp04 n _) (encI_fn 0x04 5 x))).trans (congrArg Instr.shli (fmtI_encI 0x04 5 x))
theorem shri (x : FmtI) : Statement (.shri x) := fun _ =>
  ((op04 _ (encI_op 0x04 6 x)).trans (congrArg (fun n => rawOp04 n _) (encI_fn 0x04 6 x))).trans (congrArg Instr.shri (fmtI_encI 0x04 6 x))
theorem srai (x : FmtI) : Statement (.srai x) := fun _ =>
  ((op04 _ (encI_op 0x04 7 x)).trans (congrArg (fun n => rawOp04 n _) (encI_fn 0x04 7 x))).trans (congrArg Instr.srai (fmtI_encI 0x04 7 x))
theorem slti (x : FmtI) : Statement (.slti x) := fun _ =>
  ((op04 _ (encI_op 0x04 8 x)).trans (congrArg (fun n => rawOp04 n _) (encI_fn 0x04 8 x))).trans (congrArg Instr.slti (fmtI_encI 0x04 8 x))
theorem sltui (x : FmtI) : Statement (.sltui x) := fun _ =>
  ((op04 _ (encI_op 0x04 9 x)).trans (congrArg (fun n => rawOp04 n _) (encI_fn 0x04 9 x))).trans (congrArg Instr.sltui (fmtI_encI 0x04 9 x))
theorem lrec (x : FmtI) : Statement (.lrec x) := fun _ =>
  ((op04 _ (encI_op 0x04 10 x)).trans (congrArg (fun n => rawOp04 n _) (encI_fn 0x04 10 x))).trans (congrArg Instr.lrec (fmtI_encI 0x04 10 x))
theorem br (x : FmtJ) : Statement (.br x) := fun _ =>
  ((op08 _ (encJ_op 0x08 0 x)).trans (congrArg (fun n => rawOp08 n _) (encJ_fn 0x08 0 x))).trans (congrArg Instr.br (fmtJ_encJ 0x08 0 x))
theorem bz (x : FmtJ) : Statement (.bz x) := fun _ =>
  ((op08 _ (encJ_op 0x08 1 x)).trans (congrArg (fun n => rawOp08 n _) (encJ_fn 0x08 1 x))).trans (congrArg Instr.bz (fmtJ_encJ 0x08 1 x))
theorem bnz (x : FmtJ) : Statement (.bnz x) := fun _ =>
  ((op08 _ (encJ_op 0x08 2 x)).trans (congrArg (fun n => rawOp08 n _) (encJ_fn 0x08 2 x))).trans (congrArg Instr.bnz (fmtJ_encJ 0x08 2 x))
theorem call (x : FmtJ) : Statement (.call x) := fun _ =>
  ((op08 _ (encJ_op 0x08 3 x)).trans (congrArg (fun n => rawOp08 n _) (encJ_fn 0x08 3 x))).trans (congrArg Instr.call (fmtJ_encJ 0x08 3 x))
theorem bltz (x : FmtJ) : Statement (.bltz x) := fun _ =>
  ((op08 _ (encJ_op 0x08 4 x)).trans (congrArg (fun n => rawOp08 n _) (encJ_fn 0x08 4 x))).trans (congrArg Instr.bltz (fmtJ_encJ 0x08 4 x))
theorem bgez (x : FmtJ) : Statement (.bgez x) := fun _ =>
  ((op08 _ (encJ_op 0x08 5 x)).trans (congrArg (fun n => rawOp08 n _) (encJ_fn 0x08 5 x))).trans (congrArg Instr.bgez (fmtJ_encJ 0x08 5 x))
theorem loop (x : FmtJ) : Statement (.loop x) := fun _ =>
  ((op08 _ (encJ_op 0x08 6 x)).trans (congrArg (fun n => rawOp08 n _) (encJ_fn 0x08 6 x))).trans (congrArg Instr.loop (fmtJ_encJ 0x08 6 x))
theorem jr (x : FmtR) : Statement (.jr x) := fun _ =>
  ((op09 _ (encR_op 0x09 0 x)).trans (congrArg (fun n => rawOp09 n _) (encR_fn 0x09 0 x))).trans (congrArg Instr.jr (fmtR_encR 0x09 0 x))
theorem callr (x : FmtR) : Statement (.callr x) := fun _ =>
  ((op09 _ (encR_op 0x09 1 x)).trans (congrArg (fun n => rawOp09 n _) (encR_fn 0x09 1 x))).trans (congrArg Instr.callr (fmtR_encR 0x09 1 x))
theorem ret (x : FmtR) : Statement (.ret x) := fun _ =>
  ((op09 _ (encR_op 0x09 2 x)).trans (congrArg (fun n => rawOp09 n _) (encR_fn 0x09 2 x))).trans (congrArg Instr.ret (fmtR_encR 0x09 2 x))
theorem nop (x : FmtR) : Statement (.nop x) := fun _ =>
  ((op09 _ (encR_op 0x09 10 x)).trans (congrArg (fun n => rawOp09 n _) (encR_fn 0x09 10 x))).trans (congrArg Instr.nop (fmtR_encR 0x09 10 x))
theorem halt (x : FmtR) : Statement (.halt x) := fun _ =>
  ((op09 _ (encR_op 0x09 3 x)).trans (congrArg (fun n => rawOp09 n _) (encR_fn 0x09 3 x))).trans (congrArg Instr.halt (fmtR_encR 0x09 3 x))
theorem yield (x : FmtR) : Statement (.yield x) := fun _ =>
  ((op09 _ (encR_op 0x09 4 x)).trans (congrArg (fun n => rawOp09 n _) (encR_fn 0x09 4 x))).trans (congrArg Instr.yield (fmtR_encR 0x09 4 x))
theorem hop (x : FmtR) : Statement (.hop x) := fun _ =>
  ((op09 _ (encR_op 0x09 5 x)).trans (congrArg (fun n => rawOp09 n _) (encR_fn 0x09 5 x))).trans (congrArg Instr.hop (fmtR_encR 0x09 5 x))
theorem trap (x : FmtR) : Statement (.trap x) := fun _ =>
  ((op09 _ (encR_op 0x09 6 x)).trans (congrArg (fun n => rawOp09 n _) (encR_fn 0x09 6 x))).trans (congrArg Instr.trap (fmtR_encR 0x09 6 x))
theorem tret (x : FmtR) : Statement (.tret x) := fun _ =>
  ((op09 _ (encR_op 0x09 7 x)).trans (congrArg (fun n => rawOp09 n _) (encR_fn 0x09 7 x))).trans (congrArg Instr.tret (fmtR_encR 0x09 7 x))
theorem bkpt (x : FmtR) : Statement (.bkpt x) := fun _ =>
  ((op09 _ (encR_op 0x09 8 x)).trans (congrArg (fun n => rawOp09 n _) (encR_fn 0x09 8 x))).trans (congrArg Instr.bkpt (fmtR_encR 0x09 8 x))
theorem icinv (x : FmtR) : Statement (.icinv x) := fun _ =>
  ((op09 _ (encR_op 0x09 9 x)).trans (congrArg (fun n => rawOp09 n _) (encR_fn 0x09 9 x))).trans (congrArg Instr.icinv (fmtR_encR 0x09 9 x))
theorem mfsr (x : FmtI) : Statement (.mfsr x) := fun _ =>
  ((op0A _ (encI_op 0x0A 0 x)).trans (congrArg (fun n => rawOp0A n _) (encI_fn 0x0A 0 x))).trans (congrArg Instr.mfsr (fmtI_encI 0x0A 0 x))
theorem mtsr (x : FmtI) : Statement (.mtsr x) := fun _ =>
  ((op0A _ (encI_op 0x0A 1 x)).trans (congrArg (fun n => rawOp0A n _) (encI_fn 0x0A 1 x))).trans (congrArg Instr.mtsr (fmtI_encI 0x0A 1 x))
theorem ld (x : FmtM) : Statement (.ld x) := fun _ =>
  ((op10 _ (encM_op 0x10 0 x)).trans (congrArg (fun n => rawOp10 n _) (encM_fn 0x10 0 x))).trans (congrArg Instr.ld (fmtM_encM 0x10 0 x))
theorem lds (x : FmtM) : Statement (.lds x) := fun _ =>
  ((op10 _ (encM_op 0x10 1 x)).trans (congrArg (fun n => rawOp10 n _) (encM_fn 0x10 1 x))).trans (congrArg Instr.lds (fmtM_encM 0x10 1 x))
theorem st (x : FmtM) : Statement (.st x) := fun _ =>
  ((op10 _ (encM_op 0x10 2 x)).trans (congrArg (fun n => rawOp10 n _) (encM_fn 0x10 2 x))).trans (congrArg Instr.st (fmtM_encM 0x10 2 x))
theorem ldc (x : FmtM) : Statement (.ldc x) := fun _ =>
  ((op10 _ (encM_op 0x10 3 x)).trans (congrArg (fun n => rawOp10 n _) (encM_fn 0x10 3 x))).trans (congrArg Instr.ldc (fmtM_encM 0x10 3 x))
theorem vld (x : FmtM) : Statement (.vld x) := fun _ =>
  ((op10 _ (encM_op 0x10 4 x)).trans (congrArg (fun n => rawOp10 n _) (encM_fn 0x10 4 x))).trans (congrArg Instr.vld (fmtM_encM 0x10 4 x))
theorem vst (x : FmtM) : Statement (.vst x) := fun _ =>
  ((op10 _ (encM_op 0x10 5 x)).trans (congrArg (fun n => rawOp10 n _) (encM_fn 0x10 5 x))).trans (congrArg Instr.vst (fmtM_encM 0x10 5 x))
theorem amswap (x : FmtM) : Statement (.amswap x) := fun _ =>
  ((op11 _ (encM_op 0x11 0 x)).trans (congrArg (fun n => rawOp11 n _) (encM_fn 0x11 0 x))).trans (congrArg Instr.amswap (fmtM_encM 0x11 0 x))
theorem amadd (x : FmtM) : Statement (.amadd x) := fun _ =>
  ((op11 _ (encM_op 0x11 1 x)).trans (congrArg (fun n => rawOp11 n _) (encM_fn 0x11 1 x))).trans (congrArg Instr.amadd (fmtM_encM 0x11 1 x))
theorem amand (x : FmtM) : Statement (.amand x) := fun _ =>
  ((op11 _ (encM_op 0x11 2 x)).trans (congrArg (fun n => rawOp11 n _) (encM_fn 0x11 2 x))).trans (congrArg Instr.amand (fmtM_encM 0x11 2 x))
theorem amor (x : FmtM) : Statement (.amor x) := fun _ =>
  ((op11 _ (encM_op 0x11 3 x)).trans (congrArg (fun n => rawOp11 n _) (encM_fn 0x11 3 x))).trans (congrArg Instr.amor (fmtM_encM 0x11 3 x))
theorem amxor (x : FmtM) : Statement (.amxor x) := fun _ =>
  ((op11 _ (encM_op 0x11 4 x)).trans (congrArg (fun n => rawOp11 n _) (encM_fn 0x11 4 x))).trans (congrArg Instr.amxor (fmtM_encM 0x11 4 x))
theorem ammin (x : FmtM) : Statement (.ammin x) := fun _ =>
  ((op11 _ (encM_op 0x11 5 x)).trans (congrArg (fun n => rawOp11 n _) (encM_fn 0x11 5 x))).trans (congrArg Instr.ammin (fmtM_encM 0x11 5 x))
theorem ammax (x : FmtM) : Statement (.ammax x) := fun _ =>
  ((op11 _ (encM_op 0x11 6 x)).trans (congrArg (fun n => rawOp11 n _) (encM_fn 0x11 6 x))).trans (congrArg Instr.ammax (fmtM_encM 0x11 6 x))
theorem amminu (x : FmtM) : Statement (.amminu x) := fun _ =>
  ((op11 _ (encM_op 0x11 7 x)).trans (congrArg (fun n => rawOp11 n _) (encM_fn 0x11 7 x))).trans (congrArg Instr.amminu (fmtM_encM 0x11 7 x))
theorem ammaxu (x : FmtM) : Statement (.ammaxu x) := fun _ =>
  ((op11 _ (encM_op 0x11 8 x)).trans (congrArg (fun n => rawOp11 n _) (encM_fn 0x11 8 x))).trans (congrArg Instr.ammaxu (fmtM_encM 0x11 8 x))
theorem amcas (x : FmtM) : Statement (.amcas x) := fun _ =>
  ((op11 _ (encM_op 0x11 9 x)).trans (congrArg (fun n => rawOp11 n _) (encM_fn 0x11 9 x))).trans (congrArg Instr.amcas (fmtM_encM 0x11 9 x))
theorem fence (x : FmtR) : Statement (.fence x) := fun _ =>
  ((op12 _ (encR_op 0x12 0 x)).trans (congrArg (fun n => rawOp12 n _) (encR_fn 0x12 0 x))).trans (congrArg Instr.fence (fmtR_encR 0x12 0 x))
theorem binit (x : FmtR) : Statement (.binit x) := fun _ =>
  ((op12 _ (encR_op 0x12 1 x)).trans (congrArg (fun n => rawOp12 n _) (encR_fn 0x12 1 x))).trans (congrArg Instr.binit (fmtR_encR 0x12 1 x))
theorem barrive (x : FmtR) : Statement (.barrive x) := fun _ =>
  ((op12 _ (encR_op 0x12 2 x)).trans (congrArg (fun n => rawOp12 n _) (encR_fn 0x12 2 x))).trans (congrArg Instr.barrive (fmtR_encR 0x12 2 x))
theorem bexpect (x : FmtR) : Statement (.bexpect x) := fun _ =>
  ((op12 _ (encR_op 0x12 3 x)).trans (congrArg (fun n => rawOp12 n _) (encR_fn 0x12 3 x))).trans (congrArg Instr.bexpect (fmtR_encR 0x12 3 x))
theorem bwait (x : FmtR) : Statement (.bwait x) := fun _ =>
  ((op12 _ (encR_op 0x12 4 x)).trans (congrArg (fun n => rawOp12 n _) (encR_fn 0x12 4 x))).trans (congrArg Instr.bwait (fmtR_encR 0x12 4 x))
theorem rclaim (x : FmtR) : Statement (.rclaim x) := fun _ =>
  ((op12 _ (encR_op 0x12 5 x)).trans (congrArg (fun n => rawOp12 n _) (encR_fn 0x12 5 x))).trans (congrArg Instr.rclaim (fmtR_encR 0x12 5 x))
theorem rcommit (x : FmtR) : Statement (.rcommit x) := fun _ =>
  ((op12 _ (encR_op 0x12 6 x)).trans (congrArg (fun n => rawOp12 n _) (encR_fn 0x12 6 x))).trans (congrArg Instr.rcommit (fmtR_encR 0x12 6 x))
theorem rtake (x : FmtR) : Statement (.rtake x) := fun _ =>
  ((op12 _ (encR_op 0x12 7 x)).trans (congrArg (fun n => rawOp12 n _) (encR_fn 0x12 7 x))).trans (congrArg Instr.rtake (fmtR_encR 0x12 7 x))
theorem rgive (x : FmtR) : Statement (.rgive x) := fun _ =>
  ((op12 _ (encR_op 0x12 8 x)).trans (congrArg (fun n => rawOp12 n _) (encR_fn 0x12 8 x))).trans (congrArg Instr.rgive (fmtR_encR 0x12 8 x))
theorem qstat (x : FmtR) : Statement (.qstat x) := fun _ =>
  ((op12 _ (encR_op 0x12 9 x)).trans (congrArg (fun n => rawOp12 n _) (encR_fn 0x12 9 x))).trans (congrArg Instr.qstat (fmtR_encR 0x12 9 x))
theorem sendm (x : FmtR) : Statement (.sendm x) := fun _ =>
  ((op13 _ (encR_op 0x13 0 x)).trans (congrArg (fun n => rawOp13 n _) (encR_fn 0x13 0 x))).trans (congrArg Instr.sendm (fmtR_encR 0x13 0 x))
theorem sendk (x : FmtR) : Statement (.sendk x) := fun _ =>
  ((op13 _ (encR_op 0x13 1 x)).trans (congrArg (fun n => rawOp13 n _) (encR_fn 0x13 1 x))).trans (congrArg Instr.sendk (fmtR_encR 0x13 1 x))
theorem mbarm (x : FmtR) : Statement (.mbarm x) := fun _ =>
  ((op13 _ (encR_op 0x13 2 x)).trans (congrArg (fun n => rawOp13 n _) (encR_fn 0x13 2 x))).trans (congrArg Instr.mbarm (fmtR_encR 0x13 2 x))
theorem vadd (x : FmtR) : Statement (.vadd x) := fun _ =>
  ((op20 _ (encR_op 0x20 0 x)).trans (congrArg (fun n => rawOp20 n _) (encR_fn 0x20 0 x))).trans (congrArg Instr.vadd (fmtR_encR 0x20 0 x))
theorem vsub (x : FmtR) : Statement (.vsub x) := fun _ =>
  ((op20 _ (encR_op 0x20 1 x)).trans (congrArg (fun n => rawOp20 n _) (encR_fn 0x20 1 x))).trans (congrArg Instr.vsub (fmtR_encR 0x20 1 x))
theorem vmul (x : FmtR) : Statement (.vmul x) := fun _ =>
  ((op20 _ (encR_op 0x20 2 x)).trans (congrArg (fun n => rawOp20 n _) (encR_fn 0x20 2 x))).trans (congrArg Instr.vmul (fmtR_encR 0x20 2 x))
theorem vfma (x : FmtR) : Statement (.vfma x) := fun _ =>
  ((op20 _ (encR_op 0x20 3 x)).trans (congrArg (fun n => rawOp20 n _) (encR_fn 0x20 3 x))).trans (congrArg Instr.vfma (fmtR_encR 0x20 3 x))
theorem vmin (x : FmtR) : Statement (.vmin x) := fun _ =>
  ((op20 _ (encR_op 0x20 4 x)).trans (congrArg (fun n => rawOp20 n _) (encR_fn 0x20 4 x))).trans (congrArg Instr.vmin (fmtR_encR 0x20 4 x))
theorem vmax (x : FmtR) : Statement (.vmax x) := fun _ =>
  ((op20 _ (encR_op 0x20 5 x)).trans (congrArg (fun n => rawOp20 n _) (encR_fn 0x20 5 x))).trans (congrArg Instr.vmax (fmtR_encR 0x20 5 x))
theorem vdiv (x : FmtR) : Statement (.vdiv x) := fun _ =>
  ((op20 _ (encR_op 0x20 6 x)).trans (congrArg (fun n => rawOp20 n _) (encR_fn 0x20 6 x))).trans (congrArg Instr.vdiv (fmtR_encR 0x20 6 x))
theorem vand (x : FmtR) : Statement (.vand x) := fun _ =>
  ((op20 _ (encR_op 0x20 7 x)).trans (congrArg (fun n => rawOp20 n _) (encR_fn 0x20 7 x))).trans (congrArg Instr.vand (fmtR_encR 0x20 7 x))
theorem vor (x : FmtR) : Statement (.vor x) := fun _ =>
  ((op20 _ (encR_op 0x20 8 x)).trans (congrArg (fun n => rawOp20 n _) (encR_fn 0x20 8 x))).trans (congrArg Instr.vor (fmtR_encR 0x20 8 x))
theorem vxor (x : FmtR) : Statement (.vxor x) := fun _ =>
  ((op20 _ (encR_op 0x20 9 x)).trans (congrArg (fun n => rawOp20 n _) (encR_fn 0x20 9 x))).trans (congrArg Instr.vxor (fmtR_encR 0x20 9 x))
theorem vshl (x : FmtR) : Statement (.vshl x) := fun _ =>
  ((op20 _ (encR_op 0x20 10 x)).trans (congrArg (fun n => rawOp20 n _) (encR_fn 0x20 10 x))).trans (congrArg Instr.vshl (fmtR_encR 0x20 10 x))
theorem vshr (x : FmtR) : Statement (.vshr x) := fun _ =>
  ((op20 _ (encR_op 0x20 11 x)).trans (congrArg (fun n => rawOp20 n _) (encR_fn 0x20 11 x))).trans (congrArg Instr.vshr (fmtR_encR 0x20 11 x))
theorem vsra (x : FmtR) : Statement (.vsra x) := fun _ =>
  ((op20 _ (encR_op 0x20 12 x)).trans (congrArg (fun n => rawOp20 n _) (encR_fn 0x20 12 x))).trans (congrArg Instr.vsra (fmtR_encR 0x20 12 x))
theorem vceq (x : FmtR) : Statement (.vceq x) := fun _ =>
  ((op21 _ (encR_op 0x21 0 x)).trans (congrArg (fun n => rawOp21 n _) (encR_fn 0x21 0 x))).trans (congrArg Instr.vceq (fmtR_encR 0x21 0 x))
theorem vcne (x : FmtR) : Statement (.vcne x) := fun _ =>
  ((op21 _ (encR_op 0x21 1 x)).trans (congrArg (fun n => rawOp21 n _) (encR_fn 0x21 1 x))).trans (congrArg Instr.vcne (fmtR_encR 0x21 1 x))
theorem vclt (x : FmtR) : Statement (.vclt x) := fun _ =>
  ((op21 _ (encR_op 0x21 2 x)).trans (congrArg (fun n => rawOp21 n _) (encR_fn 0x21 2 x))).trans (congrArg Instr.vclt (fmtR_encR 0x21 2 x))
theorem vcle (x : FmtR) : Statement (.vcle x) := fun _ =>
  ((op21 _ (encR_op 0x21 3 x)).trans (congrArg (fun n => rawOp21 n _) (encR_fn 0x21 3 x))).trans (congrArg Instr.vcle (fmtR_encR 0x21 3 x))
theorem vsel (x : FmtR) : Statement (.vsel x) := fun _ =>
  ((op21 _ (encR_op 0x21 4 x)).trans (congrArg (fun n => rawOp21 n _) (encR_fn 0x21 4 x))).trans (congrArg Instr.vsel (fmtR_encR 0x21 4 x))
theorem vcvt (x : FmtR) : Statement (.vcvt x) := fun _ =>
  ((op21 _ (encR_op 0x21 5 x)).trans (congrArg (fun n => rawOp21 n _) (encR_fn 0x21 5 x))).trans (congrArg Instr.vcvt (fmtR_encR 0x21 5 x))
theorem vbcast (x : FmtR) : Statement (.vbcast x) := fun _ =>
  ((op21 _ (encR_op 0x21 6 x)).trans (congrArg (fun n => rawOp21 n _) (encR_fn 0x21 6 x))).trans (congrArg Instr.vbcast (fmtR_encR 0x21 6 x))
theorem vins (x : FmtR) : Statement (.vins x) := fun _ =>
  ((op21 _ (encR_op 0x21 7 x)).trans (congrArg (fun n => rawOp21 n _) (encR_fn 0x21 7 x))).trans (congrArg Instr.vins (fmtR_encR 0x21 7 x))
theorem vext (x : FmtR) : Statement (.vext x) := fun _ =>
  ((op21 _ (encR_op 0x21 8 x)).trans (congrArg (fun n => rawOp21 n _) (encR_fn 0x21 8 x))).trans (congrArg Instr.vext (fmtR_encR 0x21 8 x))
theorem vmov (x : FmtR) : Statement (.vmov x) := fun _ =>
  ((op21 _ (encR_op 0x21 9 x)).trans (congrArg (fun n => rawOp21 n _) (encR_fn 0x21 9 x))).trans (congrArg Instr.vmov (fmtR_encR 0x21 9 x))
theorem kand (x : FmtR) : Statement (.kand x) := fun _ =>
  ((op21 _ (encR_op 0x21 10 x)).trans (congrArg (fun n => rawOp21 n _) (encR_fn 0x21 10 x))).trans (congrArg Instr.kand (fmtR_encR 0x21 10 x))
theorem kor (x : FmtR) : Statement (.kor x) := fun _ =>
  ((op21 _ (encR_op 0x21 11 x)).trans (congrArg (fun n => rawOp21 n _) (encR_fn 0x21 11 x))).trans (congrArg Instr.kor (fmtR_encR 0x21 11 x))
theorem kxor (x : FmtR) : Statement (.kxor x) := fun _ =>
  ((op21 _ (encR_op 0x21 12 x)).trans (congrArg (fun n => rawOp21 n _) (encR_fn 0x21 12 x))).trans (congrArg Instr.kxor (fmtR_encR 0x21 12 x))
theorem knot (x : FmtR) : Statement (.knot x) := fun _ =>
  ((op21 _ (encR_op 0x21 13 x)).trans (congrArg (fun n => rawOp21 n _) (encR_fn 0x21 13 x))).trans (congrArg Instr.knot (fmtR_encR 0x21 13 x))
theorem vredsum (x : FmtR) : Statement (.vredsum x) := fun _ =>
  ((op22 _ (encR_op 0x22 0 x)).trans (congrArg (fun n => rawOp22 n _) (encR_fn 0x22 0 x))).trans (congrArg Instr.vredsum (fmtR_encR 0x22 0 x))
theorem vredmax (x : FmtR) : Statement (.vredmax x) := fun _ =>
  ((op22 _ (encR_op 0x22 1 x)).trans (congrArg (fun n => rawOp22 n _) (encR_fn 0x22 1 x))).trans (congrArg Instr.vredmax (fmtR_encR 0x22 1 x))
theorem vredmin (x : FmtR) : Statement (.vredmin x) := fun _ =>
  ((op22 _ (encR_op 0x22 2 x)).trans (congrArg (fun n => rawOp22 n _) (encR_fn 0x22 2 x))).trans (congrArg Instr.vredmin (fmtR_encR 0x22 2 x))
theorem vscan (x : FmtR) : Statement (.vscan x) := fun _ =>
  ((op22 _ (encR_op 0x22 3 x)).trans (congrArg (fun n => rawOp22 n _) (encR_fn 0x22 3 x))).trans (congrArg Instr.vscan (fmtR_encR 0x22 3 x))
theorem vperm (x : FmtR) : Statement (.vperm x) := fun _ =>
  ((op22 _ (encR_op 0x22 4 x)).trans (congrArg (fun n => rawOp22 n _) (encR_fn 0x22 4 x))).trans (congrArg Instr.vperm (fmtR_encR 0x22 4 x))
theorem vexp2 (x : FmtR) : Statement (.vexp2 x) := fun _ =>
  ((op22 _ (encR_op 0x22 5 x)).trans (congrArg (fun n => rawOp22 n _) (encR_fn 0x22 5 x))).trans (congrArg Instr.vexp2 (fmtR_encR 0x22 5 x))
theorem vlog2 (x : FmtR) : Statement (.vlog2 x) := fun _ =>
  ((op22 _ (encR_op 0x22 6 x)).trans (congrArg (fun n => rawOp22 n _) (encR_fn 0x22 6 x))).trans (congrArg Instr.vlog2 (fmtR_encR 0x22 6 x))
theorem vrcp (x : FmtR) : Statement (.vrcp x) := fun _ =>
  ((op22 _ (encR_op 0x22 7 x)).trans (congrArg (fun n => rawOp22 n _) (encR_fn 0x22 7 x))).trans (congrArg Instr.vrcp (fmtR_encR 0x22 7 x))
theorem vrsqrt (x : FmtR) : Statement (.vrsqrt x) := fun _ =>
  ((op22 _ (encR_op 0x22 8 x)).trans (congrArg (fun n => rawOp22 n _) (encR_fn 0x22 8 x))).trans (congrArg Instr.vrsqrt (fmtR_encR 0x22 8 x))
theorem vsqrt (x : FmtR) : Statement (.vsqrt x) := fun _ =>
  ((op22 _ (encR_op 0x22 9 x)).trans (congrArg (fun n => rawOp22 n _) (encR_fn 0x22 9 x))).trans (congrArg Instr.vsqrt (fmtR_encR 0x22 9 x))
theorem vgath (x : FmtR) : Statement (.vgath x) := fun _ =>
  ((op23 _ (encR_op 0x23 0 x)).trans (congrArg (fun n => rawOp23 n _) (encR_fn 0x23 0 x))).trans (congrArg Instr.vgath (fmtR_encR 0x23 0 x))
theorem vscat (x : FmtR) : Statement (.vscat x) := fun _ =>
  ((op23 _ (encR_op 0x23 1 x)).trans (congrArg (fun n => rawOp23 n _) (encR_fn 0x23 1 x))).trans (congrArg Instr.vscat (fmtR_encR 0x23 1 x))
theorem vgrant (x : FmtR) : Statement (.vgrant x) := fun _ =>
  ((op23 _ (encR_op 0x23 2 x)).trans (congrArg (fun n => rawOp23 n _) (encR_fn 0x23 2 x))).trans (congrArg Instr.vgrant (fmtR_encR 0x23 2 x))
theorem sbind (x : FmtR) : Statement (.sbind x) := fun _ =>
  ((op23 _ (encR_op 0x23 3 x)).trans (congrArg (fun n => rawOp23 n _) (encR_fn 0x23 3 x))).trans (congrArg Instr.sbind (fmtR_encR 0x23 3 x))
theorem sunbind (x : FmtR) : Statement (.sunbind x) := fun _ =>
  ((op23 _ (encR_op 0x23 4 x)).trans (congrArg (fun n => rawOp23 n _) (encR_fn 0x23 4 x))).trans (congrArg Instr.sunbind (fmtR_encR 0x23 4 x))
theorem sstat (x : FmtR) : Statement (.sstat x) := fun _ =>
  ((op23 _ (encR_op 0x23 5 x)).trans (congrArg (fun n => rawOp23 n _) (encR_fn 0x23 5 x))).trans (congrArg Instr.sstat (fmtR_encR 0x23 5 x))
theorem tld (x : FmtE) : Statement (.tld x) := fun _ =>
  ((op30 _ (encE_op 0x30 0 x)).trans (congrArg (fun n => rawOp30 n _) (encE_fn 0x30 0 x))).trans (congrArg Instr.tld (fmtE_encE 0x30 0 x))
theorem tldx (x : FmtE) : Statement (.tldx x) := fun _ =>
  ((op30 _ (encE_op 0x30 1 x)).trans (congrArg (fun n => rawOp30 n _) (encE_fn 0x30 1 x))).trans (congrArg Instr.tldx (fmtE_encE 0x30 1 x))
theorem tst (x : FmtE) : Statement (.tst x) := fun _ =>
  ((op30 _ (encE_op 0x30 2 x)).trans (congrArg (fun n => rawOp30 n _) (encE_fn 0x30 2 x))).trans (congrArg Instr.tst (fmtE_encE 0x30 2 x))
theorem mma (x : FmtE) : Statement (.mma x) := fun _ =>
  ((op30 _ (encE_op 0x30 3 x)).trans (congrArg (fun n => rawOp30 n _) (encE_fn 0x30 3 x))).trans (congrArg Instr.mma (fmtE_encE 0x30 3 x))
theorem mmal (x : FmtE) : Statement (.mmal x) := fun _ =>
  ((op30 _ (encE_op 0x30 4 x)).trans (congrArg (fun n => rawOp30 n _) (encE_fn 0x30 4 x))).trans (congrArg Instr.mmal (fmtE_encE 0x30 4 x))
theorem accz (x : FmtE) : Statement (.accz x) := fun _ =>
  ((op30 _ (encE_op 0x30 5 x)).trans (congrArg (fun n => rawOp30 n _) (encE_fn 0x30 5 x))).trans (congrArg Instr.accz (fmtE_encE 0x30 5 x))
theorem accrd (x : FmtE) : Statement (.accrd x) := fun _ =>
  ((op30 _ (encE_op 0x30 6 x)).trans (congrArg (fun n => rawOp30 n _) (encE_fn 0x30 6 x))).trans (congrArg Instr.accrd (fmtE_encE 0x30 6 x))
theorem accwb (x : FmtE) : Statement (.accwb x) := fun _ =>
  ((op30 _ (encE_op 0x30 7 x)).trans (congrArg (fun n => rawOp30 n _) (encE_fn 0x30 7 x))).trans (congrArg Instr.accwb (fmtE_encE 0x30 7 x))
theorem accstat (x : FmtE) : Statement (.accstat x) := fun _ =>
  ((op30 _ (encE_op 0x30 8 x)).trans (congrArg (fun n => rawOp30 n _) (encE_fn 0x30 8 x))).trans (congrArg Instr.accstat (fmtE_encE 0x30 8 x))
theorem accerr (x : FmtE) : Statement (.accerr x) := fun _ =>
  ((op30 _ (encE_op 0x30 9 x)).trans (congrArg (fun n => rawOp30 n _) (encE_fn 0x30 9 x))).trans (congrArg Instr.accerr (fmtE_encE 0x30 9 x))
theorem cp (x : FmtE) : Statement (.cp x) := fun _ =>
  ((op31 _ (encE_op 0x31 0 x)).trans (congrArg (fun n => rawOp31 n _) (encE_fn 0x31 0 x))).trans (congrArg Instr.cp (fmtE_encE 0x31 0 x))
theorem cpabort (x : FmtE) : Statement (.cpabort x) := fun _ =>
  ((op31 _ (encE_op 0x31 1 x)).trans (congrArg (fun n => rawOp31 n _) (encE_fn 0x31 1 x))).trans (congrArg Instr.cpabort (fmtE_encE 0x31 1 x))
theorem cpstat (x : FmtE) : Statement (.cpstat x) := fun _ =>
  ((op31 _ (encE_op 0x31 2 x)).trans (congrArg (fun n => rawOp31 n _) (encE_fn 0x31 2 x))).trans (congrArg Instr.cpstat (fmtE_encE 0x31 2 x))
theorem wmread (x : FmtE) : Statement (.wmread x) := fun _ =>
  ((op31 _ (encE_op 0x31 3 x)).trans (congrArg (fun n => rawOp31 n _) (encE_fn 0x31 3 x))).trans (congrArg Instr.wmread (fmtE_encE 0x31 3 x))
theorem cinval (x : FmtE) : Statement (.cinval x) := fun _ =>
  ((op31 _ (encE_op 0x31 4 x)).trans (congrArg (fun n => rawOp31 n _) (encE_fn 0x31 4 x))).trans (congrArg Instr.cinval (fmtE_encE 0x31 4 x))
theorem gath (x : FmtE) : Statement (.gath x) := fun _ =>
  ((op31 _ (encE_op 0x31 5 x)).trans (congrArg (fun n => rawOp31 n _) (encE_fn 0x31 5 x))).trans (congrArg Instr.gath (fmtE_encE 0x31 5 x))
theorem scat (x : FmtE) : Statement (.scat x) := fun _ =>
  ((op31 _ (encE_op 0x31 6 x)).trans (congrArg (fun n => rawOp31 n _) (encE_fn 0x31 6 x))).trans (congrArg Instr.scat (fmtE_encE 0x31 6 x))
theorem xlook (x : FmtE) : Statement (.xlook x) := fun _ =>
  ((op32 _ (encE_op 0x32 0 x)).trans (congrArg (fun n => rawOp32 n _) (encE_fn 0x32 0 x))).trans (congrArg Instr.xlook (fmtE_encE 0x32 0 x))
theorem xpark (x : FmtE) : Statement (.xpark x) := fun _ =>
  ((op32 _ (encE_op 0x32 1 x)).trans (congrArg (fun n => rawOp32 n _) (encE_fn 0x32 1 x))).trans (congrArg Instr.xpark (fmtE_encE 0x32 1 x))
theorem xrel (x : FmtE) : Statement (.xrel x) := fun _ =>
  ((op32 _ (encE_op 0x32 2 x)).trans (congrArg (fun n => rawOp32 n _) (encE_fn 0x32 2 x))).trans (congrArg Instr.xrel (fmtE_encE 0x32 2 x))
theorem dqpush (x : FmtE) : Statement (.dqpush x) := fun _ =>
  ((op32 _ (encE_op 0x32 3 x)).trans (congrArg (fun n => rawOp32 n _) (encE_fn 0x32 3 x))).trans (congrArg Instr.dqpush (fmtE_encE 0x32 3 x))
theorem dqpop (x : FmtE) : Statement (.dqpop x) := fun _ =>
  ((op32 _ (encE_op 0x32 4 x)).trans (congrArg (fun n => rawOp32 n _) (encE_fn 0x32 4 x))).trans (congrArg Instr.dqpop (fmtE_encE 0x32 4 x))
theorem ctrsnap (x : FmtE) : Statement (.ctrsnap x) := fun _ =>
  ((op32 _ (encE_op 0x32 5 x)).trans (congrArg (fun n => rawOp32 n _) (encE_fn 0x32 5 x))).trans (congrArg Instr.ctrsnap (fmtE_encE 0x32 5 x))
theorem kmerge (x : FmtE) : Statement (.kmerge x) := fun _ =>
  ((op32 _ (encE_op 0x32 6 x)).trans (congrArg (fun n => rawOp32 n _) (encE_fn 0x32 6 x))).trans (congrArg Instr.kmerge (fmtE_encE 0x32 6 x))
theorem rred (x : FmtE) : Statement (.rred x) := fun _ =>
  ((op32 _ (encE_op 0x32 7 x)).trans (congrArg (fun n => rawOp32 n _) (encE_fn 0x32 7 x))).trans (congrArg Instr.rred (fmtE_encE 0x32 7 x))
theorem gbar (x : FmtE) : Statement (.gbar x) := fun _ =>
  ((op32 _ (encE_op 0x32 8 x)).trans (congrArg (fun n => rawOp32 n _) (encE_fn 0x32 8 x))).trans (congrArg Instr.gbar (fmtE_encE 0x32 8 x))
theorem launch (x : FmtE) : Statement (.launch x) := fun _ =>
  ((op32 _ (encE_op 0x32 9 x)).trans (congrArg (fun n => rawOp32 n _) (encE_fn 0x32 9 x))).trans (congrArg Instr.launch (fmtE_encE 0x32 9 x))
theorem icl (x : FmtR) : Statement (.icl x) := fun _ =>
  ((op40 _ (encR_op 0x40 0 x)).trans (congrArg (fun n => rawOp40 n _) (encR_fn 0x40 0 x))).trans (congrArg Instr.icl (fmtR_encR 0x40 0 x))
theorem icu (x : FmtR) : Statement (.icu x) := fun _ =>
  ((op40 _ (encR_op 0x40 1 x)).trans (congrArg (fun n => rawOp40 n _) (encR_fn 0x40 1 x))).trans (congrArg Instr.icu (fmtR_encR 0x40 1 x))
theorem guard (x : FmtR) : Statement (.guard x) := fun _ =>
  ((op40 _ (encR_op 0x40 2 x)).trans (congrArg (fun n => rawOp40 n _) (encR_fn 0x40 2 x))).trans (congrArg Instr.guard (fmtR_encR 0x40 2 x))
theorem tagchk (x : FmtR) : Statement (.tagchk x) := fun _ =>
  ((op40 _ (encR_op 0x40 3 x)).trans (congrArg (fun n => rawOp40 n _) (encR_fn 0x40 3 x))).trans (congrArg Instr.tagchk (fmtR_encR 0x40 3 x))
theorem ldslot (x : FmtR) : Statement (.ldslot x) := fun _ =>
  ((op40 _ (encR_op 0x40 4 x)).trans (congrArg (fun n => rawOp40 n _) (encR_fn 0x40 4 x))).trans (congrArg Instr.ldslot (fmtR_encR 0x40 4 x))
theorem stslot (x : FmtR) : Statement (.stslot x) := fun _ =>
  ((op40 _ (encR_op 0x40 5 x)).trans (congrArg (fun n => rawOp40 n _) (encR_fn 0x40 5 x))).trans (congrArg Instr.stslot (fmtR_encR 0x40 5 x))
theorem rcinc (x : FmtR) : Statement (.rcinc x) := fun _ =>
  ((op40 _ (encR_op 0x40 6 x)).trans (congrArg (fun n => rawOp40 n _) (encR_fn 0x40 6 x))).trans (congrArg Instr.rcinc (fmtR_encR 0x40 6 x))
theorem rcdec (x : FmtR) : Statement (.rcdec x) := fun _ =>
  ((op40 _ (encR_op 0x40 7 x)).trans (congrArg (fun n => rawOp40 n _) (encR_fn 0x40 7 x))).trans (congrArg Instr.rcdec (fmtR_encR 0x40 7 x))
theorem twait (x : FmtR) : Statement (.twait x) := fun _ =>
  ((op40 _ (encR_op 0x40 8 x)).trans (congrArg (fun n => rawOp40 n _) (encR_fn 0x40 8 x))).trans (congrArg Instr.twait (fmtR_encR 0x40 8 x))
theorem detour (x : FmtR) : Statement (.detour x) := fun _ =>
  ((op40 _ (encR_op 0x40 9 x)).trans (congrArg (fun n => rawOp40 n _) (encR_fn 0x40 9 x))).trans (congrArg Instr.detour (fmtR_encR 0x40 9 x))
theorem detret (x : FmtR) : Statement (.detret x) := fun _ =>
  ((op40 _ (encR_op 0x40 10 x)).trans (congrArg (fun n => rawOp40 n _) (encR_fn 0x40 10 x))).trans (congrArg Instr.detret (fmtR_encR 0x40 10 x))
theorem plaunch (x : FmtR) : Statement (.plaunch x) := fun _ =>
  ((op40 _ (encR_op 0x40 11 x)).trans (congrArg (fun n => rawOp40 n _) (encR_fn 0x40 11 x))).trans (congrArg Instr.plaunch (fmtR_encR 0x40 11 x))
theorem bcEnd : Statement (.bcEnd) := fun h => Bool.noConfusion h
theorem bcRet : Statement (.bcRet) := fun h => Bool.noConfusion h
theorem bcLdi (x0 : BitVec 16) : Statement (.bcLdi x0) := fun h => Bool.noConfusion h
theorem bcLdsp (x0 : BitVec 8) : Statement (.bcLdsp x0) := fun h => Bool.noConfusion h
theorem bcLdloc (x0 : BitVec 8) : Statement (.bcLdloc x0) := fun h => Bool.noConfusion h
theorem bcStloc (x0 : BitVec 8) : Statement (.bcStloc x0) := fun h => Bool.noConfusion h
theorem bcLdglob (x0 : BitVec 16) : Statement (.bcLdglob x0) := fun h => Bool.noConfusion h
theorem bcStglob (x0 : BitVec 16) : Statement (.bcStglob x0) := fun h => Bool.noConfusion h
theorem bcDup : Statement (.bcDup) := fun h => Bool.noConfusion h
theorem bcPop : Statement (.bcPop) := fun h => Bool.noConfusion h
theorem bcSwap : Statement (.bcSwap) := fun h => Bool.noConfusion h
theorem bcGetattrS (x0 : BitVec 16) : Statement (.bcGetattrS x0) := fun h => Bool.noConfusion h
theorem bcSetattrS (x0 : BitVec 16) : Statement (.bcSetattrS x0) := fun h => Bool.noConfusion h
theorem bcLdsl (x0 : BitVec 8) : Statement (.bcLdsl x0) := fun h => Bool.noConfusion h
theorem bcStsl (x0 : BitVec 8) : Statement (.bcStsl x0) := fun h => Bool.noConfusion h
theorem bcMkobj (x0 : BitVec 16) (x1 : BitVec 8) : Statement (.bcMkobj x0 x1) := fun h => Bool.noConfusion h
theorem bcUnpack (x0 : BitVec 8) : Statement (.bcUnpack x0) := fun h => Bool.noConfusion h
theorem bcLoopdec (x0 : BitVec 8) (x1 : BitVec 16) : Statement (.bcLoopdec x0 x1) := fun h => Bool.noConfusion h
theorem bcBr (x0 : BitVec 16) : Statement (.bcBr x0) := fun h => Bool.noConfusion h
theorem bcBrt (x0 : BitVec 16) : Statement (.bcBrt x0) := fun h => Bool.noConfusion h
theorem bcBrf (x0 : BitVec 16) : Statement (.bcBrf x0) := fun h => Bool.noConfusion h
theorem bcForr (x0 : BitVec 8) (x1 : BitVec 16) : Statement (.bcForr x0 x1) := fun h => Bool.noConfusion h
theorem bcAddS (x0 : BitVec 16) : Statement (.bcAddS x0) := fun h => Bool.noConfusion h
theorem bcSubS (x0 : BitVec 16) : Statement (.bcSubS x0) := fun h => Bool.noConfusion h
theorem bcMulS (x0 : BitVec 16) : Statement (.bcMulS x0) := fun h => Bool.noConfusion h
theorem bcDivS (x0 : BitVec 16) : Statement (.bcDivS x0) := fun h => Bool.noConfusion h
theorem bcMmS (x0 : BitVec 16) : Statement (.bcMmS x0) := fun h => Bool.noConfusion h
theorem bcLtS (x0 : BitVec 16) : Statement (.bcLtS x0) := fun h => Bool.noConfusion h
theorem bcLeS (x0 : BitVec 16) : Statement (.bcLeS x0) := fun h => Bool.noConfusion h
theorem bcEqS (x0 : BitVec 16) : Statement (.bcEqS x0) := fun h => Bool.noConfusion h
theorem bcNegS (x0 : BitVec 16) : Statement (.bcNegS x0) := fun h => Bool.noConfusion h
theorem bcCallS (x0 : BitVec 16) (x1 : BitVec 8) : Statement (.bcCallS x0 x1) := fun h => Bool.noConfusion h
theorem bcCallb (x0 : BitVec 8) : Statement (.bcCallb x0) := fun h => Bool.noConfusion h
theorem bcTlaunch (x0 : BitVec 16) : Statement (.bcTlaunch x0) := fun h => Bool.noConfusion h
theorem bcWaitt : Statement (.bcWaitt) := fun h => Bool.noConfusion h
theorem bcRaise : Statement (.bcRaise) := fun h => Bool.noConfusion h
theorem bcTry (x0 : BitVec 16) : Statement (.bcTry x0) := fun h => Bool.noConfusion h
theorem bcUntry : Statement (.bcUntry) := fun h => Bool.noConfusion h
theorem reservedOpcode (w : Word) : Statement (.reservedOpcode w) := fun h => Bool.noConfusion h
theorem unassignedBytecode (b : Byte) : Statement (.unassignedBytecode b) := fun h => Bool.noConfusion h
theorem powerOn : Statement (.powerOn) := fun h => Bool.noConfusion h
theorem fullService : Statement (.fullService) := fun h => Bool.noConfusion h
theorem pwrCtlSel : Statement (.pwrCtlSel) := fun h => Bool.noConfusion h
theorem profileChange : Statement (.profileChange) := fun h => Bool.noConfusion h
theorem powerLimitWindow : Statement (.powerLimitWindow) := fun h => Bool.noConfusion h
theorem thermalThrottle : Statement (.thermalThrottle) := fun h => Bool.noConfusion h
theorem thermalRecover : Statement (.thermalRecover) := fun h => Bool.noConfusion h
theorem thermalTrip : Statement (.thermalTrip) := fun h => Bool.noConfusion h
theorem tierPortFail : Statement (.tierPortFail) := fun h => Bool.noConfusion h
theorem counterUpdate : Statement (.counterUpdate) := fun h => Bool.noConfusion h
theorem registerWrite : Statement (.registerWrite) := fun h => Bool.noConfusion h
theorem ckptStart : Statement (.ckptStart) := fun h => Bool.noConfusion h
theorem ckptRestore : Statement (.ckptRestore) := fun h => Bool.noConfusion h
theorem ckptAbort : Statement (.ckptAbort) := fun h => Bool.noConfusion h
theorem checkpointComplete : Statement (.checkpointComplete) := fun h => Bool.noConfusion h
theorem restoreComplete : Statement (.restoreComplete) := fun h => Bool.noConfusion h
theorem qreg : Statement (.qreg) := fun h => Bool.noConfusion h
theorem qdereg : Statement (.qdereg) := fun h => Bool.noConfusion h
theorem qstop : Statement (.qstop) := fun h => Bool.noConfusion h
theorem qresume : Statement (.qresume) := fun h => Bool.noConfusion h
theorem qbudget : Statement (.qbudget) := fun h => Bool.noConfusion h
theorem pasidEn : Statement (.pasidEn) := fun h => Bool.noConfusion h
theorem pasidRel : Statement (.pasidRel) := fun h => Bool.noConfusion h
theorem pasidRelComplete : Statement (.pasidRelComplete) := fun h => Bool.noConfusion h
theorem oload : Statement (.oload) := fun h => Bool.noConfusion h
theorem ounload : Statement (.ounload) := fun h => Bool.noConfusion h
theorem ccstart : Statement (.ccstart) := fun h => Bool.noConfusion h
theorem ccstop : Statement (.ccstop) := fun h => Bool.noConfusion h
theorem onrbindBind : Statement (.onrbindBind) := fun h => Bool.noConfusion h
theorem onrbindUnbind : Statement (.onrbindUnbind) := fun h => Bool.noConfusion h
theorem rwsetDefine : Statement (.rwsetDefine) := fun h => Bool.noConfusion h
theorem rwsetDelete : Statement (.rwsetDelete) := fun h => Bool.noConfusion h
theorem dbgctlSetHalt : Statement (.dbgctlSetHalt) := fun h => Bool.noConfusion h
theorem dbgctlClearHalt : Statement (.dbgctlClearHalt) := fun h => Bool.noConfusion h
theorem dbgctlResume : Statement (.dbgctlResume) := fun h => Bool.noConfusion h
theorem attest : Statement (.attest) := fun h => Bool.noConfusion h
theorem ctrread : Statement (.ctrread) := fun h => Bool.noConfusion h
theorem fwupdate : Statement (.fwupdate) := fun h => Bool.noConfusion h
theorem mgDone : Statement (.mgDone) := fun h => Bool.noConfusion h
theorem doorbell : Statement (.doorbell) := fun h => Bool.noConfusion h
theorem wmSet : Statement (.wmSet) := fun h => Bool.noConfusion h
theorem wmClr : Statement (.wmClr) := fun h => Bool.noConfusion h
theorem packetFetch : Statement (.packetFetch) := fun h => Bool.noConfusion h
theorem packetLaunch : Statement (.packetLaunch) := fun h => Bool.noConfusion h
theorem packetComplete : Statement (.packetComplete) := fun h => Bool.noConfusion h
theorem patchFenceComplete : Statement (.patchFenceComplete) := fun h => Bool.noConfusion h
theorem qidle : Statement (.qidle) := fun h => Bool.noConfusion h
theorem timer : Statement (.timer) := fun h => Bool.noConfusion h
theorem watchdogExpiry : Statement (.watchdogExpiry) := fun h => Bool.noConfusion h
theorem eventHandoff : Statement (.eventHandoff) := fun h => Bool.noConfusion h
theorem evqTake : Statement (.evqTake) := fun h => Bool.noConfusion h
theorem evqDone : Statement (.evqDone) := fun h => Bool.noConfusion h
theorem qlockReq : Statement (.qlockReq) := fun h => Bool.noConfusion h
theorem map : Statement (.map) := fun h => Bool.noConfusion h
theorem save : Statement (.save) := fun h => Bool.noConfusion h
theorem setprio : Statement (.setprio) := fun h => Bool.noConfusion h
theorem timerSet : Statement (.timerSet) := fun h => Bool.noConfusion h
theorem xfDoneRetry : Statement (.xfDoneRetry) := fun h => Bool.noConfusion h
theorem xfDoneFail : Statement (.xfDoneFail) := fun h => Bool.noConfusion h
theorem atsResponse : Statement (.atsResponse) := fun h => Bool.noConfusion h
theorem atsInvalidation : Statement (.atsInvalidation) := fun h => Bool.noConfusion h
theorem priResponse : Statement (.priResponse) := fun h => Bool.noConfusion h
theorem priTimeout : Statement (.priTimeout) := fun h => Bool.noConfusion h
theorem sdReq : Statement (.sdReq) := fun h => Bool.noConfusion h
theorem shootdownComplete : Statement (.shootdownComplete) := fun h => Bool.noConfusion h
theorem sdtimeout : Statement (.sdtimeout) := fun h => Bool.noConfusion h
theorem sdRetry : Statement (.sdRetry) := fun h => Bool.noConfusion h
theorem sdForce : Statement (.sdForce) := fun h => Bool.noConfusion h
theorem migReq : Statement (.migReq) := fun h => Bool.noConfusion h
theorem migrationStreamEnd : Statement (.migrationStreamEnd) := fun h => Bool.noConfusion h
theorem redirectNotice : Statement (.redirectNotice) := fun h => Bool.noConfusion h
theorem queueSpaceNotice : Statement (.queueSpaceNotice) := fun h => Bool.noConfusion h
theorem go : Statement (.go) := fun h => Bool.noConfusion h
theorem cinvalWrite : Statement (.cinvalWrite) := fun h => Bool.noConfusion h
theorem copyAccept : Statement (.copyAccept) := fun h => Bool.noConfusion h
theorem copyLand : Statement (.copyLand) := fun h => Bool.noConfusion h
theorem copyEnd : Statement (.copyEnd) := fun h => Bool.noConfusion h
theorem copyAbortComplete : Statement (.copyAbortComplete) := fun h => Bool.noConfusion h
theorem watermarkReport : Statement (.watermarkReport) := fun h => Bool.noConfusion h
theorem heldAccessRelease : Statement (.heldAccessRelease) := fun h => Bool.noConfusion h
theorem remoteCopyRequest : Statement (.remoteCopyRequest) := fun h => Bool.noConfusion h
theorem remotePutComplete : Statement (.remotePutComplete) := fun h => Bool.noConfusion h
theorem remoteSourceTimeout : Statement (.remoteSourceTimeout) := fun h => Bool.noConfusion h
theorem remoteAckTimeout : Statement (.remoteAckTimeout) := fun h => Bool.noConfusion h
theorem gatherSublistArrival : Statement (.gatherSublistArrival) := fun h => Bool.noConfusion h
theorem gatherRowArrival : Statement (.gatherRowArrival) := fun h => Bool.noConfusion h
theorem scatterRowArrival : Statement (.scatterRowArrival) := fun h => Bool.noConfusion h
theorem scatterAck : Statement (.scatterAck) := fun h => Bool.noConfusion h
theorem bwaitWake : Statement (.bwaitWake) := fun h => Bool.noConfusion h
theorem bwaitTimeout : Statement (.bwaitTimeout) := fun h => Bool.noConfusion h
theorem blockedWake : Statement (.blockedWake) := fun h => Bool.noConfusion h
theorem dispatch : Statement (.dispatch) := fun h => Bool.noConfusion h
theorem runqueueAgeing : Statement (.runqueueAgeing) := fun h => Bool.noConfusion h
theorem timeSlice : Statement (.timeSlice) := fun h => Bool.noConfusion h
theorem taskMessageArrival : Statement (.taskMessageArrival) := fun h => Bool.noConfusion h
theorem dataMessageArrival : Statement (.dataMessageArrival) := fun h => Bool.noConfusion h
theorem hopMessageArrival : Statement (.hopMessageArrival) := fun h => Bool.noConfusion h
theorem contextFreeNotice : Statement (.contextFreeNotice) := fun h => Bool.noConfusion h
theorem ringSpaceNotice : Statement (.ringSpaceNotice) := fun h => Bool.noConfusion h
theorem noticeReservationExpiry : Statement (.noticeReservationExpiry) := fun h => Bool.noConfusion h
theorem unlistedResend : Statement (.unlistedResend) := fun h => Bool.noConfusion h
theorem launchComplete : Statement (.launchComplete) := fun h => Bool.noConfusion h
theorem portLaunchStart : Statement (.portLaunchStart) := fun h => Bool.noConfusion h
theorem tileLaunchStart : Statement (.tileLaunchStart) := fun h => Bool.noConfusion h
theorem retentionExpiry : Statement (.retentionExpiry) := fun h => Bool.noConfusion h
theorem drainReq : Statement (.drainReq) := fun h => Bool.noConfusion h
theorem drainGraceExpiry : Statement (.drainGraceExpiry) := fun h => Bool.noConfusion h
theorem drainComplete : Statement (.drainComplete) := fun h => Bool.noConfusion h
theorem resumeReq : Statement (.resumeReq) := fun h => Bool.noConfusion h
theorem resumeComplete : Statement (.resumeComplete) := fun h => Bool.noConfusion h
theorem config : Statement (.config) := fun h => Bool.noConfusion h
theorem fill : Statement (.fill) := fun h => Bool.noConfusion h
theorem evict : Statement (.evict) := fun h => Bool.noConfusion h
theorem flush : Statement (.flush) := fun h => Bool.noConfusion h
theorem setrep : Statement (.setrep) := fun h => Bool.noConfusion h
theorem setwb : Statement (.setwb) := fun h => Bool.noConfusion h
theorem clrpin : Statement (.clrpin) := fun h => Bool.noConfusion h
theorem ertAgeing : Statement (.ertAgeing) := fun h => Bool.noConfusion h
theorem expertRequest : Statement (.expertRequest) := fun h => Bool.noConfusion h
theorem expertReply : Statement (.expertReply) := fun h => Bool.noConfusion h
theorem laybyDelivery : Statement (.laybyDelivery) := fun h => Bool.noConfusion h
theorem dequeSpaceNotice : Statement (.dequeSpaceNotice) := fun h => Bool.noConfusion h
theorem laybyRetry : Statement (.laybyRetry) := fun h => Bool.noConfusion h
theorem dequeReservationExpiry : Statement (.dequeReservationExpiry) := fun h => Bool.noConfusion h
theorem stealRequest : Statement (.stealRequest) := fun h => Bool.noConfusion h
theorem stealReply : Statement (.stealReply) := fun h => Bool.noConfusion h
theorem sendkArrival : Statement (.sendkArrival) := fun h => Bool.noConfusion h
theorem collectiveResult : Statement (.collectiveResult) := fun h => Bool.noConfusion h
theorem engineCommandStart : Statement (.engineCommandStart) := fun h => Bool.noConfusion h
theorem tileLoadRowArrival : Statement (.tileLoadRowArrival) := fun h => Bool.noConfusion h
theorem mmaComplete : Statement (.mmaComplete) := fun h => Bool.noConfusion h
theorem vectorCommandComplete : Statement (.vectorCommandComplete) := fun h => Bool.noConfusion h
theorem streamElementFetch : Statement (.streamElementFetch) := fun h => Bool.noConfusion h
theorem sramScrub : Statement (.sramScrub) := fun h => Bool.noConfusion h
theorem powerLoss : Statement (.powerLoss) := fun h => Bool.noConfusion h
theorem orderlyShutdown : Statement (.orderlyShutdown) := fun h => Bool.noConfusion h
theorem linkRetry : Statement (.linkRetry) := fun h => Bool.noConfusion h
theorem matrixCommandComplete : Statement (.matrixCommandComplete) := fun h => Bool.noConfusion h
theorem mgo : Statement (.mgo) := fun h => Bool.noConfusion h

end Sys2Proof.Laws.Words
end

