-- ==== Sys2Proof/Laws/Scalar.lean ====
section
/-! SUPPORT. What the shared scalar operations answer: operands, results, flags, and the forms of R297 to R303; what completion leaves. -/

namespace Sys2Proof.Machine

theorem readS_eq (c : BitVec 6) (s : State) : readS c s = .ok (s.source c) := by
  unfold readS State.source; split <;> rfl

theorem writeS_eq (c : BitVec 6) (v : Word) (s : State) : writeS c v s = .ok ((), s.result c v) := rfl

theorem raiseFlags_eq (f : BitVec 6) (s : State) : raiseFlags f s = .ok ((), s.flag f) := rfl

theorem readSM_eq (c : BitVec 6) (m : BitVec 3) (g : Bool) (s : State) :
    readSM c m g s = .ok (modInt 64 m g (s.source c).1, (s.source c).2) := by
  unfold readSM; rw [bind_ok _ _ _ (readS_eq c s)]; rfl

/-- `add`, `sub` and `mul` always complete. -/
theorem exactOp_eq (x : FmtR) (f : Int → Int → Int) (s : State) :
    exactOp x f s = .ok ((), let a := s.source x.a; let b := a.2.source x.b
      let r := narrow x (f (typed x.dt (modInt 64 x.ma (x.dt = 1) a.1)) (typed x.dt (modInt 64 x.mb (x.dt = 1) b.1)))
      (b.2.flag r.2).result x.d r.1) := by
  unfold exactOp
  rw [bind_ok _ _ _ (readSM_eq _ _ _ _), bind_ok _ _ _ (readSM_eq _ _ _ _)]
  rfl

/-- A form of two modified sources always completes. -/
theorem binaryOp_eq (x : FmtR) (g : Bool) (f : Word → Word → Word × BitVec 6) (s : State) :
    binaryOp x g f s = .ok ((), let a := s.source x.a; let b := a.2.source x.b
      let r := f (modInt 64 x.ma g a.1) (modInt 64 x.mb g b.1)
      (b.2.flag r.2).result x.d r.1) := by
  unfold binaryOp
  rw [bind_ok _ _ _ (readSM_eq _ _ _ _), bind_ok _ _ _ (readSM_eq _ _ _ _)]
  rfl

/-- A bit operation on A always completes. -/
theorem bitUnary_eq (x : FmtR) (f : Word → Word) (s : State) :
    bitUnary x f s = .ok ((), let a := s.source x.a; a.2.result x.d (f a.1)) := by
  unfold bitUnary; rw [bind_ok _ _ _ (readS_eq _ _)]; rfl

/-- A bit operation on A and B always completes. -/
theorem bitBinary_eq (x : FmtR) (f : Word → Word → Word) (s : State) :
    bitBinary x f s = .ok ((), let a := s.source x.a; let b := a.2.source x.b; b.2.result x.d (f a.1 b.1)) := by
  unfold bitBinary; rw [bind_ok _ _ _ (readS_eq _ _), bind_ok _ _ _ (readS_eq _ _)]; rfl

/-- An immediate form always completes. -/
theorem immOp_eq (x : FmtI) (f : Word → Word → Word) (s : State) :
    immOp x f s = .ok ((), let a := s.source x.a; a.2.result x.d (f a.1 x.value)) := by
  unfold immOp; rw [bind_ok _ _ _ (readS_eq _ _)]; rfl

theorem selBody_eq (x : FmtR) (s : State) :
    selBody x s = .ok ((), let a := s.source x.a; let b := a.2.source x.b; let c := b.2.source x.c
      c.2.result x.d (if c.1 ≠ 0 then modInt 64 x.ma true a.1 else modInt 64 x.mb true b.1)) := by
  unfold selBody
  rw [bind_ok _ _ _ (readSM_eq _ _ _ _), bind_ok _ _ _ (readSM_eq _ _ _ _), bind_ok _ _ _ (readS_eq _ _)]; rfl

theorem movBody_eq (x : FmtR) (s : State) :
    movBody x s = .ok ((), let a := s.source x.a; a.2.result x.d (modInt 64 x.ma true a.1)) := by
  unfold movBody; rw [bind_ok _ _ _ (readSM_eq _ _ _ _)]; rfl

-- Completion

/-- Completion changes of memory nothing, and of the executing context only its live mask and what it waits for. -/
theorem finish_me (s : State) (i : Instr) :
    (s.finish i).me = { s.me.settled with live := s.me.live &&& ~~~ (lastUse i).1 } := by
  simp only [State.finish]; split <;> simp

@[simp] theorem finish_mem (s : State) (i : Instr) : (s.finish i).mem = s.mem := by
  simp only [State.finish]; split <;> rfl

@[simp] theorem finish_tiles (s : State) (i : Instr) : (s.finish i).tiles = s.tiles := by
  simp only [State.finish]; split <;> rfl

@[simp] theorem finish_onTile (s : State) (i : Instr) : (s.finish i).onTile = s.onTile := by
  simp only [State.finish]; split <;> rfl

@[simp] theorem finish_pc (s : State) (i : Instr) : (s.finish i).me.pc = s.me.pc := by rw [finish_me]; rfl

@[simp] theorem finish_gReg (s : State) (i : Instr) (n : Nat) : (s.finish i).gReg n = s.gReg n := by
  simp [State.gReg, finish_me, Ctx.gReg, Ctx.settled]

-- Sources and results

@[simp] theorem popQ_mem (s : State) (q : Nat) : (s.popQ q).2.mem = s.mem := by simp only [State.popQ]; split <;> rfl
@[simp] theorem popQ_me (s : State) (q : Nat) : (s.popQ q).2.me = s.me := by simp only [State.popQ]; split <;> rfl
@[simp] theorem source_mem (s : State) (c : BitVec 6) : (s.source c).2.mem = s.mem := by unfold State.source; split <;> simp
@[simp] theorem source_me (s : State) (c : BitVec 6) : (s.source c).2.me = s.me := by unfold State.source; split <;> simp
@[simp] theorem result_mem (s : State) (c : BitVec 6) (v : Word) : (s.result c v).mem = s.mem := by unfold State.result; split <;> rfl
@[simp] theorem flag_mem (s : State) (f : BitVec 6) : (s.flag f).mem = s.mem := rfl

theorem gReg_setG (s : State) (n m : Nat) (v : Word) : (s.setG n v).gReg m = if m = n then v else s.gReg m := by
  simp [State.gReg, State.setG, Ctx.gReg, Ctx.setG, Tbl.get_set]

end Sys2Proof.Machine
end

