-- ==== Sys2Proof/Tests/Slice0.lean ====
section
/-! SUPPORT. The model's own tests: ill-formed terms refused, words of the spec decoded, one step each on small states, and a witness for the hypotheses
of each statement. An expected value is the spec's own example or worked out by hand from the rule named. -/

namespace Sys2Proof.Tests

open Sys2Proof.Machine

set_option Elab.async false

-- Helpers

/-- The machine about to run `i`, with these scalar registers. -/
def ready (i : Instr) (regs : List (Nat × Nat)) : State :=
  let s := State.reset.withFetchWord 64 (encode i).toNat
  s.setMe { s.me with g := regs.foldl (fun m p => Tbl.set 0 m p.1 (w64 p.2)) [] }

/-- What `exec` leaves of that machine, changed first. -/
def after (i : Instr) (regs : List (Nat × Nat)) (f : State → State := id) : Option State := answer (exec i (f (ready i regs)))

/-- Register `n` of a state that there is. -/
def reg (n : Nat) (s : Option State) : Option Nat := s.map fun s => (s.me.gReg n).toNat

/-- The trap a state holds: code, argument, return address. -/
def trapOf (s : Option State) : Option (Nat × Nat × Nat) := s.map fun s => (s.me.code.toNat, s.me.arg.toNat, s.me.rpc.toNat)

/-- With a handler at 0x3000. -/
def handled (s : State) : State := s.setMe { s.me with vec := 0x3000 }

/-- `Begins`, decided. -/
def begins (i : Instr) (s : State) : Bool :=
  decide (decodeTrap i s = none) && (decide (s.me.await ≠ .none) || byLanes i || s.predicate i) && decide (vecWait i s = false)

/-- `Issues`, decided. -/
def issuing (i : Instr) (s : State) : Bool :=
  begins i s && decide (valueTrap i s = false) && decide (staleField i s = none) && decide (queueWait i s = none) && decide (pushWait i s = false)

/-- `Performed`, decided. -/
def performed (s : State) : Bool := decide (s.ownPushed = false ∧ s.ownFetch = false ∧ s.ownElems (fun _ => true) = false)

/-- `Anew`, decided. -/
def anew (s : State) : Bool := decide (s.me.line = none ∧ s.me.regs = [] ∧ s.me.data = [] ∧ s.me.undo = none)

/-- `VecTurn`, decided. -/
def vecTurn (s : State) : Bool := decide ((s.vecEntries s.myTile).length < 2) && (s.vecEntries s.myTile).all fun e => decide (e.stage = .done)

/-- `Issues`, decided, for a strand that comes to the instruction anew, with every access performed and no lane of it. -/
def issues (i : Instr) (s : State) : Bool := issuing i s && performed s && anew s && decide (s.me.lanes = 0)

theorem begins_of {i : Instr} {s : State} (h : begins i s = true) : s.Begins i := by
  simp only [begins, Bool.and_eq_true, Bool.or_eq_true, decide_eq_true_eq] at h
  exact ⟨h.1.1, or_assoc.mp h.1.2, h.2⟩

theorem issuing_of {i : Instr} {s : State} (h : issuing i s = true) : s.Issues i := by
  simp only [issuing, Bool.and_eq_true, decide_eq_true_eq] at h
  exact ⟨(begins_of h.1.1.1.1).legal, (begins_of h.1.1.1.1).enabled, (begins_of h.1.1.1.1).written, h.1.1.1.2, h.1.1.2, h.1.2, h.2⟩

theorem issues_of {i : Instr} {s : State} (h : issues i s = true) : s.Issues i := by
  simp only [issues, Bool.and_eq_true] at h
  exact issuing_of h.1.1.1

theorem performed_of {i : Instr} {s : State} (h : issues i s = true) : s.Performed := by
  simp only [issues, Bool.and_eq_true, performed, decide_eq_true_eq] at h
  exact h.1.1.2

theorem anew_of {i : Instr} {s : State} (h : issues i s = true) : s.Anew := by
  simp only [issues, Bool.and_eq_true, anew, decide_eq_true_eq] at h
  exact h.1.2

/-- What an effect gives. -/
def given {α : Type} (m : Except Stop (α × State)) : Option α :=
  match m with
  | .ok r => some r.1
  | .error _ => none

theorem ok_of {α : Type} {m : Except Stop (α × State)} {a : α} (h : given m = some a) : ∃ t, m = .ok (a, t) := by
  cases m with
  | ok r => exact ⟨r.2, by simp only [given, Option.some.injEq] at h; rw [← h]⟩
  | error _ => simp [given] at h

theorem next_of {o : Host.Outcome State Fault Refusal} (h : (answer o).isSome = true) : ∃ t, o = .next t := by
  cases o with
  | next t => exact ⟨t, rfl⟩
  | fault _ => simp [answer] at h
  | refused _ => simp [answer] at h

/-- Plain operands of format R. -/
def fr (d a b c : Nat) (dt : Nat := 0) : FmtR :=
  ⟨0, false, .ofNat 6 d, .ofNat 6 a, .ofNat 6 b, .ofNat 6 c, 0, 0, 0, 0, 0, .ofNat 5 dt, 0⟩

/-- Plain operands of format I, E, M and J. -/
def fi (d a imm : Nat) (it : Nat := 0) : FmtI := ⟨0, false, .ofNat 6 d, .ofNat 6 a, false, .ofNat 3 it, .ofNat 32 imm⟩
def fe (d a b c : Nat) (cmd : Nat := 0) : FmtE := ⟨0, false, .ofNat 6 d, .ofNat 6 a, .ofNat 6 b, .ofNat 6 c, false, false, false, .ofNat 21 cmd⟩
def fm (dr base off : Nat) (size : Nat := 3) (ord : Nat := 0) (idx : Nat := 0x3F) : FmtM :=
  ⟨0, false, .ofNat 6 dr, .ofNat 6 base, .ofNat 6 idx, false, false, 0, .ofNat 2 ord, .ofNat 4 size, .ofNat 20 off⟩
def fj (r : Nat) (off : Int) : FmtJ := ⟨0, false, .ofNat 6 r, .ofInt 42 off⟩

/-- The own scratchpad's address of offset `o`. -/
def own (o : Nat) : Nat := 0xFF00000000000000 + o

/-- A word of tile 0's scratchpad set. -/
def put8 (o v : Nat) (s : State) : State := s.storeWord (poolKey 0 o) 8 v false

-- Ill-formed terms are refused (R282, R289, R290)

theorem test_wf_predicate : (Instr.add { fr 3 1 2 0 1 with pn := true }).defect = some .predicate ∧
    decodeTableWord 64 (encode (.add { fr 3 1 2 0 1 with pn := true })).toNat = none := by decide +kernel
theorem test_wf_operand : (Instr.add (fr 0x10 1 2 0 1)).defect = some .operand ∧
    decodeTableWord 64 (encode (.add (fr 0x10 1 2 0 1))).toNat = none := by decide +kernel
theorem test_wf_modifier : (Instr.and { fr 3 1 2 0 with ma := 1 }).defect = some .operand ∧
    decodeTableWord 64 (encode (.and { fr 3 1 2 0 with ma := 1 })).toNat = none := by decide +kernel
theorem test_wf_option : (Instr.vadd (fr 0x12 0x10 0x11 0 5)).defect = some .option ∧
    decodeTableWord 64 (encode (.vadd (fr 0x12 0x10 0x11 0 5))).toNat = none := by decide +kernel
theorem test_wf_reserved : decodeTableWord 64 0xFF00000000000000 = some (.reservedOpcode 0xFF00000000000000) ∧
    decodeTableWord 64 0x09A0000000000001 = none ∧ decodeTableWord 8 0xFF = some (.unassignedBytecode 0xFF) ∧ decodeTableWord 32 0x02000140 = none := by
  decide +kernel

-- Words of the spec that `WordsOfTheSpec` does not name (each from the entry's own example)

theorem test_decode_control :
    decodeTableWord 64 0x04102490FFFFFFFF = some (.addi (fi 9 9 0xFFFFFFFF)) ∧ decodeTableWord 64 0x09A0000000000000 = some (.nop (fr 0 0 0 0)) ∧
    decodeTableWord 64 0x0930000000000000 = some (.halt (fr 0 0 0 0)) ∧ decodeTableWord 64 0x0940000000000000 = some (.yield (fr 0 0 0 0)) ∧
    decodeTableWord 64 0x0950006000000000 = some (.hop (fr 0 6 0 0)) ∧ decodeTableWord 64 0x0960002000000000 = some (.trap (fr 0 2 0 0)) ∧
    decodeTableWord 64 0x0970000000000000 = some (.tret (fr 0 0 0 0)) ∧ decodeTableWord 64 0x0980000000000000 = some (.bkpt (fr 0 0 0 0)) ∧
    decodeTableWord 64 0x0A1000F000000010 = some (.mtsr (fi 0 15 0x10)) := by decide +kernel
theorem test_decode_memory :
    decodeTableWord 64 0x1030248FC3300000 = some (.ldc (fm 9 8 0 3 3)) ∧ decodeTableWord 64 0x1020201FC2300600 = some (.st (fm 8 1 0x600 3 2)) ∧
    decodeTableWord 64 0x1100103FC1360110 = some (.amswap (fm 4 3 0x60110 3 1)) ∧ decodeTableWord 64 0x1200000000000100 = some (.fence (fr 0 0 0 0 8)) ∧
    decodeTableWord 64 0x12000000000001C0 = some (.fence (fr 0 0 0 0 14)) ∧ decodeTableWord 64 0x1040401FC0400000 = some (.vld (fm 0x10 1 0 4)) := by
  decide +kernel
theorem test_decode_sync :
    decodeTableWord 64 0x124004408A000000 = some (.bwait (fr 1 4 2 10)) ∧ decodeTableWord 64 0x1250103000000000 = some (.rclaim (fr 4 3 0 0)) ∧
    decodeTableWord 64 0x1300006008000000 = some (.sendm (fr 0 6 0 8)) ∧ decodeTableWord 64 0x132004F180000000 = some (.mbarm (fr 1 15 6 0)) ∧
    decodeTableWord 64 0x1310010442000020 = some (.sendk (fr 0x00 0x10 0x11 2 1)) := by decide +kernel
theorem test_decode_vector :
    decodeTableWord 64 0x2000490440000120 = some (.vadd (fr 0x12 0x10 0x11 0 9)) ∧ decodeTableWord 64 0x2120050440000120 = some (.vclt (fr 1 0x10 0x11 0 9)) ∧
    decodeTableWord 64 0x21404D4542000000 = some (.vsel (fr 0x13 0x14 0x15 2)) ∧ decodeTableWord 64 0x2150592249000240 = some (.vcvt (fr 0x16 0x12 9 9 18)) ∧
    decodeTableWord 64 0x22004D2000000120 = some (.vredsum (fr 0x13 0x12 0 0 9)) ∧ decodeTableWord 64 0x2320144000000000 = some (.vgrant (fr 5 4 0 0)) ∧
    decodeTableWord 64 0x2330A03000000000 = some (.sbind (fr 0x28 3 0 0)) := by decide +kernel
theorem test_decode_engines :
    decodeTableWord 64 0x3010E08140000000 = some (.tldx (fe 0x38 8 5 0)) ∧ decodeTableWord 64 0x30605020C0000090 = some (.accrd (fe 0x14 2 3 0 0x90)) ∧
    decodeTableWord 64 0x3070008240000060 = some (.accwb (fe 0 8 9 0 0x60)) ∧ decodeTableWord 64 0x3120146000000000 = some (.cpstat (fe 5 6 0 0)) ∧
    decodeTableWord 64 0x3130142180000000 = some (.wmread (fe 5 2 6 0)) ∧ decodeTableWord 64 0x31501461C800000C = some (.gath (fe 5 6 7 8 0xC)) ∧
    decodeTableWord 64 0x3220103000000000 = some (.xrel (fe 4 3 0 0)) ∧ decodeTableWord 64 0x3250143100000000 = some (.ctrsnap (fe 5 3 4 0)) ∧
    decodeTableWord 64 0x3260083004000000 = some (.kmerge (fe 2 3 0 4)) ∧ decodeTableWord 64 0x327009500400004C = some (.rred (fe 2 0x15 0 4 0x4C)) := by
  decide +kernel
theorem test_decode_runtime :
    decodeTableWord 64 0x4000005000000000 = some (.icl (fr 0 5 0 0)) ∧ decodeTableWord 64 0x40401461C0000000 = some (.ldslot (fr 5 6 7 0)) ∧
    decodeTableWord 64 0x4070008000000000 = some (.rcdec (fr 0 8 0 0)) ∧ decodeTableWord 64 0x4080008000000000 = some (.twait (fr 0 8 0 0)) ∧
    decodeTableWord 64 0x4090001080000000 = some (.detour (fr 0 1 2 0)) ∧ decodeTableWord 64 0x40A0000000000000 = some (.detret (fr 0 0 0 0)) ∧
    decodeTableWord 64 0x40B01461C8000000 = some (.plaunch (fr 5 6 7 8)) := by decide +kernel

theorem wit_NativeRoundTrip : (Instr.vfma (fr 0x14 0x15 0x16 0x17 9)).pred.isSome = true ∧ (Instr.vfma (fr 0x14 0x15 0x16 0x17 9)).wf = true := by
  decide +kernel
theorem wit_NativeWordUnique : ∃ i, decode 0x2036515597546120 = .ok i := ⟨_, rfl⟩
theorem wit_BytecodeRoundTrip : ∃ i : Instr, i.pred = none ∧ encode i ≠ 0 ∧ (∀ w, i ≠ .reservedOpcode w) ∧ (∀ b, i ≠ .unassignedBytecode b) ∧
    i.wf = true := ⟨.bcCallS 3 2, by decide +kernel, by decide +kernel, nofun, nofun, by decide +kernel⟩

-- Scalar instructions (R297, R299, R301, R303)

theorem test_add_sat : reg 3 (after (.add { fr 3 1 2 0 1 with clamp := 3 }) [(1, 0x7FFFFFFFFFFFFFF0), (2, 0x20)]) = some 0x7FFFFFFFFFFFFFFF ∧
    (after (.add { fr 3 1 2 0 1 with clamp := 3 }) [(1, 0x7FFFFFFFFFFFFFF0), (2, 0x20)]).map (fun s => s.me.aflags) = some flSat := by decide +kernel
theorem test_add_wraps : reg 3 (after (.add (fr 3 1 2 0 1)) [(1, 0x7FFFFFFFFFFFFFF0), (2, 0x20)]) = some 0x8000000000000010 ∧
    (after (.add (fr 3 1 2 0 1)) [(1, 0x7FFFFFFFFFFFFFF0), (2, 0x20)]).map (fun s => s.me.aflags) = some 0 := by decide +kernel
theorem test_sub_source_is_destination : reg 1 (after (.sub (fr 1 1 1 0 1)) [(1, 7)]) = some 0 := by decide +kernel
theorem test_mul_scale : reg 3 (after (.mul { fr 3 1 2 0 2 with scale := 7 }) [(1, 3), (2, 5)]) = some 7 := by decide +kernel
theorem test_mulh : reg 3 (after (.mulh (fr 3 1 2 0 1)) [(1, 2 ^ 64 - 1), (2, 1)]) = some (2 ^ 64 - 1) ∧
    reg 3 (after (.mulhu (fr 3 1 2 0 2)) [(1, 2 ^ 64 - 1), (2, 1)]) = some 0 := by decide +kernel
theorem test_div_corners : reg 3 (after (.div (fr 3 1 2 0 1)) [(1, 2 ^ 63), (2, 2 ^ 64 - 1)]) = some (2 ^ 63) ∧
    reg 3 (after (.rem (fr 3 1 2 0 1)) [(1, 2 ^ 63), (2, 2 ^ 64 - 1)]) = some 0 ∧ reg 3 (after (.divu (fr 3 1 2 0 2)) [(1, 5), (2, 0)]) = some (2 ^ 64 - 1) ∧
    reg 3 (after (.remu (fr 3 1 2 0 2)) [(1, 7), (2, 4)]) = some 3 ∧
    (after (.divu (fr 3 1 2 0 2)) [(1, 5), (2, 0)]).map (fun s => s.me.aflags) = some flDivzero := by decide +kernel
theorem test_div_toward_zero : reg 3 (after (.div (fr 3 1 2 0 1)) [(1, 2 ^ 64 - 7), (2, 2)]) = some (2 ^ 64 - 3) ∧
    reg 3 (after (.rem (fr 3 1 2 0 1)) [(1, 2 ^ 64 - 7), (2, 2)]) = some (2 ^ 64 - 1) := by decide +kernel
theorem test_min_max : reg 3 (after (.min (fr 3 1 2 0 1)) [(1, 2 ^ 64 - 1), (2, 1)]) = some (2 ^ 64 - 1) ∧
    reg 3 (after (.minu (fr 3 1 2 0 2)) [(1, 2 ^ 64 - 1), (2, 1)]) = some 1 ∧ reg 3 (after (.max (fr 3 1 2 0 1)) [(1, 2 ^ 64 - 1), (2, 1)]) = some 1 ∧
    reg 3 (after (.maxu (fr 3 1 2 0 2)) [(1, 2 ^ 64 - 1), (2, 1)]) = some (2 ^ 64 - 1) := by decide +kernel
theorem test_bext : reg 2 (after (.bext (fr 2 1 3 0)) [(1, 0xABCD), (3, 0x1C4)]) = some 0xBC := by decide +kernel
theorem test_bins : reg 2 (after (.bins (fr 2 1 3 4)) [(1, 0xABCD), (3, 0x1C4), (4, 0xF5)]) = some 0xAF5D := by decide +kernel
theorem test_shifts : reg 2 (after (.shl (fr 2 1 3 0)) [(1, 3), (3, 63)]) = some (2 ^ 63) ∧ reg 2 (after (.shl (fr 2 1 3 0)) [(1, 3), (3, 64)]) = some 0 ∧
    reg 2 (after (.shr (fr 2 1 3 0)) [(1, 2 ^ 63), (3, 63)]) = some 1 ∧ reg 2 (after (.sra (fr 2 1 3 0)) [(1, 2 ^ 63), (3, 200)]) = some (2 ^ 64 - 1) := by
  decide +kernel
theorem test_logic : reg 2 (after (.and (fr 2 1 3 0)) [(1, 12), (3, 10)]) = some 8 ∧ reg 2 (after (.or (fr 2 1 3 0)) [(1, 12), (3, 10)]) = some 14 ∧
    reg 2 (after (.xor (fr 2 1 3 0)) [(1, 12), (3, 10)]) = some 6 := by decide +kernel
theorem test_counts : reg 2 (after (.clz (fr 2 1 0 0)) [(1, 1)]) = some 63 ∧ reg 2 (after (.ctz (fr 2 1 0 0)) [(1, 0)]) = some 64 ∧
    reg 2 (after (.popc (fr 2 1 0 0)) [(1, 0xF1)]) = some 5 ∧ reg 2 (after (.clz (fr 2 1 0 0)) [(1, 0)]) = some 64 := by decide +kernel
theorem test_compares : reg 2 (after (.slt (fr 2 1 3 0 1)) [(1, 2 ^ 64 - 1), (3, 0)]) = some 1 ∧
    reg 2 (after (.sltu (fr 2 1 3 0 1)) [(1, 2 ^ 64 - 1), (3, 0)]) = some 0 ∧ reg 2 (after (.sle (fr 2 1 3 0 1)) [(1, 4), (3, 4)]) = some 1 ∧
    reg 2 (after (.sleu (fr 2 1 3 0 1)) [(1, 5), (3, 4)]) = some 0 ∧ reg 2 (after (.seq (fr 2 1 3 0 1)) [(1, 5), (3, 5)]) = some 1 ∧
    reg 2 (after (.sne (fr 2 1 3 0 1)) [(1, 5), (3, 5)]) = some 0 := by decide +kernel
theorem test_sel : reg 4 (after (.sel (fr 4 5 6 7 1)) [(5, 11), (6, 22), (7, 9)]) = some 11 ∧
    reg 4 (after (.sel (fr 4 5 6 7 1)) [(5, 11), (6, 22)]) = some 22 ∧ reg 4 (after (.mov { fr 4 5 0 0 1 with ma := 2 }) [(5, 11)]) = some (2 ^ 64 - 11) := by
  decide +kernel
theorem test_immediates : reg 9 (after (.addi (fi 9 9 0xFFFFFFFF)) [(9, 5)]) = some 4 ∧ reg 9 (after (.movi (fi 9 0 0x80000000)) []) = some 0xFFFFFFFF80000000 ∧
    reg 9 (after (.movi (fi 9 0 0x80000000 1)) []) = some 0x80000000 ∧ reg 9 (after (.movi (fi 9 0 5 2)) []) = some (5 * 2 ^ 32) ∧
    reg 9 (after (.andi (fi 9 1 0xF0 1)) [(1, 0xABCD)]) = some 0xC0 ∧ reg 9 (after (.ori (fi 9 1 1)) [(1, 2)]) = some 3 ∧
    reg 9 (after (.xori (fi 9 1 3)) [(1, 2)]) = some 1 := by decide +kernel
theorem test_immediate_shifts : reg 9 (after (.shli (fi 9 1 4)) [(1, 0xF000000000000001)]) = some 16 ∧ reg 9 (after (.shri (fi 9 1 4)) [(1, 0x123)]) = some 0x12 ∧
    reg 9 (after (.srai (fi 9 1 63)) [(1, 2 ^ 63)]) = some (2 ^ 64 - 1) ∧ reg 9 (after (.slti (fi 9 1 0)) [(1, 2 ^ 64 - 1)]) = some 1 ∧
    reg 9 (after (.sltui (fi 9 1 1)) [(1, 2 ^ 64 - 1)]) = some 0 := by decide +kernel

/-- The forms that the result statements of the scalar unit are about issue on a machine that has just been placed. -/
theorem wit_scalar_issue : ∀ op ∈ [Instr.add, .sub, .mul, .mulh, .mulhu, .div, .divu, .rem, .remu, .min, .max, .minu, .maxu],
    (ready (op (fr 3 1 2 0 1)) [(1, 7)]).Issues (op (fr 3 1 2 0 1)) := by
  intro op h
  simp only [List.mem_cons, List.not_mem_nil, or_false] at h
  rcases h with h | h | h | h | h | h | h | h | h | h | h | h | h <;> subst h <;> exact issues_of (by decide +kernel)
theorem wit_ArithmeticResults : (Instr.add, 0) ∈ [(Instr.add, 0), (Instr.sub, 1)] ∧
    (ready (.add (fr 3 1 2 0 1)) [(1, 7)]).Issues (.add (fr 3 1 2 0 1)) := ⟨List.mem_cons_self, issues_of (by decide +kernel)⟩
theorem wit_BitOperationResults : ∀ op ∈ [Instr.and, .or, .xor, .shl, .shr, .sra, .bext], (ready (op (fr 3 1 2 0)) []).Issues (op (fr 3 1 2 0)) := by
  intro op h
  simp only [List.mem_cons, List.not_mem_nil, or_false] at h
  rcases h with h | h | h | h | h | h | h <;> subst h <;> exact issues_of (by decide +kernel)
theorem wit_BitOperationResults_one : ∀ op ∈ [Instr.clz, .ctz, .popc], (ready (op (fr 3 1 0 0)) []).Issues (op (fr 3 1 0 0)) := by
  intro op h
  simp only [List.mem_cons, List.not_mem_nil, or_false] at h
  rcases h with h | h | h <;> subst h <;> exact issues_of (by decide +kernel)
theorem wit_BitOperationResults_bins : (ready (.bins (fr 3 1 2 4)) []).Issues (.bins (fr 3 1 2 4)) := issues_of (by decide +kernel)
theorem wit_CompareSelectMoveResults : ∀ op ∈ [Instr.seq, .sne, .slt, .sltu, .sle, .sleu], (ready (op (fr 3 1 2 0 1)) []).Issues (op (fr 3 1 2 0 1)) := by
  intro op h
  simp only [List.mem_cons, List.not_mem_nil, or_false] at h
  rcases h with h | h | h | h | h | h <;> subst h <;> exact issues_of (by decide +kernel)
theorem wit_CompareSelectMoveResults_sel : (ready (.sel (fr 3 1 2 4 1)) []).Issues (.sel (fr 3 1 2 4 1)) ∧ (ready (.mov (fr 3 1 0 0 1)) []).Issues (.mov (fr 3 1 0 0 1)) :=
  ⟨issues_of (by decide +kernel), issues_of (by decide +kernel)⟩
theorem wit_ImmediateResults : ∀ op ∈ [Instr.addi, .andi, .ori, .xori, .shli, .shri, .srai, .slti, .sltui],
    (ready (op (fi 3 1 5)) []).Issues (op (fi 3 1 5)) := by
  intro op h
  simp only [List.mem_cons, List.not_mem_nil, or_false] at h
  rcases h with h | h | h | h | h | h | h | h | h <;> subst h <;> exact issues_of (by decide +kernel)
theorem wit_ImmediateResults_movi : (ready (.movi (fi 3 0 5)) []).Issues (.movi (fi 3 0 5)) ∧ (ready (.movi (fi 0x10 0 5 3)) []).Issues (.movi (fi 0x10 0 5 3)) ∧
    (ready (.movi (fi 0x10 0 5 3)) []).streaming 0 = false := ⟨issues_of (by decide +kernel), issues_of (by decide +kernel), by decide +kernel⟩
theorem wit_ScalarFrameHolds : (ready (.add (fr 0x30 1 2 0 1)) []).myTile < 4096 ∧ (ready (.add (fr 0x30 1 2 0 1)) []).cur = .c 0 ∧
    (ready (.add (fr 3 1 2 0 1)) []).Issues (.add (fr 3 1 2 0 1)) := ⟨by decide +kernel, by decide +kernel, issues_of (by decide +kernel)⟩

-- Traps (R289, R293, R311 to R316)

theorem test_trap_delivered : trapOf (after (.trap (fr 0 2 0 0)) [(2, 77)] handled) = some (10, 77, 0x200008) ∧
    (after (.trap (fr 0 2 0 0)) [(2, 77)] handled).map (fun s => (s.me.pc, s.me.inh)) = some (0x3000, true) := by decide +kernel
theorem test_tret : (after (.tret (fr 0 0 0 0)) [] fun s => s.setMe { s.me with inh := true, rpc := 0x4008 }).map (fun s => (s.me.pc, s.me.inh)) =
    some (0x4008, false) := by decide +kernel
theorem test_reserved_opcode : trapOf (after (.reservedOpcode 0xFF00000000000000) [] handled) = some (1, 0xFF00000000000000, 0x200000) := by decide +kernel
theorem test_wrong_core : trapOf (after (.vadd (fr 0x12 0x10 0x11 0 9)) [] fun s => handled { s with cur := .a 0 }) =
    some (1, 0x2000490440000120, 0) := by decide +kernel
theorem test_dead_source : trapOf (after (.mov (fr 3 5 0 0 1)) [] fun s => handled (s.setMe { s.me with live := 0xFFDF })) = some (2, 5, 0x200000) := by
  decide +kernel
theorem test_false_predicate : (after (.mov { fr 3 5 0 0 1 with pk := 1 }) [(5, 9)]).map (fun s => (s.me.pc, s.me.gReg 3)) = some (0x200008, 0) := by
  decide +kernel

theorem wit_DecodeTraps : (Instr.add (fr 0x10 1 2 0 1)).pred.isSome = true ∧ (Instr.add (fr 0x10 1 2 0 1)).wf = false := by decide +kernel
theorem wit_DecodeTraps_core : (opCores (instrOp (.vadd (fr 0x12 0x10 0x11 0 9))) (instrFn (.vadd (fr 0x12 0x10 0x11 0 9)))).has (.a 0) = false := by decide +kernel
theorem wit_DecodeTraps_register : ∀ n ∈ [0x08, 0x18, 0x40, 0x110, 0x111], (Instr.mfsr (fi 1 0 n)).wf = true ∧
    (ready (.mfsr (fi 1 0 n)) []).cur.isTile = true ∧ (Instr.mfsr (fi 1 0 n)).fields.all (fun f => fieldHeld f (ready (.mfsr (fi 1 0 n)) [])) = true := by
  decide +kernel
/-- The second word is not ready: the queue register is empty. -/
def popq : Instr := .mov (fr 3 0x30 0 0 1)
theorem wit_IssueChecks : let i : Instr := .mov { fr 3 5 0 0 1 with pk := 1 }
    i.pred = some (1, false) ∧ decodeTrap i (ready i []) = none ∧ (ready i []).me.await = .none ∧ byLanes i = false ∧
      ((Tbl.get 0 (ready i []).myCore.k 1).getLsbD 0 ^^ false) = false := by decide +kernel
theorem wit_IssueChecks_dead : let i : Instr := .mov (fr 3 5 0 0 1)
    let s := (ready i []).setMe { (ready i []).me with live := 0xFFDF }
    i.pred.isSome = true ∧ decodeTrap i s = none ∧ s.predicate i = true ∧ valueTrap i s = false ∧ staleField i s = some 5 := by decide +kernel
theorem wit_IssueChecks_queue : popq.pred.isSome = true ∧ decodeTrap popq (ready popq []) = none ∧ (ready popq []).predicate popq = true ∧
    valueTrap popq (ready popq []) = false ∧ staleField popq (ready popq []) = none ∧ queueWait popq (ready popq []) = some 0 := by decide +kernel
theorem wit_TrapDelivery : (handled (ready popq [])).me.vec ≠ 0 ∧ (handled (ready popq [])).me.inh = false := by decide +kernel
theorem wit_TrapWithoutHandler : let s := ready popq []
    s.me.vec = 0 ∧ s.evq.length < 4096 ∧ s.cur = .c 0 ∧ (Tbl.find s.launches s.me.launch).isSome = true := by decide +kernel
theorem wit_TrapWithoutHandler_control : (ready (.tagchk (fr 3 1 0 0)) []).me.vec = 0 ∧ (ready (.tagchk (fr 3 1 0 0)) []).cur = .cc 0 := by decide +kernel
theorem wit_SoftwareTrapAndReturn : (ready (.trap (fr 0 2 0 0)) []).Issues (.trap (fr 0 2 0 0)) ∧ (ready (.bkpt (fr 0 0 0 0)) []).Issues (.bkpt (fr 0 0 0 0)) ∧
    (ready (.bkpt (fr 0 0 0 0)) []).myCore.haltOn = false ∧ (ready (.tret (fr 0 0 0 0)) []).Issues (.tret (fr 0 0 0 0)) ∧
    (ready (.tret (fr 0 0 0 0)) []).me.inh = false :=
  ⟨issues_of (by decide +kernel), issues_of (by decide +kernel), by decide +kernel, issues_of (by decide +kernel), by decide +kernel⟩
theorem wit_SoftwareTrapAndReturn_set : let s := ready (.bkpt (fr 0 0 0 0)) []
    let t := ready (.tret (fr 0 0 0 0)) []
    (s.setMyCore { s.myCore with haltOn := true }).Issues (.bkpt (fr 0 0 0 0)) ∧ (t.setMe { t.me with inh := true }).Issues (.tret (fr 0 0 0 0)) :=
  ⟨issues_of (by decide +kernel), issues_of (by decide +kernel)⟩

-- Control flow (R305 to R310, R317 to R320)

theorem test_bz_back_one : (after (.bz (fj 4 (-1))) []).map (fun s => s.me.pc.toNat) = some 0x1FFFF8 ∧
    (after (.bz (fj 4 (-1))) [(4, 1)]).map (fun s => s.me.pc.toNat) = some 0x200008 := by decide +kernel
theorem test_branches : (after (.br (fj 0 2)) []).map (fun s => s.me.pc.toNat) = some 0x200010 ∧
    (after (.bnz (fj 4 2)) []).map (fun s => s.me.pc.toNat) = some 0x200008 ∧ (after (.bltz (fj 4 2)) [(4, 2 ^ 63)]).map (fun s => s.me.pc.toNat) = some 0x200010 ∧
    (after (.bgez (fj 4 2)) []).map (fun s => s.me.pc.toNat) = some 0x200010 := by decide +kernel
theorem test_loop : (after (.loop (fj 7 (-6))) [(7, 2)]).map (fun s => (s.me.pc.toNat, s.me.gReg 7)) = some (0x1FFFD0, 1) ∧
    (after (.loop (fj 7 (-6))) [(7, 1)]).map (fun s => (s.me.pc.toNat, s.me.gReg 7)) = some (0x200008, 0) := by decide +kernel
theorem test_call_ret : (after (.call (fj 15 4)) []).map (fun s => (s.me.pc.toNat, (s.me.gReg 15).toNat)) = some (0x200020, 0x200008) ∧
    (after (.ret (fr 0 0 0 0)) [(15, 0x4000)]).map (fun s => s.me.pc.toNat) = some 0x4000 := by decide +kernel
theorem test_callr_same_register : (after (.callr (fr 3 3 0 0)) [(3, 0x5000)]).map (fun s => (s.me.pc.toNat, (s.me.gReg 3).toNat)) = some (0x5000, 0x200008) ∧
    trapOf (after (.callr (fr 3 3 0 0)) [(3, 0x5004)] handled) = some (4, 0x5004, 0x200000) ∧
    (after (.jr (fr 0 3 0 0)) [(3, 0x5000)]).map (fun s => s.me.pc.toNat) = some 0x5000 := by decide +kernel
theorem test_mfsr : reg 1 (after (.mfsr (fi 1 0 7)) []) = some 0x00402040 ∧ reg 1 (after (.mfsr (fi 1 0 0x22)) []) = some 1 := by decide +kernel
theorem test_mtsr : (after (.mtsr (fi 0 15 0x10)) [(15, 0x3007)]).map (fun s => s.me.vec.toNat) = some 0x3000 ∧
    (after (.mtsr (fi 0 15 0x20)) [(15, 5)] fun s => s.setMe { s.me with rm := 2 }).map (fun s => s.me.rm) = some 2 ∧
    (after (.mtsr (fi 0 15 0x22)) [(15, 0)]).map (fun s => (s.tile 0).rndseed) = some 1 := by decide +kernel
theorem test_halt : (after (.halt (fr 0 0 0 0)) []).map (fun s => s.me.st) = some .free := by decide +kernel
theorem test_hop_outside : trapOf (after (.hop (fr 0 6 0 0)) [(6, 0xFE00000000500000)] handled) = some (5, 0xFE00000000500000, 0x200000) := by decide +kernel

theorem wit_BranchesAndJumps : (∀ op ∈ [Instr.br], (ready (op (fj 0 2)) []).Issues (op (fj 0 2))) ∧
    (∀ op ∈ [Instr.bz, .bnz, .bltz, .bgez, .call, .loop], (ready (op (fj 4 2)) []).Issues (op (fj 4 2))) := by
  constructor <;> intro op h <;> simp only [List.mem_cons, List.not_mem_nil, or_false] at h
  · subst h; exact issues_of (by decide +kernel)
  · rcases h with h | h | h | h | h | h <;> subst h <;> exact issues_of (by decide +kernel)
theorem wit_BranchesAndJumps_register : ∀ v ∈ [0x5000, 0x5001], (ready (.jr (fr 0 3 0 0)) [(3, v)]).Issues (.jr (fr 0 3 0 0)) ∧
    (ready (.callr (fr 3 3 0 0)) [(3, v)]).Issues (.callr (fr 3 3 0 0)) ∧ (ready (.ret (fr 0 0 0 0)) [(15, v)]).Issues (.ret (fr 0 0 0 0)) := by
  intro v h
  simp only [List.mem_cons, List.not_mem_nil, or_false] at h
  rcases h with h | h <;> subst h <;> exact ⟨issues_of (by decide +kernel), issues_of (by decide +kernel), issues_of (by decide +kernel)⟩
theorem wit_BranchesAndJumps_dead : let s := ready (.ret (fr 0 0 0 0)) []
    (s.setMe { s.me with live := 0x7FFF }).Issues (.ret (fr 0 0 0 0)) ∧ (s.setMe { s.me with live := 0x7FFF }).me.live.getLsbD 15 = false :=
  ⟨issues_of (by decide +kernel), by decide +kernel⟩
theorem wit_StrandControl : let s := ready (.halt (fr 0 0 0 0)) []
    s.Issues (.halt (fr 0 0 0 0)) ∧ s.myCore.run = some s.curX ∧
      ∀ u ∈ (s.tile s.myTile).runs, (s.launch u).st ≠ .running ∨ ((s.ot u s.myTile).unplacedA = [] ∧ (s.ot u s.myTile).unplacedC = []) :=
  ⟨issues_of (by decide +kernel), by decide +kernel, by decide +kernel⟩
theorem wit_StrandControl_yield : let s := ready (.yield (fr 0 0 0 0)) []
    let t := (s.setCore s.cur { s.myCore with runq := [{ ctx := 1, level := 0, since := 0 }] }).setCtx (ctxKey s.cur 1) { s.me with st := .ready }
    s.Issues (.yield (fr 0 0 0 0)) ∧ s.myCore.runq = [] ∧ t.Issues (.yield (fr 0 0 0 0)) ∧ (∃ e ∈ t.myCore.runq, (t.ctx (ctxKey t.cur e.ctx)).st = .ready) ∧ t.myCore.run = some t.curX :=
  ⟨issues_of (by decide +kernel), by decide +kernel, issues_of (by decide +kernel), by decide +kernel, by decide +kernel⟩
/-- A hop to tile 1 in a launch of two tiles. -/
theorem wit_StrandControl_hop : let s := ready (.hop (fr 0 6 0 0)) [(6, 0xFE00000000100000)]
    let t := s.setLaunch s.me.launch { s.myLaunch with w := 2 }
    let o := s.setMe { s.me with g := [(6, w64 0xFE00000000000000)] }
    issues (.hop (fr 0 6 0 0)) t = true ∧ (t.gReg 6).toNat / 2 ^ 32 = 0xFE000000 ∧ t.myLaunch.covers 1 = true ∧ 1 ≠ t.myTile ∧ t.refusals t.myTile < 16 ∧
      issues (.hop (fr 0 6 0 0)) s = true ∧ s.myLaunch.covers 1 = false ∧ issues (.hop (fr 0 6 0 0)) o = true ∧ o.myLaunch.covers 0 = true ∧ o.myTile = 0 ∧
      (o.gReg 6).toNat / 2 ^ 32 = 0xFE000000 := by decide +kernel
theorem wit_SpecialRegisterReads : ∀ n ∈ [0x000, 0x007, 0x010, 0x014, 0x018, 0x022, 0x030, 0x033, 0x034, 0x037, 0x040, 0x042, 0x050, 0x057],
    issues (.mfsr (fi 1 0 n)) (ready (.mfsr (fi 1 0 n)) []) = true := by decide +kernel
theorem wit_SpecialRegisterReads_flags : (ready (.mfsr (fi 1 0 0x21)) []).Issues (.mfsr (fi 1 0 0x21)) ∧
    (ready (.mfsr (fi 1 0 0x21)) []).flagsPending = false := ⟨issues_of (by decide +kernel), by decide +kernel⟩
/-- A vector command of the strand has not completed. -/
theorem wit_SpecialRegisterReads_pending : let s := ready (.mfsr (fi 1 0 0x21)) []
    let t := s.setTile s.myTile { s.tile s.myTile with vecQ := [{ ctx := s.myKey, flags := 1 }] }
    t.Issues (.mfsr (fi 1 0 0x21)) ∧ t.cur.isTile = true ∧ t.flagsPending = true := ⟨issues_of (by decide +kernel), by decide +kernel, by decide +kernel⟩
theorem wit_SpecialRegisterWrites : ∀ n ∈ [0x005, 0x010, 0x014, 0x020, 0x022, 0x030, 0x037, 0x041, 0x050, 0x057],
    issues (.mtsr (fi 0 1 n)) (ready (.mtsr (fi 0 1 n)) []) = true := by decide +kernel
/-- Control core 0 in native mode. -/
def onCc (i : Instr) (regs : List (Nat × Nat)) : State :=
  let s := ready (.tagchk (fr 3 1 0 0)) []
  let s := s.probePage Core.agent0 (encode i)
  s.setMe { s.me with g := regs.foldl (fun m p => Tbl.set 0 m p.1 (w64 p.2)) [] }
where
  Core.agent0 : Nat := (Core.cc 0).agent
theorem wit_SpecialRegisterWrites_control : ∀ n ∈ [0x100, 0x104, 0x10C, 0x10D, 0x10E, 0x10F, 0x110],
    issues (.mtsr (fi 0 1 n)) (onCc (.mtsr (fi 0 1 n)) []) = true ∧ (onCc (.mtsr (fi 0 1 n)) []).cur = .cc 0 ∧
      ((onCc (.mtsr (fi 0 1 n)) []).cc 0).orphans = [] := by decide +kernel

-- Memory (R321 to R331)

theorem test_ld_scratchpad : reg 8 (after (.ld (fm 8 3 0x140)) [(3, own 0)] (put8 0x140 0x1122334455667788)) = some 0x1122334455667788 ∧
    reg 8 (after (.ld (fm 8 3 0x144 1)) [(3, own 0)] (put8 0x140 0x1122334455667788)) = some 0x3344 ∧
    reg 8 (after (.lds (fm 8 3 0x140 0)) [(3, own 0)] (put8 0x140 0x1122334455667788)) = some 0xFFFFFFFFFFFFFF88 := by decide +kernel
theorem test_ld_index : reg 8 (after (.ld { fm 8 3 8 3 0 5 with sc := 3 }) [(3, own 0), (5, 2)] (put8 0x18 9)) = some 9 := by decide +kernel
theorem test_ld_poison : trapOf (after (.ld (fm 5 3 0)) [(3, own 0x2000), (5, 7)] fun s => handled (s.setPoison (poolKey 0 0x2000 / 8) true)) =
    some (3, own 0x2000, 0x200000) ∧ reg 5 (after (.ld (fm 5 3 0)) [(3, own 0x2000), (5, 7)] fun s =>
      handled (s.setPoison (poolKey 0 0x2000 / 8) true)) = some 7 := by decide +kernel
/-- The page of the run holds FP16 elements (`PFMT` 3). -/
def halves (w : Nat) (s : State) : State :=
  let s : State := { s with tlb := s.tlb.map fun e => { e with leaf := e.leaf ||| 0x3000000000000000 } }
  s.storeWord 0x200010 8 w false
theorem test_ld_fp16 : reg 5 (after (.ld (fm 5 3 0x10 1)) [(3, 0x200000)] (halves 0xBE003E00)) = some 0x3FC00000 ∧
    reg 5 (after (.ld (fm 5 3 0x12 1)) [(3, 0x200000)] (halves 0xBE003E00)) = some 0xBFC00000 ∧
    reg 5 (after (.lds (fm 5 3 0x12 1)) [(3, 0x200000)] (halves 0xBE003E00)) = some 0xFFFFFFFFBFC00000 ∧
    reg 5 (after (.ld (fm 5 3 0x10 0)) [(3, 0x200000)] (halves 0xBE003E00)) = some 0 := by decide +kernel
theorem test_st_fp16 : (after (.st (fm 6 3 0x14 1)) [(3, 0x200000), (6, 0x3F800001)] (halves 0)).map (fun s => (Memory.read s.mem 0x200014 2, s.me.aflags)) =
      some (0x3C00, flInexact) ∧
    (after (.st (fm 6 3 0x14 1)) [(3, 0x200000), (6, 0x3F800001)] fun s => (halves 0 s).setMe { s.me with rm := 2 }).map (fun s => Memory.read s.mem 0x200014 2) =
      some 0x3C01 := by decide +kernel
theorem test_st_top_byte : (after (.st (fm 6 3 0 0)) [(3, own 0x147), (6, 0x1FF)] (put8 0x140 0)).map (fun s => Memory.read s.mem (poolKey 0 0x140) 8) =
    some 0xFF00000000000000 := by decide +kernel
theorem test_ldc_empties : (after (.ldc (fm 9 8 0 3 3)) [(8, own 0x40)] (put8 0x40 5)).map (fun s => (s.me.gReg 9, s.isEmpty (poolKey 0 0x40 / 8))) =
    some (5, true) := by decide +kernel
theorem test_misaligned : trapOf (after (.ld (fm 8 3 4)) [(3, own 0)] handled) = some (4, own 4, 0x200000) ∧
    trapOf (after (.ld (fm 8 3 0)) [(3, 0xFE00000000500000)] handled) = some (5, 0xFE00000000500000, 0x200000) := by decide +kernel
theorem test_atomics : (after (.amadd (fm 4 3 0x110)) [(3, own 0), (4, 7)] (put8 0x110 5)).map (fun s => (s.me.gReg 4, Memory.read s.mem (poolKey 0 0x110) 8)) =
      some (5, 12) ∧
    (after (.ammin (fm 4 3 0x110 2)) [(3, own 0), (4, 1)] (put8 0x110 0xFFFFFFFF)).map (fun s => (s.me.gReg 4, Memory.read s.mem (poolKey 0 0x110) 4)) =
      some (0xFFFFFFFF, 0xFFFFFFFF) ∧
    (after (.amminu (fm 4 3 0x110 2)) [(3, own 0), (4, 1)] (put8 0x110 0xFFFFFFFF)).map (fun s => Memory.read s.mem (poolKey 0 0x110) 4) = some 1 := by
  decide +kernel
theorem test_amcas : (after (.amcas (fm 4 3 0x110 3 0 5)) [(3, own 0), (4, 7), (5, 6)] (put8 0x110 5)).map (fun s => Memory.read s.mem (poolKey 0 0x110) 8) = some 5 ∧
    (after (.amcas (fm 4 3 0x110 3 0 5)) [(3, own 0), (4, 7), (5, 5)] (put8 0x110 5)).map (fun s => Memory.read s.mem (poolKey 0 0x110) 8) = some 7 ∧
    (after (.amswap (fm 4 3 0x110)) [(3, own 0), (4, 7)] (put8 0x110 5)).map (fun s => Memory.read s.mem (poolKey 0 0x110) 8) = some 7 := by decide +kernel
theorem test_fence : (after (.fence (fr 0 0 0 0 8)) []).map (fun s => s.me.pc.toNat) = some 0x200008 := by decide +kernel

/-- Operands on the scratchpad meet the hypotheses of the load and store results. -/
theorem wit_LoadResults : ∀ op ∈ [Instr.ld (fm 8 3 0x140), .lds (fm 8 3 0x140), .ldc (fm 8 3 0x140 3 3)],
    let s := put8 0x140 9 (ready op [(3, own 0)])
    issues op s = true ∧ (s.gReg 3 + 0x140).toNat % 8 = 0 ∧ s.ovlAt (s.gReg 3 + 0x140) = none ∧
      given (place (s.gReg 3 + 0x140) 8 .read s.atNpc) = some (.key (poolKey 0 0x140) none) ∧ hasFullBit (poolKey 0 0x140) = true ∧
      s.isEmpty (poolKey 0 0x140 / 8) = false ∧ (s.load (poolKey 0 0x140) 8).1.2 = false := by decide +kernel
/-- A page in FP16, at both ends of the first word. -/
theorem wit_LoadResults_page : ∀ off ∈ [0x10, 0x16], let op : Instr := .ld (fm 8 3 off 1)
    let s := halves 0xBE003E00 (ready op [(3, 0x200000)])
    issues op s = true ∧ s.ovlAt (w64 (0x200000 + off)) = none ∧
      given (place (w64 (0x200000 + off)) 2 .read s.atNpc) = some (.key (0x200000 + off) (some 3)) := by decide +kernel
theorem wit_StoreResults : ∀ o ∈ [0, 0xFF8], let op : Instr := .st (fm 8 3 o)
    let s := ready op [(3, own 0)]
    issues op s = true ∧ s.ovlAt (s.gReg 3 + w64 o) = none ∧ given (place (s.gReg 3 + w64 o) 8 .write (s.atNpc.source 8).2) = some (.key (poolKey 0 o) none) ∧
      poolKey 0 o % 8 = 0 := by decide +kernel
theorem wit_StoreResults_sync : let op : Instr := .st (fm 8 3 0x40 3 3)
    let s := (ready op [(3, own 0)]).setEmpty (poolKey 0 0x40 / 8) true
    issues op s = true ∧ s.isEmpty (poolKey 0 0x40 / 8) = true ∧ hasFullBit (poolKey 0 0x40) = true ∧ s.behindAny (.empty (poolKey 0 0x40 / 8)) = false := by
  decide +kernel
theorem wit_OwnScratchpadResolves : let s := ready popq []
    s.cur.isTile = true ∧ s.spadBytes s.myTile = 0x40000 ∧ s.heldSpad s.myTile 0x3FFF8 8 none = false ∧ 0x3FFF8 + 8 ≤ s.spadBytes s.myTile ∧
      s.pushedAt (.spad s.myTile 0x3FFF8 false) 8 = false ∧ s.elemAt s.myTile 0x3FFF8 8 = false ∧
      s.spadBytes s.myTile < 0x3FFF9 + 8 := by decide +kernel
theorem wit_AddressTraps : let op : Instr := .ld (fm 8 3 4)
    issues op (ready op [(3, own 0)]) = true ∧ (ready op [(3, own 0)]).window (w64 (own 4)) 8 = .ok (.spad 0 4 false) ∧
      issues op (ready op [(3, 0xFD00000000000000)]) = true ∧ (ready op [(3, 0xFD00000000000000)]).window 0xFD00000000000004 8 = .error 5 := by decide +kernel
theorem wit_AddressTraps_poison : let op : Instr := .amadd (fm 8 3 0x40)
    let s := handled ((ready op [(3, own 0)]).setPoison (poolKey 0 0x40 / 8) true)
    issues op s = true ∧ given (place (w64 (own 0x40)) 8 .atomic s.atNpc) = some (.key (poolKey 0 0x40) none) ∧ (s.load (poolKey 0 0x40) 8).1.2 = true ∧
      s.me.hasHandler = true := by decide +kernel
theorem wit_AtomicResults : ∀ op ∈ [Instr.amswap, .amadd, .amand, .amor, .amxor, .ammin, .ammax, .amminu, .ammaxu],
    issues (op (fm 8 3 0x40)) (ready (op (fm 8 3 0x40)) [(3, own 0)]) = true ∧
    given (place (w64 (own 0x40)) 8 .atomic (ready (op (fm 8 3 0x40)) [(3, own 0)]).atNpc) = some (.key (poolKey 0 0x40) none) := by
  intro op h
  simp only [List.mem_cons, List.not_mem_nil, or_false] at h
  rcases h with h | h | h | h | h | h | h | h | h <;> subst h <;> decide +kernel
theorem wit_AtomicResults_cas : let op : Instr := .amcas (fm 8 3 0x40 3 0 5)
    issues op (ready op [(3, own 0)]) = true ∧ given (place (w64 (own 0x40)) 8 .atomic (ready op [(3, own 0)]).atNpc) = some (.key (poolKey 0 0x40) none) := by
  decide +kernel
theorem wit_SyncAccessWaits : ∀ op ∈ [Instr.ld (fm 8 3 0x40 3 3), .lds (fm 8 3 0x40 3 3), .ldc (fm 8 3 0x40 3 3)],
    let s := (ready op [(3, own 0)]).setEmpty (poolKey 0 0x40 / 8) true
    issues op s = true ∧ s.ovlAt (w64 (own 0x40)) = none ∧ given (place (w64 (own 0x40)) 8 .read s.atNpc) = some (.key (poolKey 0 0x40) none) ∧
      s.isEmpty (poolKey 0 0x40 / 8) = true := by decide +kernel
theorem wit_SyncAccessWaits_store : let op : Instr := .st (fm 8 3 0x40 3 3)
    let s := ready op [(3, own 0)]
    issues op s = true ∧ given (place (w64 (own 0x40)) 8 .write (s.atNpc.source 8).2) = some (.key (poolKey 0 0x40) none) ∧
      s.isEmpty (poolKey 0 0x40 / 8) = false := by decide +kernel
/-- With an element of the strand's write stream pending. -/
theorem wit_SyncAccessWaits_stream : let op : Instr := .st (fm 8 3 0x40 3 3)
    let s := ready op [(3, own 0)]
    let t := s.setStrm 0 3 { pushed := [{ p := 0, v := 0, bad := false, ctx := s.myKey, rm := 0, launch := 1, x := 0 }] }
    issuing op t = true ∧ t.ownPushed = true ∧ (t.window (w64 (own 0x40)) 8).toOption.isSome = true := by decide +kernel
/-- One buffer record in the pool of records at the page of the run. -/
theorem wit_BufferRecordRead : let op : Instr := .lrec (fi 4 0 0)
    let s := ready op []
    let t := s.setLaunch s.me.launch { s.myLaunch with tmpl := setFld (setFld s.myLaunch.tmpl 191 128 0x200010) 223 192 1 }
    issues op t = true ∧ 0 < fld t.myLaunch.tmpl 223 192 ∧ given (readWords 0x200010 2 t.atNpc) = some [0, 0] ∧ issues op s = true ∧
      fld s.myLaunch.tmpl 223 192 = 0 := by decide +kernel

-- Barriers, rings, messages (R143 to R150, R164, R194, R332 to R339)

/-- A barrier at offset 0x100: phase 2, `n` arrivals due. -/
def barrier (n : Nat) (s : State) : State := s.setBar (poolKey 0 0x100)
  { phase := 2, arrivePend := n, err := 0, sectPend := 0, arriveInit := 4, sectInit := 0, waiters := 0 }
/-- A ring at offset 0x200: two slots of 64 bytes at 0x400, with these counts. -/
def ringAt (free filled : Nat) (s : State) : State :=
  put8 0x208 (free * 2 ^ 32 + filled * 2 ^ 48) (put8 0x200 (0x400 + 2 * 2 ^ 32 + 6 * 2 ^ 48) s)

theorem test_binit : (after (.binit (fr 0 6 2 7)) [(2, own 0x100), (6, 3), (7, 64)]).map (fun s => s.bar (poolKey 0 0x100)) =
    some { phase := 0, arrivePend := 3, err := 0, sectPend := 64, arriveInit := 3, sectInit := 64, waiters := 0 } := by decide +kernel
theorem test_barrive_last : (after (.barrive (fr 0 6 2 0)) [(2, own 0x100), (6, 1)] (barrier 1)).map (fun s => ((s.bar (poolKey 0 0x100)).phase,
    (s.bar (poolKey 0 0x100)).arrivePend)) = some (3, 4) ∧
    trapOf (after (.barrive (fr 0 6 2 0)) [(2, own 0x100), (6, 2)] fun s => handled (barrier 1 s)) = some (6, own 0x100, 0x200000) := by decide +kernel
theorem test_bexpect : (after (.bexpect (fr 0 6 2 0)) [(2, own 0x100), (6, 2 ^ 32 - 1)] (barrier 1)).map (fun s => (s.bar (poolKey 0 0x100)).sectPend) =
    some (2 ^ 32 - 1) := by decide +kernel
theorem test_bwait : (after (.bwait (fr 1 4 2 10)) [(2, own 0x100), (4, 1)] (barrier 1)).map (fun s => Tbl.get 0 s.myCore.k 1) = some (BitVec.allOnes 64) ∧
    (after (.bwait (fr 1 4 2 10)) [(2, own 0x100), (4, 2)] (barrier 1)).map (fun s => Tbl.get 0 s.myCore.k 1) = some 0 ∧
    (after (.bwait (fr 1 4 2 10)) [(2, own 0x100), (4, 2), (10, 5)] (barrier 1)).map (fun s => s.me.st) = some .blocked := by decide +kernel
theorem test_rings : reg 4 (after (.rclaim (fr 4 3 0 0)) [(3, own 0x200)] (ringAt 2 0)) = some (own 0x400) ∧
    (after (.rclaim (fr 4 3 0 0)) [(3, own 0x200)] (ringAt 0 2)).map (fun s => s.me.st) = some .blocked ∧
    reg 4 (after (.rtake (fr 4 3 0 0)) [(3, own 0x200)] (ringAt 1 1)) = some (own 0x400) ∧
    (after (.rgive (fr 0 3 0 0)) [(3, own 0x200)] (ringAt 0 1)).map (fun s => (s.ring (poolKey 0 0x200)).free) = some 1 := by decide +kernel
theorem test_qstat : reg 2 (after (.qstat (fr 2 0x30 0 0)) [] fun s => s.setMyOt { s.myOt with q := [(0, [1, 2, 3])] }) = some 0x0D03 := by decide +kernel
theorem test_sendm : (after (.sendm (fr 0 6 0 8)) [(6, 0xFE00000000000000), (8, 0x10000), (0, 9)]).map (fun s => s.msgs.map fun e => (e.2.payload, e.2.toA)) =
    some [([9], true)] := by decide +kernel
theorem test_mbarm : (after (.mbarm (fr 1 15 6 0)) [(15, 0x3000), (6, 0xFFF)] ).map (fun s => (Tbl.get 0 s.myCore.mbpc 1, Tbl.get 0 s.myCore.mbcfg 1)) =
    some (0x3000, 7) := by decide +kernel
/-- R194's example: for b = 2, keys 0 to 5 go to tiles 0, 2, 0, 3, 1 and 0. -/
theorem test_key_tiles : (List.range 6).map (fun k => (k * 0x9E3779B97F4A7C15 % 2 ^ 64) / 2 ^ 62) = [0, 2, 0, 3, 1, 0] ∧
    (List.range 6).map (fun k => keyHash (BitVec.ofNat 32 k) 2) = [0, 2, 0, 3, 1, 0] := by decide +kernel
theorem test_icinv : (after (.icinv (fr 0 3 4 0)) [(3, 0x200000), (4, 8)] fun s => s.setCore s.cur { s.myCore with
    icache := [{ pasid := 1, line := 0x8000, words := [] }, { pasid := 1, line := 0x8001, words := [] }] }).map (fun s => s.myCore.icache.map ILine.line) =
    some [0x8001] := by decide +kernel

/-- R282, R290, R332: `bwait k3, [g2], g4, g3!` frees g3, whose code is that of k3 as well; `cp` of its own tile's scratchpad under either name (R197). -/
theorem test_bwait_last_use : lastUse (.bwait { fr 3 4 2 3 with mc := 4 }) = (8, 0) ∧ intoOwn 5 0xFE00000000500040 = true ∧
    intoOwn 5 0xFF00000000000040 = true ∧ intoOwn 5 0xFE00000000600040 = false := by decide +kernel


/-- The barrier's place, as every barrier operation resolves it. -/
theorem wit_BarrierOperations : ∀ op ∈ [Instr.binit (fr 0 6 2 7), .barrive (fr 0 6 2 0), .bexpect (fr 0 6 2 0), .bwait (fr 1 6 2 7)],
    let s := handled (barrier 1 (ready op [(2, own 0x100), (6, 1)]))
    issues op s = true ∧ given (barPlace (s.gReg 2) .write s.atNpc) = some (poolKey 0 0x100) ∧ poolKey 0 0x100 % 16 = 0 ∧
      1 ≤ (s.bar (poolKey 0 0x100)).arrivePend ∧ (s.bar (poolKey 0 0x100)).phase = 2 ∧ s.me.await = .none := by decide +kernel
theorem wit_BarrierOperations_over : let s := handled (barrier 1 (ready (.barrive (fr 0 6 2 0)) [(2, own 0x100), (6, 2)]))
    issues (.barrive (fr 0 6 2 0)) s = true ∧ given (barPlace (s.gReg 2) .write s.atNpc) = some (poolKey 0 0x100) ∧
      (s.bar (poolKey 0 0x100)).arrivePend < 2 ∧ s.me.hasHandler = true := by decide +kernel
theorem wit_RingOperations : ∀ op ∈ [Instr.rclaim (fr 4 3 0 0), .rtake (fr 4 3 0 0), .rgive (fr 0 3 0 0)],
    let s := ringAt 1 0 (ready op [(3, own 0x200)])
    issues op s = true ∧ given (ringPlace (s.gReg 3) s.atNpc) = some (poolKey 0 0x200) ∧ (s.ring (poolKey 0 0x200)).free = 1 ∧
      (s.ringSt (poolKey 0 0x200)).waiting = [] := by decide +kernel
theorem wit_RingOperations_full : let s := ringAt 0 1 (ready (.rtake (fr 4 3 0 0)) [(3, own 0x200)])
    issues (.rtake (fr 4 3 0 0)) s = true ∧ (s.ring (poolKey 0 0x200)).filled = 1 ∧ (s.ring (poolKey 0 0x200)).free = 0 ∧
      s.behindAny (.ring (2 * poolKey 0 0x200 + 1)) = false := by decide +kernel
theorem wit_RingOperations_commit : let s := State.setRingSt (ringAt 1 0 (ready (.rcommit (fr 0 3 4 0)) [(3, own 0x200), (4, own 0x400)])) (poolKey 0 0x200) { claims := [(0, false)] }
    issues (.rcommit (fr 0 3 4 0)) s = true ∧ given (ringPlace (s.gReg 3) s.atNpc) = some (poolKey 0 0x200) ∧
      (s.ringSt (poolKey 0 0x200)).claims = [(0, false)] ∧ (s.ring (poolKey 0 0x200)).filled + 1 < 2 ^ 16 := by decide +kernel
theorem wit_FenceInvalidateStatus : issues (.fence (fr 0 0 0 0 8)) (ready (.fence (fr 0 0 0 0 8)) []) = true ∧
    issues (.qstat (fr 2 0x30 0 0)) (ready (.qstat (fr 2 0x30 0 0)) []) = true ∧ issues (.qstat (fr 2 0x34 0 0)) (ready (.qstat (fr 2 0x34 0 0)) []) = true ∧
    issues (.qstat (fr 2 0x37 0 0)) (ready (.qstat (fr 2 0x37 0 0)) []) = true ∧ issues (.icinv (fr 0 3 4 0)) (ready (.icinv (fr 0 3 4 0)) []) = true ∧
    (ready (.icinv (fr 0 3 4 0)) []).ownElems (fun _ => true) = false := by
  decide +kernel
/-- An element sent by the strand is on its way. -/
theorem wit_FenceInvalidateStatus_pending : let s := ready (.fence (fr 0 0 0 0)) []
    let t : State := { s with elems := [(1, { fromTile := 0, toTile := 0, base := 0, nb := 1, key := 0, val := 0, float := false, poison := false, launch := 1, ctx := some s.myKey })] }
    issuing (.fence (fr 0 0 0 0)) t = true ∧ t.cur.isTile = true ∧ t.elems.any (fun e => e.2.ctx = some t.myKey) = true := by decide +kernel
theorem wit_FenceInvalidateStatus_stream : let s := ready (.fence (fr 0 0 0 0)) []
    let t := s.setStrm 0 3 { pushed := [{ p := 0, v := 0, bad := false, ctx := s.myKey, rm := 0, launch := 1, x := 0 }] }
    issuing (.fence (fr 0 0 0 0)) t = true ∧ t.ownPushed = true := by decide +kernel
theorem wit_MessageSends : let s := ready (.sendm (fr 0 6 0 8)) [(6, 0xFE00000000000000), (8, 0xE0000)]
    issues (.sendm (fr 0 6 0 8)) s = true ∧ (∀ i, i < 14 → s.me.live.getLsbD i = true) ∧ s.myLaunch.covers 0 = true ∧ s.refusals s.myTile < 16 ∧
      (s.gReg 8).toNat / 2 ^ 16 % 16 = 14 ∧ (s.gReg 8).toNat / 2 ^ 20 = 0 := by decide +kernel
theorem wit_MessageSends_traps : begins (.sendm (fr 0 6 0 8)) (ready (.sendm (fr 0 6 0 8)) [(6, 0xFE00000000000000), (8, 0xF0000)]) = true ∧ (ready popq []).me.live.getLsbD 8 = true ∧
    issues (.mbarm (fr 1 15 6 0)) (ready (.mbarm (fr 1 15 6 0)) [(15, 0x3000)]) = true ∧
    issues (.mbarm (fr 1 15 6 0)) (ready (.mbarm (fr 1 15 6 0)) [(15, 0x3001)]) = true ∧
    issues (.mbarm (fr 1 15 6 0)) (ready (.mbarm (fr 1 15 6 0)) [(15, 0xFF00000000000000)]) = true ∧
    issues (.mbarm (fr 1 15 6 0)) (ready (.mbarm (fr 1 15 6 0)) [(6, 0x1000)]) = true := by decide +kernel
theorem wit_MessageSends_sendk : let s := ready (.sendk (fr 0 0x10 0x11 2 1)) [(2, 0x300)]
    s.Issues (.sendk (fr 0 0x10 0x11 2 1)) ∧ s.NoStream 0x10 ∧ s.NoStream 0x11 ∧ (subgroupOf s.myLaunch s.myTile 0).isSome = true ∧
      s.activeLanes 0 false &&& (s.atNpc.vsource 0x10).1.poison = 0 :=
  ⟨issues_of (by decide +kernel), Or.inr (by decide +kernel), Or.inr (by decide +kernel), by decide +kernel, by decide +kernel⟩

-- Vectors (R238, R341 to R363)

/-- Register f(n) set, lane 0 first. -/
def vset (n : Nat) (xs : List Nat) (s : State) : State := s.setF s.cur n (VReg.ofFn fun l => (BitVec.ofNat 32 (xs.getD l 0), false))
/-- The first lanes of f(n), and the poison of the register. -/
def lanesOf (n k : Nat) (s : Option State) : Option (List Nat × Nat) :=
  s.map fun s => ((List.range k).map fun l => ((s.myCore.fReg n).at l).toNat, (s.myCore.fReg n).poison.toNat)
/-- VL set. -/
def withVl (n : Nat) (s : State) : State := s.setMe { s.me with vl := n }
/-- A register bound to a stream of ten words read from the scratchpad, three of them fetched. -/
def stream (wr : Nat) (s : State) : State := s.setStrm s.myTile 24 {
  bound := true, esz := 4, fetched := [(0, 5, false), (1, 6, false), (2, 7, true)]
  desc := BitVec.ofNat 512 (own 0x1000 + 2 ^ 112 + 2 ^ 176 + 2 ^ 240 + 10 * 2 ^ 256 + wr * 2 ^ 288) }

theorem test_vadd : lanesOf 2 3 (after (.vadd (fr 0x12 0x10 0x11 0 9)) [] fun s => vset 1 [0x40000000, 0x80000000, 0x7F800000] (vset 0 [0x3F800000, 0x80000000, 0xFF800000] s)) =
    some ([0x40400000, 0x80000000, 0x7FC00000], 0) := by decide +kernel
theorem test_vadd_int : lanesOf 2 2 (after (.vadd { fr 0x12 0x10 0x11 0 3 with clamp := 3 }) [] fun s => vset 1 [1, 5] (vset 0 [0x7FFFFFFF, 0xFFFFFFFF] s)) =
    some ([0x7FFFFFFF, 4], 0) ∧
    lanesOf 2 1 (after (.vadd (fr 0x12 0x10 0x11 0 3)) [] fun s => vset 1 [1] (vset 0 [0x7FFFFFFF] s)) = some ([0x80000000], 0) := by decide +kernel
theorem test_vsub : lanesOf 2 2 (after (.vsub (fr 0x12 0x10 0x11 0 9)) [] fun s => vset 1 [0x3F800000, 0x40000000] (vset 0 [0x40400000, 0x40000000] s)) =
    some ([0x40000000, 0], 0) := by decide +kernel
theorem test_vmul_bf16 : lanesOf 2 1 (after (.vmul (fr 0x12 0x10 0x11 0 15)) [] fun s => vset 1 [0x40004000] (vset 0 [0x3F803FC0] s)) =
    some ([0x40004040], 0) := by decide +kernel
/-- One rounding: (1 + 2^-12)^2 - 1 keeps the 2^-24 that a rounded product would lose. -/
theorem test_vfma : lanesOf 3 1 (after (.vfma (fr 0x13 0x10 0x11 0x12 9)) [] fun s => vset 2 [0xBF800000] (vset 1 [0x3F800800] (vset 0 [0x3F800800] s))) =
    some ([0x3A000400], 0) := by decide +kernel
theorem test_vmin_vmax : lanesOf 2 2 (after (.vmin (fr 0x12 0x10 0x11 0 3)) [] fun s => vset 1 [1, 1] (vset 0 [0xFFFFFFFF, 2] s)) = some ([0xFFFFFFFF, 1], 0) ∧
    lanesOf 2 2 (after (.vmax (fr 0x12 0x10 0x11 0 4)) [] fun s => vset 1 [1, 1] (vset 0 [0xFFFFFFFF, 2] s)) = some ([0xFFFFFFFF, 2], 0) := by decide +kernel
theorem test_vdiv : lanesOf 2 2 (after (.vdiv (fr 0x12 0x10 0x11 0 3)) [] fun s => vset 1 [2, 0] (vset 0 [0xFFFFFFF9, 7] s)) =
    some ([0xFFFFFFFD, 0xFFFFFFFF], 0) := by decide +kernel
theorem test_vshifts : lanesOf 2 2 (after (.vshl (fr 0x12 0x10 0x11 0)) [] fun s => vset 1 [31, 32] (vset 0 [3, 3] s)) = some ([0x80000000, 0], 0) ∧
    lanesOf 2 2 (after (.vsra (fr 0x12 0x10 0x11 0)) [] fun s => vset 1 [4, 40] (vset 0 [0x80000000, 0x80000000] s)) = some ([0xF8000000, 0xFFFFFFFF], 0) := by
  decide +kernel
/-- A poisoned source lane poisons its result lane, and a lane past VL keeps its value. -/
theorem test_vxor_poison : lanesOf 2 3 (after (.vxor (fr 0x12 0x10 0x11 0)) [] fun s => withVl 2 (vset 2 [9, 9, 9] (vset 1 [3, 3, 3]
    (s.setF s.cur 0 { VReg.ofFn (fun _ => (5, false)) with poison := 2 })))) = some ([6, 0, 9], 2) := by decide +kernel
theorem test_vclt : (after (.vclt (fr 1 0x10 0x11 0 9)) [] fun s => withVl 3 (vset 1 [0, 0x3F800000, 0x7FC00000] (vset 0 [0x80000000, 0xBF800000, 0] s))).map
    (fun s => Tbl.get 0 s.myCore.k 1) = some 2 := by decide +kernel
theorem test_vsel : lanesOf 3 3 (after (.vsel (fr 0x13 0x14 0x15 2)) [] fun s => (vset 5 [7, 8, 9] (vset 4 [1, 2, 3] s)).setK 2 5) = some ([1, 8, 3], 0) := by
  decide +kernel
theorem test_vperm : lanesOf 2 3 (after (.vperm (fr 0x12 0x10 0x11 0)) [] fun s => vset 1 [2, 65, 0] (vset 0 [10, 11, 12] s)) = some ([12, 11, 10], 0) := by decide +kernel
theorem test_vext_vins : reg 4 (after (.vext (fr 4 0x10 5 0)) [(5, 66)] fun s => vset 0 [1, 2, 0xFFFFFFFF] s) = some 0xFFFFFFFF ∧
    lanesOf 2 3 (after (.vins (fr 0x12 4 5 0)) [(4, 2 ^ 32 + 7), (5, 1)] fun s => withVl 1 (vset 2 [9, 9, 9] s)) = some ([9, 7, 9], 0) := by decide +kernel
/-- R353's example: the tree gives 16777220 and the scan 16777216 in lane 4. -/
theorem test_vredsum_vscan : let s := fun s => withVl 5 (vset 2 [0x4B800000, 0x3F800000, 0x3F800000, 0x3F800000, 0x3F800000] s)
    lanesOf 3 1 (after (.vredsum (fr 0x13 0x12 0 0 9)) [] s) = some ([0x4B800002], 0) ∧
    (lanesOf 3 5 (after (.vscan (fr 0x13 0x12 0 0 9)) [] s)).map (fun r => r.1.getD 4 0) = some 0x4B800000 := by decide +kernel
theorem test_vredmin : lanesOf 3 1 (after (.vredmin (fr 0x13 0x12 0 0 3)) [] fun s => withVl 2 (vset 2 [5, 0xFFFFFFFE, 0x80000000] s)) = some ([0xFFFFFFFE], 0) := by
  decide +kernel
theorem test_kops : (after (.kxor (fr 1 0 3 0)) [] fun s => s.setK 3 5).map (fun s => Tbl.get 0 s.myCore.k 1) = some (~~~ 5) := by decide +kernel
/-- R250's example: a block of FP4 codes under base 120. -/
theorem test_block_fp4 : let r := (encodeBlock 0 .rne 120 ([2000, 640, 1280, 64].map (fun n => Ex.fin false n 0 false) ++ [Ex.fin true 384 0 false, .nan] ++
    List.replicate 10 (Ex.fin false 0 0 false)) {}).1
    r.2 = 15 ∧ r.1.take 3 = [7, 4, 6] ∧ r.1.getD 4 0 = 0xB ∧ r.1.drop 5 = List.replicate 11 0 := by decide +kernel
theorem test_vcvt : lanesOf 2 2 (after (.vcvt (fr 0x12 0x10 9 0 3)) [] fun s => vset 0 [0x40200000, 0xC0600000] s) = some ([2, 0xFFFFFFFC], 0) := by decide +kernel
theorem test_vgrant : (after (.vgrant (fr 5 4 0 0)) [(4, 100)]).map (fun s => ((s.me.gReg 5).toNat, s.me.vl)) = some (64, 64) ∧
    (after (.vgrant (fr 5 4 0 0)) [(4, 0)]).map (fun s => ((s.me.gReg 5).toNat, s.me.vl)) = some (0, 1) := by decide +kernel
theorem test_vld_vst : lanesOf 0 3 (after (.vld (fm 0x10 1 0 4)) [(1, own 0x100)] fun s => withVl 2 (put8 0x100 0x0000000200000001 (vset 0 [9, 9, 9] s))) = some ([1, 2, 9], 0) ∧
    (after (.vst (fm 0x10 1 0 4)) [(1, own 0x104)] fun s => withVl 1 (vset 0 [0xAABBCCDD, 1] s)).map (fun s => Memory.read s.mem (poolKey 0 0x100) 8) =
      some 0xAABBCCDD00000000 ∧
    trapOf (after (.vld (fm 0x10 1 2 4)) [(1, own 0)] handled) = some (4, own 2, 0x200000) := by decide +kernel
theorem test_vscat : (after (.vscat (fr 0 1 0x10 0x11)) [(1, own 0)] fun s => withVl 3 (vset 1 [1, 2, 3] (vset 0 [1, 0, 1] s))).map
    (fun s => Memory.read s.mem (poolKey 0 0) 8) = some 0x0000000300000002 := by decide +kernel
theorem test_stream_read : (after (.vmov (fr 0x10 0x28 0 0)) [] fun s => withVl 3 (stream 0 s)).map (fun s => ((s.strm 0 24).pos, ((s.myCore.fReg 0).at 1).toNat,
    (s.myCore.fReg 0).bad 2)) = some (3, 6, true) := by decide +kernel
theorem test_sstat : reg 4 (after (.sstat (fr 4 0x28 0 0)) [] fun s => stream 1 s) = some (2 ^ 41 + 2 ^ 42) := by decide +kernel

/-- An arithmetic form of FP32 in f2, on f0 and f1. -/
def vop : FmtR := fr 0x12 0x10 0x11 0 9

theorem wit_VectorLaneResults : ∀ op ∈ [Instr.vadd, .vsub, .vmul, .vmin, .vmax, .vdiv], issues (op vop) (ready (op vop) []) = true ∧
    (ready (op vop) []).vecEntries 0 = [] ∧ ((ready (op vop) []).tile 0).vecRun = none ∧ (ready (op vop) []).streaming 0 = false ∧ (ready (op vop) []).streaming 1 = false ∧
    (ready (op vop) []).streaming 2 = false := by
  intro op h
  simp only [List.mem_cons, List.not_mem_nil, or_false] at h
  rcases h with h | h | h | h | h | h <;> subst h <;> decide +kernel
/-- A full queue, a command that runs, and a queue with one place left in which another strand's command waits. -/
theorem wit_VectorLaneResults_waits : let s := ready (.vadd vop) []
    let f := s.setTile 0 { s.tile 0 with vecQ := [{ ctx := 0, flags := 0 }, { ctx := 0, flags := 0 }] }
    let r := s.setTile 0 { s.tile 0 with vecRun := some { ctx := 0, flags := 0 } }
    let w := (s.setTile 0 { s.tile 0 with vecQ := [{ ctx := ctxKey s.cur 1, flags := 0, stage := .own 7 }] }).setCtx (ctxKey s.cur 1) { s.me with line := some 7 }
    issues (.vadd vop) f = true ∧ (f.vecEntries 0).length = 2 ∧ issues (.vadd vop) r = true ∧ (r.vecEntries 0).length < 2 ∧ (r.tile 0).vecRun ≠ none ∧
      issues (.vadd vop) w = true ∧ (w.vecEntries 0).length = 1 ∧ vecTurn w = false := by decide +kernel
theorem wit_VectorLaneResults_logic : ∀ op ∈ [Instr.vand, .vor, .vxor, .vshl, .vshr, .vsra], issues (op { vop with dt := 0 }) (ready (op { vop with dt := 0 }) []) = true := by
  intro op h
  simp only [List.mem_cons, List.not_mem_nil, or_false] at h
  rcases h with h | h | h | h | h | h <;> subst h <;> decide +kernel
theorem wit_VectorLaneResults_vfma : issues (.vfma { vop with c := 0x13 }) (ready (.vfma { vop with c := 0x13 }) []) = true := by decide +kernel
theorem wit_VectorComparesAndPredicates : ∀ op ∈ [Instr.vceq, .vcne, .vclt, .vcle],
    let s := handled (vset 0 [1] (ready (op (fr 1 0x10 0x11 0 9)) []))
    let t := handled (s.setF s.cur 0 { VReg.ofFn (fun _ => (5, false)) with poison := 1 })
    issues (op (fr 1 0x10 0x11 0 9)) s = true ∧ vecTurn t = true ∧ (((s.atIssue (op (fr 1 0x10 0x11 0 9))).vsource 0x10).1.poison &&& s.activeLanes 0 false) = 0 ∧
      issues (op (fr 1 0x10 0x11 0 9)) t = true ∧ (((t.atIssue (op (fr 1 0x10 0x11 0 9))).vsource 0x10).1.poison &&& t.activeLanes 0 false).getLsbD 0 = true ∧ t.me.hasHandler = true := by
  intro op h
  simp only [List.mem_cons, List.not_mem_nil, or_false] at h
  rcases h with h | h | h | h <;> subst h <;> decide +kernel
theorem wit_VectorComparesAndPredicates_k : issues (.kand (fr 1 0 3 0)) (ready (.kand (fr 1 0 3 0)) []) = true ∧
    issues (.kor (fr 1 0 3 0)) (ready (.kor (fr 1 0 3 0)) []) = true ∧ issues (.kxor (fr 1 0 3 0)) (ready (.kxor (fr 1 0 3 0)) []) = true ∧
    issues (.knot (fr 1 3 0 0)) (ready (.knot (fr 1 3 0 0)) []) = true := by decide +kernel
theorem wit_VectorMoves : issues (.vsel (fr 0x13 0x14 0x15 2)) (ready (.vsel (fr 0x13 0x14 0x15 2)) []) = true ∧
    issues (.vperm (fr 0x12 0x10 0x11 0)) (ready (.vperm (fr 0x12 0x10 0x11 0)) []) = true ∧
    issues (.vbcast (fr 0x12 4 0 0)) (ready (.vbcast (fr 0x12 4 0 0)) []) = true ∧
    issues (.vins (fr 0x12 4 5 0)) (ready (.vins (fr 0x12 4 5 0)) []) = true ∧
    issues (.vmov (fr 0x12 0x10 0 0)) (ready (.vmov (fr 0x12 0x10 0 0)) []) = true := by decide +kernel
theorem wit_VectorMoves_vext : let s := ready (.vext (fr 4 0x10 5 0)) []
    issues (.vext (fr 4 0x10 5 0)) s = true ∧ ((s.atIssue (.vext (fr 4 0x10 5 0))).vsource 0x10).1.bad 0 = false ∧
      ((s.setF s.cur 0 { VReg.ofFn (fun _ => (5, false)) with poison := 1 }).atNpc.vsource 0x10).1.bad 0 = true := by decide +kernel
theorem wit_VectorFunctionsAndConversions : ∀ op ∈ [Instr.vexp2, .vlog2, .vrcp, .vrsqrt, .vsqrt], issues (op (fr 0x12 0x10 0 0 9)) (ready (op (fr 0x12 0x10 0 0 9)) []) = true ∧
    issues (op (fr 0x12 0x10 0 0 15)) (ready (op (fr 0x12 0x10 0 0 15)) []) = true := by
  intro op h
  simp only [List.mem_cons, List.not_mem_nil, or_false] at h
  rcases h with h | h | h | h | h <;> subst h <;> decide +kernel
/-- To an integer, to a pair of BF16 halves, and to FP4 blocks. -/
theorem wit_VectorFunctionsAndConversions_vcvt : issues (.vcvt (fr 0x12 0x10 9 0 3)) (ready (.vcvt (fr 0x12 0x10 9 0 3)) []) = true ∧
    issues (.vcvt (fr 0x12 0x10 9 0x13 15)) (ready (.vcvt (fr 0x12 0x10 9 0x13 15)) []) = true ∧
    issues (.vcvt (fr 0x12 0x10 9 9 14)) (ready (.vcvt (fr 0x12 0x10 9 9 14)) [(9, 120)]) = true ∧ blockType 14 = true := by decide +kernel
theorem wit_VectorReductions : ∀ op ∈ [Instr.vredsum, .vredmax, .vredmin, .vscan],
    (∀ dt ∈ [3, 4, 9], issues (op (fr 0x13 0x12 0 0 dt)) (ready (op (fr 0x13 0x12 0 0 dt)) []) = true) ∧ (ready (op (fr 0x13 0x12 0 0 9)) []).me.vl = 64 := by
  intro op h
  simp only [List.mem_cons, List.not_mem_nil, or_false] at h
  rcases h with h | h | h | h <;> subst h <;> decide +kernel
theorem wit_VectorMemory : let s := withVl 2 (ready (.vld (fm 0x10 1 0 4)) [(1, own 0x100)])
    issues (.vld (fm 0x10 1 0 4)) s = true ∧ issues (.vst (fm 0x10 1 0 4)) s = true ∧ given (vecElem 3 (w64 (own 0x100)) .read s.atNpc) = some 4 ∧
      given (vecElem 3 (w64 (own 0x100)) .write (s.atNpc.vsource 0x10).2) = some 4 ∧ s.activeLanes 0 false = 3 ∧
      given (checkAddr (w64 (own 0x104)) 4 s.atNpc) = some () ∧ (given (loadLanes 3 4 (fun l => w64 (own 0x100) + w64 (4 * l)) [] (s.atIssue (.vld (fm 0x10 1 0 4))))).isSome = true ∧
      let V := (s.atIssue (.vst (fm 0x10 1 0 4))).vsource 0x10
      given (storeLanes 3 4 (fun l => w64 (own 0x100) + w64 (4 * l)) [V.1] V.1 V.2) = some none := by decide +kernel
theorem wit_VectorMemory_spad : let s := ready (.vld (fm 0x10 1 0 4)) [(1, own 0x100)]
    s.cur.isTile = true ∧ 0x100 + 256 ≤ s.spadBytes s.myTile ∧ (List.range 64).all (fun l => !s.heldSpad s.myTile (0x100 + 4 * l) 4 none) = true ∧
      (List.range 64).all (fun l => !s.pushedAt (.spad s.myTile (0x100 + 4 * l) false) 4 && !s.elemAt s.myTile (0x100 + 4 * l) 4) = true ∧
      s.me.data = [] ∧ s.me.lanes = 0 ∧ s.soft = [] ∧ s.hard = [] ∧ (s.atNpc.vsource 0x10).1.poison = 0 := by decide +kernel
theorem wit_VectorMemory_indexed : let s := withVl 2 (ready (.vgath (fr 0x12 1 0x10 0)) [(1, own 0)])
    issues (.vgath (fr 0x12 1 0x10 0)) s = true ∧ issues (.vscat (fr 0 1 0x10 0x11)) s = true ∧ s.activeLanes 0 false = 3 ∧
      given (pageFmt (w64 (own 0)) .read (s.atNpc.vsource 0x10).2) = some none ∧ given (checkAddr (w64 (own 0)) 4 s.atNpc) = some () := by decide +kernel
/-- With an index that is poisoned, and with no lane active. -/
theorem wit_VectorMemory_poison : let s := handled (withVl 2 (ready (.vscat (fr 0 1 0x10 0x11)) [(1, own 0)]))
    let t := s.setF s.cur 0 { VReg.ofFn (fun _ => (0, false)) with poison := 1 }
    issues (.vscat (fr 0 1 0x10 0x11)) t = true ∧ (t.activeLanes 0 false &&& (t.atNpc.vsource 0x10).1.poison).getLsbD 0 = true ∧ t.me.hasHandler = true ∧
      issues (.vgath { fr 0x12 1 0x10 0 with pk := 1 }) s = true ∧ s.activeLanes 1 false = 0 := by decide +kernel

/-- A stream descriptor at 0x100: `n` elements of the words at 0x1000, in one direction. -/
def descAt (n dir : Nat) (s : State) : State :=
  put8 0x120 (n + dir * 2 ^ 32) (put8 0x118 (2 ^ 48) (put8 0x110 (2 ^ 48) (put8 0x108 (2 ^ 48) (put8 0x100 (own 0x1000) s))))
theorem test_sbind : (after (.sbind (fr 0x28 3 0 0)) [(3, own 0x100)] fun s => descAt 10 0 s).map (fun s => ((s.strm 0 24).bound, (s.strm 0 24).esz, (s.strm 0 24).pos)) =
    some (true, 4, 0) ∧
    trapOf (after (.sbind (fr 0x28 3 0 0)) [(3, own 0x100)] fun s => handled (descAt 0 0 s)) = some (9, 1, 0x200000) := by decide +kernel

theorem wit_StreamRegisters : let s := ready (.sbind (fr 0x28 3 0 0)) [(3, own 0x100)]
    issues (.sbind (fr 0x28 3 0 0)) s = true ∧ vecTurn s = true ∧ s.streaming 24 = false ∧ (s.window (w64 (own 0x100)) 64).toOption.isSome = true ∧
      (given ((List.range 8).mapM (fun i => keeping (readM (w64 (own 0x100) + w64 (8 * i)) 8)) (descAt 10 0 s).atNpc)).map (fun ws => ws.all fun w => w.2 = false) =
        some true := by decide +kernel
theorem wit_StreamRegisters_unbind : let s := stream 0 (ready (.sunbind (fr 0x28 0 0 0)) [])
    issues (.sunbind (fr 0x28 0 0 0)) s = true ∧ s.streaming 24 = true ∧ vecTurn s = true ∧ (s.strm s.myTile 24).pushed = [] ∧ (s.strm s.myTile 24).fault = false ∧
      issues (.sunbind (fr 0x28 0 0 0)) (ready (.sunbind (fr 0x28 0 0 0)) []) = true ∧ issues (.sstat (fr 4 0x28 0 0)) s = true ∧
      issues (.vgrant (fr 5 4 0 0)) s = true := by decide +kernel
theorem wit_StreamRegisters_fault : let s := stream 0 (ready (.sunbind (fr 0x28 0 0 0)) [])
    let t := handled (s.setStrm s.myTile 24 { s.strm s.myTile 24 with fault := true })
    issues (.sunbind (fr 0x28 0 0 0)) t = true ∧ t.streaming 24 = true ∧ (t.strm t.myTile 24).fault = true ∧ t.me.hasHandler = true := by decide +kernel
/-- A window read of three elements, and a window written. -/
theorem wit_StreamRegisters_windows : let s := withVl 3 (stream 0 (ready (.vmov (fr 0x10 0x28 0 0)) []))
    let t := withVl 3 (stream 1 (ready (.vmov (fr 0x28 0x10 0 0)) []))
    issues (.vmov (fr 0x10 0x28 0 0)) s = true ∧ s.streaming 24 = true ∧ s.streaming 0 = false ∧
      (List.range 3).all (fun l => (s.strm s.myTile 24).fetched.any fun e => e.1 = l) = true ∧
      issues (.vmov (fr 0x28 0x10 0 0)) t = true ∧ t.streaming 24 = true ∧ t.streaming 0 = false ∧ vecTurn s = true ∧ vecTurn t = true ∧
      (List.range 3).all (fun p => (t.window ((t.strm t.myTile 24).addr p) 4).toOption.isSome && ((t.strm t.myTile 24).addr p).toNat % 4 = 0) = true := by decide +kernel

-- The engines of a tile (R224, R236, R253 to R260, R365 to R381)

/-- Tile 0 changed. -/
def onTile0 (f : Tile → Tile) (s : State) : State := s.setTile 0 (f (s.tile 0))
/-- A machine that serves, about to take the step of its own `i` with this input. -/
def own' (inp : Input) (f : State → State := id) : State := let s := f (ready popq []); { s with inp := inp }
/-- What that step leaves. -/
def own'' (i : Instr) (inp : Input) (f : State → State := id) : Option State := answer (exec i (own' inp f))

/-- INT8, two rows of two columns. -/
def cfg22 : Word := 0x07000101
/-- The captured `tld` of those rows into t1, from 0x100 with stride 8. -/
def load22 : LoadCmd := {
  kind := .tld, reg := 1, cfg := cfg22, a := w64 (own 0x100), b := 8, base := 0, mode := 1, filt := false, ctl := 0, launch := 1, pasid := 1, ctx := 0
  rows := [0, 1] }
def tldIn (a b : Nat) (cfg : Word := cfg22) (f : State → State := id) : State :=
  f (onTile0 (fun t => { t with tcfg := Tbl.set 0 t.tcfg 1 cfg }) (ready (.tld (fe 0x39 4 6 0)) [(4, a), (6, b)]))

theorem test_tld : ((answer (exec (.tld (fe 0x39 4 6 0)) (tldIn (own 0x100) 8))).map fun s => (s.tile 0).loadQ.map fun c => (c.reg, c.cfg, c.a, c.rows)) =
    some [(1, cfg22, w64 (own 0x100), [0, 1])] ∧
    trapOf (answer (exec (.tld (fe 0x39 4 6 0)) (tldIn (own 0x100) 8 0 handled))) = some (9, 1, 0x200000) := by decide +kernel
theorem test_tldx : ((after (.tldx (fe 0x38 8 5 0)) [(8, own 0x1000), (5, own 0x100)] (onTile0 fun t => { t with tcfg := Tbl.set 0 t.tcfg 0 cfg22 })).map fun s =>
    (s.tile 0).loadQ.map fun c => (c.a, c.b)) = some [(w64 (own 0x1000), w64 (own 0x100))] := by decide +kernel
/-- INT8 bytes are signed (R243, R367). -/
theorem test_row_arrival : ((own'' .tileLoadRowArrival { n := 0, m := 0 } fun s => put8 0x100 0x80FF (onTile0 (fun t => { t with loadQ := [{ load22 with started := true }] }) s)).map
    fun s => (Tbl.get 0 (s.treg 0 1).elem 0, Tbl.get 0 (s.treg 0 1).elem 1, (s.tile 0).loadQ.map LoadCmd.rows)) = some (-1, -128, [[1]]) := by decide +kernel
theorem test_tile_load_start : ((own'' .engineCommandStart { n := 0, engine := .load } (onTile0 fun t => { t with loadQ := [load22] })).map fun s =>
    ((s.treg 0 1).sem, (s.tile 0).loadQ.map LoadCmd.started)) = some (.loading, [true]) := by decide +kernel
/-- The log entry of R381's example: column 0 of row 16 of t1, taken as zero. -/
theorem test_accerr : reg 4 (after (.accerr (fe 4 0 0 0)) [] (onTile0 fun t => { t with errlog := [0x8000000000901000], lost := 2 })) = some 0x8000020000901000 := by
  decide +kernel
/-- R380's example: anchored at 252. -/
theorem test_accstat : reg 4 (after (.accstat (fe 4 0x00 0 0 8)) [] (onTile0 fun t => { t with acc := Tbl.set {} t.acc 0 { anchor := 252, anchored := true } })) =
    some 0x2FC := by decide +kernel
theorem test_mma : ((after (.mma (fe 0 0x38 0x39 0)) [] (onTile0 fun t => { t with tcfg := [(0, 0x07001F01), (1, 0x07003F1F)] })).map fun s =>
    (s.tile 0).matQ.map fun c => ([c.ta, c.tb, c.acc], c.pairs)) = some [([0, 1, 0], [(0, 0)])] := by decide +kernel
theorem test_accrd_blocks : ((after (.accrd (fe 0x14 2 3 0 0x90)) [(3, 1)]).map fun s => (s.me.st, (s.tile 0).matQ.map fun c => (c.acc, c.row, c.ty))) =
    some (.blocked, [(2, 1, 9)]) := by decide +kernel

theorem wit_TileLoadCommands : let s := tldIn (own 0x100) 8
    issues (.tld (fe 0x39 4 6 0)) s = true ∧ s.cur.isTile = true ∧ (s.tile s.myTile).loadQ = [] ∧ cfgOk cfg22 = true ∧ cfgOk 0 = false ∧ cfgRows cfg22 = 2 ∧
      (s.window (w64 (own 0x100)) 2).toOption.isSome = true ∧ (s.window (w64 (own 0x108)) 2).toOption.isSome = true ∧ cfgBsrc cfg22 = false ∧
      cfgRaw cfg22 = 2 ∧ cfgStore cfg22 = 2 := by decide +kernel
/-- A configuration whose base the load gives, of FP16: with a base register, without one, and misaligned. -/
theorem wit_TileLoadCommands_base : let c : Word := 0x8B021F3F
    cfgOk c = true ∧ cfgBsrc c = true ∧ fmtBytes (cfgFmt c) = 2 ∧ issues (.tld (fe 0x39 4 6 7 8)) (tldIn (own 0x100) 64 c) = true ∧
      issues (.tld (fe 0x39 4 6 0)) (tldIn (own 0x101) 64 c) = true ∧ ((tldIn (own 0x101) 64 c).window (w64 (own 0x101)) (cfgRaw c)).toOption.isSome = true ∧
      ((tldIn (own 0x100) 65 c).window (w64 (own 0x100) + w64 63 * 65) (cfgRaw c)).toOption.isSome = true := by decide +kernel
theorem wit_TileLoadCommands_full : let s := onTile0 (fun t => { t with loadQ := [load22, load22] }) (tldIn (own 0x100) 8)
    issues (.tld (fe 0x39 4 6 0)) s = true ∧ ((s.tile s.myTile).loadQ.filter fun c => !c.started).length = 2 := by decide +kernel
theorem wit_TileLoadCommands_tldx : let s := onTile0 (fun t => { t with tcfg := Tbl.set 0 t.tcfg 0 cfg22 }) (ready (.tldx (fe 0x38 8 5 0)) [(8, own 0x1000), (5, own 0x100)])
    issues (.tldx (fe 0x38 8 5 0)) s = true ∧ (fe 0x38 8 5 0).cb 4 4 = 0 ∧ (s.window (w64 (own 0x100)) 8).toOption.isSome = true ∧
      (own 0x100) / 2 ^ 20 = 0xFF000000000 := by decide +kernel
theorem wit_TileLoadCommands_subgroup : let x := fe 0x38 8 5 7 0x10
    let s := onTile0 (fun t => { t with tcfg := Tbl.set 0 t.tcfg 0 cfg22 }) (ready (.tldx x) [(8, 0x1000), (5, own 0x100), (7, 0x40000)])
    issues (.tldx x) s = true ∧ x.cb 4 4 = 1 ∧ (subgroupOf s.myLaunch s.myTile ((s.gReg 7).toNat % 64)).isSome = true ∧
      (s.gReg 7).toNat / 2 ^ 16 % 2 ^ 16 = 4 ∧ (s.gReg 7).toNat / 64 % 4 = 0 ∧ (s.gReg 7).toNat / 2 ^ 52 = 0 := by decide +kernel
theorem wit_TileLoadCommands_tst : let s := onTile0 (fun t => { t with tcfg := Tbl.set 0 t.tcfg 1 cfg22 }) (ready (.tst (fe 0 4 6 0x39)) [(4, own 0x100), (6, 8)])
    issues (.tst (fe 0 4 6 0x39)) s = true ∧ Tbl.get 0 (s.tile s.myTile).tcfg 1 = cfg22 := by decide +kernel

/-- The configurations of R366's example in t0 and t1. -/
def shaped (s : State) : State := onTile0 (fun t => { t with tcfg := [(0, 0x07001F01), (1, 0x07003F1F)] }) s
theorem wit_MatrixCommands : let s := shaped (ready (.mma (fe 0 0x38 0x39 0)) [])
    issues (.mma (fe 0 0x38 0x39 0)) s = true ∧ (s.tile s.myTile).matQ = [] ∧ cfgOk 0x07001F01 = true ∧ cfgOk 0x07003F1F = true ∧ cfgCols 0x07001F01 ≤ 32 ∧
      cfgRows 0x07003F1F ≤ 32 ∧ s.service ≠ .reduced ∧ issues (.mma (fe 0 0x39 0x38 0)) s = true ∧ 32 < cfgCols 0x07003F1F ∧
      issues (.mmal (fe 0 0x38 0x39 0)) s = true ∧ issues (.mmal (fe 0 0x38 0x39 0 1)) s = true ∧ max 1 (limbsOf (cfgFmt 0x07001F01)) = 1 := by decide +kernel
theorem wit_MatrixCommands_writes : let s := ready (.accwb (fe 0 8 9 0 0x60)) [(8, own 0x100), (9, 2)]
    issues (.accwb (fe 0 8 9 0 0x60)) s = true ∧ wbWidth 3 16 = 256 ∧ (s.window (w64 (own 0x100)) 256).toOption.isSome = true ∧
      (s.window (w64 (own 0x200)) 256).toOption.isSome = true ∧ blockType 3 = false ∧ issues (.accz (fe 0 0 0 0)) (ready (.accz (fe 0 0 0 0)) []) = true ∧
      issues (.accwb (fe 0 8 9 0 0x1C0)) s = true ∧ blockType 14 = true := by decide +kernel
theorem wit_MatrixCommands_reads : let s := ready (.accrd (fe 0x14 2 3 0 0x90)) [(3, 1)]
    issues (.accrd (fe 0x14 2 3 0 0x90)) s = true ∧ s.cur.isTile = true ∧ s.me.await = .none ∧ issues (.accrd (fe 0x14 2 3 0 0x98)) s = true ∧
      s.streaming 4 = false ∧ issues (.accstat (fe 4 0 0 0)) s = true ∧ issues (.accstat (fe 4 0 0 0 8)) s = true ∧ issues (.accerr (fe 4 0 0 0)) s = true := by decide +kernel
theorem wit_MatrixCommands_done : let s := ready (.accstat (fe 4 0 0 0)) []
    let t := s.setMe { s.me with await := .matrix 5 (some 7), waitAt := some (.accstat (fe 4 0 0 0)) }
    issues (.accstat (fe 4 0 0 0)) t = true ∧ t.me.await = .matrix 5 (some 7) := by decide +kernel
theorem wit_MatrixCommands_full : let s := onTile0 (fun t => { t with matQ := [{ id := 1, kind := .accz, acc := 0 }, { id := 2, kind := .accz, acc := 0 }] }) (ready (.accz (fe 0 0 0 0)) [])
    issues (.accz (fe 0 0 0 0)) s = true ∧ (s.tile s.myTile).matQ.length = 2 := by decide +kernel

/-- A product of t0 and t1 into accumulator 0. -/
def product : MatCmd := { id := 1, kind := .mma, acc := 0, ta := 0, tb := 1, cfga := 0x07001F01, cfgb := 0x07003F1F, pairs := [(0, 0)] }
theorem wit_EngineEvents_starts : let v := own' { n := 0, engine := .vector } (onTile0 fun t => { t with vecQ := [{ ctx := 0, flags := 1 }] })
    let m := own' { n := 0, engine := .matrix } (onTile0 fun t => { t with matQ := [product], treg := [(0, { sem := .full }), (1, { sem := .full })] })
    let l := own' { n := 0, engine := .load } (onTile0 fun t => { t with loadQ := [load22] })
    v.serving = true ∧ (v.tile 0).vecRun = none ∧ m.serving = true ∧ (m.tile 0).matRun = none ∧ (m.treg 0 0).sem = .full ∧ (m.treg 0 1).sem = .full ∧
      l.serving = true ∧ (l.treg 0 1).sem = .empty := by decide +kernel
theorem wit_EngineEvents_copy_start : let s := own' { n := 0, engine := .copy } fun s => (onTile0 (fun t => { t with copyQ := [5] }) s).setCopy 5 { engine := .tile 0, origin := .tile 1 0, pasid := 1 }
    let t := s.setCopy 5 { s.copy 5 with st := .aborting }
    t.serving = true ∧ (t.tile 0).copyQ = [5] ∧ (t.copy 5).st ≠ .queued ∧ (s.copy 5).st = .queued ∧ (s.copy 5).drained = false ∧ s.serving = true ∧ (s.tile 0).copyQ = [5] ∧ s.engineActive 0 < 4 ∧ s.claimWaits 0 = false := by decide +kernel
theorem wit_EngineEvents_index : let s := own' { n := 0, engine := .load } (onTile0 fun t => { t with loadQ := [{ load22 with kind := .tldx, b := w64 (own 0x400) }] })
    s.serving = true ∧ (s.treg 0 1).sem = .empty ∧ s.heldSpad 0 0x400 8 none = false ∧ (s.loadParts [(poolKey 0 0x400, 8, none)]).1.all (fun b => !b.2) = true := by
  decide +kernel
theorem wit_EngineEvents_row : let s := own' { n := 0, m := 0 } (onTile0 fun t => { t with loadQ := [{ load22 with started := true }] })
    s.serving = true ∧ (s.tile 0).loadQ = [{ load22 with started := true }] ∧ cfgOk load22.cfg = true ∧ ({ load22 with started := true } : LoadCmd).mayIssue 0 = true ∧
      ({ load22 with started := true } : LoadCmd).mayIssue 1 = false ∧ blockType (cfgFmt load22.cfg) = false ∧
      (s.engAccess 0 0 true 1 (load22.a + 0 * load22.b) 2 .read (loadWork 0 load22.id)).1 = .ok [(poolKey 0 0x100, 2, none)] := by decide +kernel
/-- A row of 32 FP4 elements on a page of that format, one off its blocks, and a page of another kind. -/
theorem wit_EngineEvents_block_row : let c : LoadCmd := { load22 with cfg := 0x0E021F00, a := probeVa, rows := [0], started := true }
    let s := own' { n := 0, m := 0 } fun s => halves 0 (onTile0 (fun t => { t with loadQ := [c] }) s)
    let t : State := { s with tlb := s.tlb.map fun e => { e with leaf := e.leaf + 0x3000000000000000 } }
    s.serving = true ∧ cfgOk c.cfg = true ∧ blockType (cfgFmt c.cfg) = true ∧ pageOf (cfgFmt c.cfg) = some 6 ∧ c.mayIssue 0 = true ∧
      (s.pageBlock 0 1 c.a).1.map Prod.fst = some 3 ∧ (t.pageBlock 0 1 c.a).1 = some (6, 32) ∧
      blockSpan 14 32 32 32 0 = some ((0, 16), (0xE000, 1)) ∧ blockSpan 14 32 32 32 16 = none ∧
      (t.engAccess 0 0 true 1 c.a 16 .read (loadWork 0 c.id)).1 = .ok [(probeVa.toNat, 16, some 6)] ∧
      (t.engAccess 0 0 true 1 (c.a + 0xE000) 1 .read (loadWork 0 c.id)).1 = .ok [(probeVa.toNat + 0xE000, 1, some 6)] := by decide +kernel
theorem wit_EngineEvents_indexed_row : let c : LoadCmd := { load22 with kind := .tldx, started := true, index := [(0, 3)], b := w64 (own 0x400) }
    let s := own' { n := 0, m := 0 } (onTile0 fun t => { t with loadQ := [c] })
    s.serving = true ∧ c.mayIssue 0 = true ∧ (c.a.toNat + Tbl.get 0 c.index 0 * 2) / 2 ^ 20 = 0xFF000000000 ∧ s.heldSpad 0 0x106 2 none = false ∧ 0x108 ≤ s.spadBytes 0 := by decide +kernel
theorem wit_EngineEvents_subgroup_row : let c : LoadCmd := { load22 with kind := .tldxsg, a := 0x1000, filt := true, ctl := 0x40000, started := true, index := [(0, 2)], b := w64 (own 0x400) }
    let s := own' { n := 0, m := 0 } (onTile0 fun t => { t with loadQ := [c] })
    s.serving = true ∧ c.mayIssue 0 = true ∧ subgroupOf (s.launch 1) 0 63 = none ∧ (subgroupOf (s.launch 1) 0 0).isSome = true ∧ (subgroupOf (s.launch 1) 0 0).map (fun g => (g.size, g.tileOf 0)) = some (1, 0) ∧
      s.heldSpad 0 0x1004 2 none = false ∧ s.heldSpad 0 2 1 none = false ∧ (s.byte (poolKey 0 2)).toNat = 0 := by decide +kernel
theorem wit_EngineEvents_store_row : let c : LoadCmd := { load22 with kind := .tst, started := true }
    let s := own' { n := 0, m := 0 } (onTile0 fun t => { t with loadQ := [c] })
    s.serving = true ∧ c.mayIssue 0 = true ∧ c.rows.head? = some 0 ∧ ({ c with rows := [1, 0], issued := 2 } : LoadCmd).mayIssue 0 = true ∧ (s.engAccess 0 0 true 1 (c.a + 0 * c.b) (cfgStore c.cfg) .write (loadWork 0 c.id)).1 = .ok [(poolKey 0 0x100, 2, none)] := by decide +kernel
theorem wit_EngineEvents_running : let s := own' { n := 0 } (onTile0 fun t => { t with matRun := some product, vecRun := some { ctx := 0, flags := 1 } })
    s.serving = true ∧ (s.tile 0).matRun = some product ∧ product.pairs = [(0, 0)] ∧ (s.tile 0).vecRun = some { ctx := 0, flags := 1 } := by decide +kernel
theorem wit_EngineEvents_writeback : let c : MatCmd := { id := 1, kind := .accwb, acc := 0, row := 1, rows := [0], ty := 3, mode := 1, addr := w64 (own 0x100), launch := 1, pasid := 1 }
    let s := own' { n := 0 } (onTile0 fun t => { t with matRun := some c })
    s.serving = true ∧ (s.tile 0).matRun = some c ∧ c.ticket = none ∧ (s.acc 0 0).bad = [] ∧
      (s.engAccess 0 0 false 1 c.addr (wbWidth 3 16) .write (matWork 0 c.id)).1 = .ok [(poolKey 0 0x100, 256, none)] := by decide +kernel
theorem wit_EngineEvents_stream : let s := own' { n := 0, m := 24 } fun s => (stream 0 s).setStrm 0 24 { (stream 0 s).strm 0 24 with launch := 1 }
    let w := own' { n := 0, m := 24 } (stream 1)
    s.serving = true ∧ (s.strm 0 24).bound = true ∧ (s.strm 0 24).fetched.length < prefetchSize (tmplPart (s.launch (s.strm 0 24).launch).tmpl) ∧
      (s.fetchElem 0 24).1 = some (0, false) ∧ w.serving = true ∧ (w.strm 0 24).bound = true ∧ fld (w.strm 0 24).desc 288 288 = 1 := by decide +kernel

-- Copies, gathers and experts (R126 to R154, R179 to R196, R383 to R400)

/-- A copy of `n` elements in a row. -/
def cpT (src dst n esz : Nat) : BitVec 512 :=
  BitVec.ofNat 512 (src + dst * 2 ^ 64 + 2 ^ 256 + 2 ^ 272 + n * 2 ^ 288 + 2 ^ 368 + esz * 2 ^ 384)
/-- The words of a number stored in tile 0's scratchpad. -/
def putN (o n v : Nat) (s : State) : State := (List.range n).foldl (fun s i => put8 (o + 8 * i) (v / 2 ^ (64 * i) % 2 ^ 64) s) s
/-- A copy of four words from 0x1000 to 0x2000 of the scratchpad, by its own engine. -/
def copy4 : BitVec 512 := cpT (own 0x1000) (own 0x2000) 4 3
/-- That copy, running as number 5 with slot 0, `w` elements landed. -/
def running (w : Nat) (s : State) : State := s.setCopy 5 {
  engine := .tile 0, origin := .tile 1 0, pasid := 1, st := .running, tmpl := copy4, w := w, slot := some (0, 0), seq := 5 }

theorem test_cp : ((after (.cp (fe 4 3 0 0 1)) [(3, own 0x400)] fun s => putN 0x400 8 copy4.toNat s).map fun s =>
    ((s.copy (ready popq []).fresh).st, (s.copy (ready popq []).fresh).slot, (s.me.gReg 4).toNat)) = some (.accepting, some (0, 0), 0) := by decide +kernel
theorem test_cpstat : reg 5 (after (.cpstat (fe 5 6 0 0)) [(6, 0)] fun s => onTile0 (fun t => { t with tags := [(0, 5)] }) (running 2 s)) = some (2 ^ 41 + 2) ∧
    reg 5 (after (.cpstat (fe 5 6 0 0)) [(6, 9)]) = some (9 * 2 ^ 48 + 7 * 2 ^ 41) := by decide +kernel
theorem test_cpabort : ((after (.cpabort (fe 0 6 0 0)) [(6, 0)] fun s => onTile0 (fun t => { t with tags := [(0, 5)] }) (running 2 s)).map fun s =>
    ((s.copy 5).st, (s.copy 5).err)) = some (.aborting, 6) := by decide +kernel
theorem test_wmread : reg 5 (after (.wmread (fe 5 0 6 0)) [(6, 0)] (running 2)) = some (2 + 3 * 2 ^ 41 + 2 ^ 60) ∧
    trapOf (after (.wmread (fe 5 0 6 0)) [(6, 3)] handled) = some (9, 1, 0x200000) := by decide +kernel
theorem test_copy_land : ((own'' .copyLand { n := 5 } fun s => put8 0x1010 0xABCD (running 2 s)).map fun s => ((s.copy 5).w, Memory.read s.mem (poolKey 0 0x2010) 8)) =
    some (3, 0xABCD) := by decide +kernel
theorem test_copy_end : ((own'' .copyEnd { n := 5 } fun s => onTile0 (fun t => { t with tags := [(0, 5)] }) (running 4 s)).map fun s => ((s.copy 5).st, (s.copy 5).reported)) = some (.ended, 4) := by decide +kernel

theorem wit_CopyCommands : let x := fe 4 3 0 0 1
    let s := ready (.cp x) [(3, own 0x400)]
    let t := putN 0x400 8 copy4.toNat s
    issues (.cp x) t = true ∧ (t.window (w64 (own 0x400)) 64).toOption.isSome = true ∧ (given (readBlock (w64 (own 0x400)) 8 t.atNpc)).map joinWords = some copy4.toNat ∧
      (t.tile 0).copyQ = [] ∧ t.engineActive 0 = 0 ∧ t.claimWaits 0 = false ∧ t.freeWm 0 = some 0 ∧ fld copy4 127 64 / 2 ^ 20 = 0xFF000000000 ∧
      fld (cpT (own 0x1000) 0x200000 4 3) 127 64 / 2 ^ 20 ≠ 0xFF000000000 ∧ issues (.cp x) (ready (.cp x) [(3, own 8)]) = true := by decide +kernel
theorem wit_CopyCommands_states : let s := onTile0 (fun t => { t with tags := [(0, 5), (1, 6)], copyQ := [6] }) (running 2 (ready (.cpabort (fe 0 6 0 0)) [(6, 0)]))
    let t := s.setCopy 6 { engine := .tile 0, origin := .tile 1 1, pasid := 1, st := .queued, tmpl := copy4 }
    issues (.cpabort (fe 0 6 0 0)) t = true ∧ (t.copy 5).st = .running ∧ (t.copy 6).st = .queued ∧ (t.copy 6).ringSlot = none ∧
      issues (.cpstat (fe 5 6 0 0)) t = true ∧ issues (.wmread (fe 5 0 6 0)) t = true ∧ issues (.cinval (fe 0 6 0 0)) t = true ∧ t.me.await ≠ .ack ∧ t.ownElems (fun _ => true) = false ∧
      issues (.cinval (fe 0 6 0 0)) (t.setMe { t.me with await := .ack, waitAt := some (.cinval (fe 0 6 0 0)) }) = true ∧
      issues (.cinval (fe 0 6 0 0)) (ready (.cinval (fe 0 6 0 0)) [(6, 32)]) = true := by decide +kernel

/-- A table of four rows of 8 bytes on the one tile of the launch, at 0x800; the counters at 0x300. -/
def table : Nat := 0x800 + 4 * 2 ^ 20 + 1 * 2 ^ 36
def gathering (op : FmtE → Instr) : State :=
  putN 0x208 1 (0x300 * 2 ^ 44) (put8 0x100 2 (ready (op (fe 4 3 5 6 2)) [(4, own 0x1000), (3, own 0x100), (5, table), (6, own 0x200)]))
theorem test_gath : ((answer (exec (.gath (fe 4 3 5 6 2)) (gathering .gath))).map fun s =>
    (Memory.read s.mem (poolKey 0 0x200) 8, s.isEmpty (poolKey 0 0x200 / 8), s.gathers.flatMap fun g => g.2.lists.map fun e => (e.1, e.2.1))) =
    some (2, true, [(0, 2), (1, 0)]) := by decide +kernel
theorem wit_GatherCommands : ∀ op ∈ [Instr.gath, .scat], let s := gathering op
    issues (op (fe 4 3 5 6 2)) s = true ∧ (subgroupOf s.myLaunch s.myTile (table / 2 ^ 48 % 64)).isSome = true ∧
      given (readList (w64 (own 0x100)) 2 s.atNpc) = some [2, 0] ∧ given (readM (w64 (own 0x200)) 8 s.atNpc) = some (0, false) ∧
      given (readM (w64 (own 0x208)) 8 s.atNpc) = some (0x300 * 2 ^ 44, false) ∧ 0x302 ≤ s.spadBytes s.myTile ∧ s.heldSpad s.myTile 0x300 2 none = false ∧ table / 2 ^ 54 = 0 ∧
      table / 2 ^ 36 % 2 ^ 12 * 8 = 8 ∧ table / 2 ^ 20 % 2 ^ 16 = 4 := by
  intro op h
  simp only [List.mem_cons, List.not_mem_nil, or_false] at h
  rcases h with h | h <;> subst h <;> decide +kernel
/-- A subgroup that the launch lacks, and a record size of 0. -/
theorem wit_GatherCommands_traps : let s := ready (.gath (fe 4 3 5 6 2)) [(4, own 0x1000), (3, own 0x100), (5, table + 63 * 2 ^ 48), (6, own 0x200)]
    let t := handled (ready (.gath (fe 4 3 5 6 2)) [(4, own 0x1000), (3, own 0x100), (5, 0x800 + 4 * 2 ^ 20), (6, own 0x200)])
    begins (.gath (fe 4 3 5 6 2)) s = true ∧ s.me.live.getLsbD 5 = true ∧ subgroupOf s.myLaunch s.myTile ((s.gReg 5).toNat / 2 ^ 48 % 64) = none ∧
      issues (.gath (fe 4 3 5 6 2)) t = true ∧ t.me.hasHandler = true := by decide +kernel

/-- The on-ramp of streamer 1 bound, and the gather that runs. -/
def onramp (s : State) : State := s.setStreamer 1 { bound := true, pasid := 1, tbase := 0x200000, tcount := 4 }
theorem wit_CopyEvents_onramp : let s := own' { n := 1, v := 3 } onramp
    let t := own' { n := 1, v := 4 } onramp
    s.serving = true ∧ (s.streamer 1).bound = true ∧ 3 < (s.streamer 1).tcount ∧ s.onrampPend 1 < 8 ∧ t.serving = true ∧ (t.streamer 1).tcount ≤ 4 ∧
      ((own' { n := 2 }).streamer 2).bound = false := by decide +kernel
/-- An on-ramp copy of a cached template: into the scratchpad, into a page, and with no element. -/
def started (t : BitVec 512) (s : State) : State := ((onramp s).setStreamer 1 { (onramp s).streamer 1 with cache := [(1, 0x200000, t)], starts := [5] }).setCopy 5 {
  engine := .stream 1, origin := .onramp, pasid := 1, tmplAddr := some 0x200000, seq := 5 }
theorem wit_CopyEvents_accept : let bad := cpT 0x201000 0x202000 0 3
    let pages := cpT 0x201000 0x202000 4 3
    let s := own' { n := 5 } (started pages)
    s.serving = true ∧ Tbl.find s.copies 5 = some { engine := .stream 1, origin := .onramp, pasid := 1, tmplAddr := some 0x200000, seq := 5 } ∧
      (s.streamer 1).starts.head? = some 5 ∧ (s.streamer 1).cur = none ∧ (s.streamer 1).cached 1 0x200000 = some pages ∧
      s.acceptError { engine := .stream 1, origin := .onramp, pasid := 1, tmpl := pages, seq := 5 } = 0 ∧
      s.copyWin { engine := .stream 1, origin := .onramp, pasid := 1, tmpl := pages, seq := 5 } (cpDst pages) 1 = some (.glob 0x202000) ∧ s.guards < 1024 ∧
      s.acceptError { engine := .stream 1, origin := .onramp, pasid := 1, tmpl := bad, seq := 5 } = 1 := by decide +kernel
theorem wit_CopyEvents_accept_spad : let c : Copy := { engine := .tile 0, origin := .tile 1 0, pasid := 1, st := .accepting, tmpl := copy4 }
    let s := own' { n := 5 } fun s => s.setCopy 5 c
    s.serving = true ∧ Tbl.find s.copies 5 = some c ∧ s.acceptTurn 5 = true ∧ s.acceptError c = 0 ∧ s.copyWin c (cpDst copy4) 1 = some (.spad 0 0x2000 false) ∧
      s.freeWm 0 = some 0 ∧ cpRing copy4 = false := by decide +kernel
/-- A template that does not translate. -/
theorem wit_CopyEvents_fault : let c : Copy := { engine := .stream 1, origin := .onramp, pasid := 1, st := .accepting, tmplAddr := some 0x900000 }
    let s := own' { n := 5 } fun s => (onramp s).setCopy 5 c
    s.serving = true ∧ s.acceptTurn 5 = true ∧ (s.streamer 1).cached 1 0x900000 = none ∧ (match (s.copyAccess 5 c 0x900000 64 .read).1 with
      | .fault _ => true
      | _ => false) = true := by decide +kernel
theorem wit_CopyEvents_land : let s := own' { n := 5 } (running 2)
    s.serving = true ∧ (s.copy 5).remote = none ∧ (s.copy 5).away = false ∧ (s.copy 5).drained = false ∧ (s.copy 5).w < (s.copy 5).total ∧ (s.copy 5).total = 4 ∧ s.behindCopy 5 ((s.copy 5).base + 16) 8 = false ∧ s.fillDead (s.copy 5) = false ∧
      (s.copyElem 5 2).1 = some (List.replicate 8 (0, false)) ∧ ((s.copyElem 5 2).2.copyReach 5 ((s.copy 5).landAddr 2) 8 .write).1 =
        some (some [(poolKey 0 0x2010, 8, none)]) ∧ cpBar copy4 = 0 := by decide +kernel
/-- A packet's copy and a tile's at their ends. -/
theorem wit_CopyEvents_end : let t := own' { n := 5 } fun s => onTile0 (fun t => { t with tags := [(0, 5)] }) (running 4 s)
    let c : Copy := { engine := .stream 1, origin := .packet 0 3, pasid := 1, st := .running, tmpl := cpT 0x201000 0x202000 4 3, w := 4, guarded := true }
    let s := own' { n := 5 } fun s => s.setCopy 5 c
    t.serving = true ∧ (t.copy 5).total ≤ (t.copy 5).w ∧ (0, 5) ∈ (t.tile 0).tags ∧ s.serving = true ∧ Tbl.find s.copies 5 = some c ∧ c.total ≤ c.w := by
  decide +kernel
theorem wit_CopyEvents_abort : let c : Copy := { engine := .stream 1, origin := .onramp, pasid := 1, st := .aborting, err := 2, tmpl := cpT 0x201000 (0xFE00000000000000 + 0x2000) 4 3, w := 2, slot := some (0, 0) }
    let s := own' { n := 5 } fun s => (onramp s).setCopy 5 c
    let r := s.poisonRange 5 (c.landAddr c.w) ((c.total - c.w) * c.esz)
    s.serving = true ∧ c.landsHere = true ∧ c.guardedNow = true ∧ s.stays c = false ∧ r.1 = true ∧ s.acceptError c = 0 ∧ cpRing c.tmpl = false ∧ s.behindCopy 5 (c.base + c.w * c.esz) 16 = false ∧ cpBar c.tmpl = 0 ∧
      (s.copyWin c (c.landAddr 2) 8).isSome = true := by decide +kernel
/-- A waiting load of a range that is free again. -/
theorem wit_CopyEvents_release : let i : Instr := .ld (fm 8 3 0x40)
    let s := own' { n := 0 } id
    decode (encode i) = .ok i ∧ s.serving = true ∧ ((s.setCtx 7 { s.ctx 7 with st := .blocked, await := .hold, waitAt := some i }).ctx 7).waitAt = some i := by
  decide +kernel
theorem wit_CopyEvents_remote : let r : RWin := { pasid := 1, base := 0x200000, len := 0x1000, put := true, get := false, any := true, modId := 0 }
    let c : Copy := { engine := .stream 1, origin := .packet 0 3, pasid := 1, st := .running, tmpl := cpT 0x201000 0 4 3, w := 4, remote := some { kind := .put, modId := 2, window := 0 } }
    let s := own' { n := 5, v := 0x100, u := 0x40, data := [3, 16] } fun s => { s.setCopy 5 c with rwins := Tbl.put s.rwins 5 r }
    s.serving = true ∧ Tbl.find s.rwins 5 = some r ∧ r.put = true ∧ 0x140 ≤ r.len ∧ Tbl.find s.copies 5 = some c ∧ c.active = true ∧ c.landsHere = false ∧ s.ckptBusy = false ∧
      c.total ≤ c.w := by decide +kernel
/-- A gather of tile 0 with one sub-list to come, and with one row to come. -/
def gatherOf : Gather := { tile := 0, launch := 1, loc := 0x1000, recOff := 0x200, cbase := 0x300, rb := 8, p := 4, toff := 0x800, tiles := [0], lists := [(0, 2, [])], rows := [(1, 0, [(7, false)], false)] }
theorem wit_CopyEvents_gather : let s := own' { n := 5, m := 0 } fun s => { s with gathers := Tbl.put s.gathers 5 gatherOf }
    s.serving = true ∧ Tbl.find s.gathers 5 = some gatherOf ∧ gatherOf.owner 2 = 0 ∧ gatherOf.rowOff 2 + 8 ≤ s.spadBytes 0 ∧ gatherOf.rowOff 2 % 8 = 0 ∧
      s.heldSpad 0 (gatherOf.rowOff 2) 8 none = false := by decide +kernel
theorem wit_CopyEvents_gather_row : let t := own' { n := 5, m := 1 } fun s => { s with gathers := Tbl.put s.gathers 5 gatherOf }
    t.serving = true ∧ t.gaHeld gatherOf 0 = false ∧ t.heldSpad 0 0x1008 8 none = false ∧ gatherOf.rows.find? (fun e => e.1 = 1) = some (1, 0, [(7, false)], false) ∧
      gatherOf.inTable 0 = true ∧ poolKey 0 0x200 % 8 = 0 ∧ poolKey 0 0x300 + 2 ≤ poolKey 0 0x1008 := by decide +kernel
theorem wit_CopyEvents_scatter : let g : Gather := { scatter := true, tile := 0, launch := 1, loc := 0x1000, recOff := 0x200, cbase := 0x300, rb := 8, p := 4, toff := 0x800, tiles := [0], lists := [(0, 2, [(9, false)])] }
    let s := own' { n := 5, m := 0 } fun s => { s with gathers := Tbl.put s.gathers 5 g }
    s.serving = true ∧ g.scatter = true ∧ g.lists.find? (fun e => e.1 = 0) = some (0, 2, [(9, false)]) ∧ s.heldSpad (g.owner 2) (g.rowOff 2) 8 none = false ∧
      g.rowOff 2 % 8 = 0 := by decide +kernel
theorem test_gather_row : let g : Gather := { tile := 0, launch := 1, loc := 0x1000, recOff := 0x200, cbase := 0x300, rb := 8, p := 4, toff := 0x800, tiles := [0], rows := [(1, 0, [(7, false)], false)] }
    ((own'' .gatherRowArrival { n := 5, m := 1 } fun s => put8 0x200 1 (put8 0x300 3 { s with gathers := Tbl.put s.gathers 5 g })).map fun s =>
      [Memory.read s.mem (poolKey 0 0x1008) 8, Memory.read s.mem (poolKey 0 0x200) 8, Memory.read s.mem (poolKey 0 0x300) 2, s.gathers.length]) =
      some [7, 0, 2, 0] := by decide +kernel

-- Experts, deques, collectives, launches (R179 to R196, R391 to R400)

/-- An entry of PASID 1 with this state, pins and size 1. -/
def ertOf (st pin : Nat) : Ert := ertSet (ertSet (ertSet (ertSet 0 1 0 st) 43 24 1) 79 64 pin) 111 96 1
/-- A request of the strand of tile 0 about entry 3, as number 9. -/
def asked (k : ExpertKind) (s : State) : State := { s with expert := [(9, { kind := k, entry := 3, record := 7, launch := 1, tile := 0 })] }
/-- A gate entry: a score and an expert. -/
def gate (score id : Nat) : Word := w64 (score * 2 ^ 32 + 2 ^ 31 + id)

theorem test_xlook : ((after (.xlook (fe 4 2 3 0 0x10)) [(2, own 0x100), (3, 5)]).map fun s => (s.me.st, s.expert.map fun e => e.2.entry)) = some (.blocked, [5]) ∧
    reg 4 (after (.xlook (fe 4 2 3 0 0x10)) [(2, own 0x100), (3, 16384)]) = some 4 := by decide +kernel
theorem test_expert_hit : ((own'' .expertRequest { n := 9 } fun s => asked .look (s.setEntry 3 (ertOf 2 0))).map fun s =>
    (ertPin (s.entry 3), s.expert.map fun e => e.2.reply.map Prod.fst)) = some (1, [some 0]) := by decide +kernel
theorem test_expert_miss : ((own'' .expertRequest { n := 9 } fun s => asked .look (s.setEntry 3 (ertOf 0 0))).map fun s =>
    (ertState (s.entry 3), (s.layby 0).recs.length, s.expert.map fun e => e.2.reply.map Prod.fst)) = some (1, 1, [some 2]) := by decide +kernel
theorem test_dqpush : ((after (.dqpush (fe 5 2 0 0)) [(2, own 0x100)] (put8 0x100 7)).map fun s => ((s.me.gReg 5).toNat, (s.tile 0).deque)) = some (1, [7]) := by
  decide +kernel
theorem test_dqpop : ((after (.dqpop (fe 4 2 0 0)) [(2, own 0x100)] (onTile0 fun t => { t with deque := [1, 2 ^ 64 * 5 + 9] })).map fun s =>
    [(s.me.gReg 4).toNat, Memory.read s.mem (poolKey 0 0x100) 8, Memory.read s.mem (poolKey 0 0x108) 8, (s.tile 0).deque.length]) = some [1, 9, 5, 1] := by
  decide +kernel
theorem test_ctrsnap : ((after (.ctrsnap (fe 4 2 3 0)) [(4, own 0x100), (2, own 0x200), (3, 1)] (put8 0x200 77)).map fun s =>
    (s.isEmpty (poolKey 0 0x100 / 8), Memory.read s.mem (poolKey 0 0x200) 8, s.elems.map fun e => (e.2.base, e.2.val.toNat, e.2.snap))) =
    some (true, 0, [(0x100, 77, true)]) := by decide +kernel
theorem test_ctrsnap_write : ((own'' .sendkArrival { n := 9 } fun s => { s with elems := [(9, { launch := 1, fromTile := 0, toTile := 0, base := 0x100, nb := 1, key := 0, val := 77, snap := true })] }).map
    fun s => (Memory.read s.mem (poolKey 0 0x100) 8, s.elems.length)) = some (77, 0) := by decide +kernel
/-- R189's example. -/
theorem test_gateMerge : let r := gateMerge 6 [gate 0x3F666666 12, gate 0x3F000000 3, gate 0x3F000000 9, gate 0x80000000 40,
      gate 0x3F333333 12, gate 0x3F000000 1, gate 0 2, gate 0x7FC00000 5]
    r.map (fun w => w.toNat % 2 ^ 14) = [12, 1, 3, 9, 2, 40] ∧ r.headD 0 = 0x3F6666668000000C := by decide +kernel
theorem test_gbar : ((after (.gbar (fe 0 0 0 2)) [(2, 0)]).map fun s => (s.me.st, s.colls.map fun r => r.2.parts.length)) = some (.blocked, [1]) := by decide +kernel
theorem test_launch : ((after (.launch (fe 4 5 0 0)) [(5, own 0x100)] (putN 0x100 4 (0x200000 + 0x77 * 2 ^ 64 + (3 + 2 * 256 + 65536 + 16777216) * 2 ^ 128))).map fun s =>
    ((s.me.gReg 4).toNat, (s.launch (ready popq []).fresh).x0, (s.launch (ready popq []).fresh).args)) = some (0x40000000, 3, 0x77) := by decide +kernel

theorem wit_ExpertCommands : let x := fe 4 2 3 0 0x10
    let s := put8 0x110 7 (ready (.xlook x) [(2, own 0x100), (3, 5)])
    issues (.xlook x) s = true ∧ issues (.xpark x) s = true ∧ (s.window (w64 (own 0x110)) 16).toOption.isSome = true ∧
      given (readWords (w64 (own 0x110)) 2 s.atNpc) = some [7, 0] ∧ s.me.await = .none ∧ issues (.xrel (fe 4 3 0 0)) s = true := by decide +kernel
theorem wit_ExpertCommands_reply : let x := fe 4 2 3 0 0x10
    let s := ready (.xlook x) [(2, own 0x100), (3, 5)]
    let t := s.setMe { s.me with await := .expert 2 (some (1, 7)), waitAt := some (.xlook x) }
    issues (.xlook x) t = true ∧ t.me.await = .expert 2 (some (1, 7)) ∧
      given (place (w64 (own 0x110)) 16 .write t.atNpc) = some (.key (poolKey 0 0x110) none) := by decide +kernel
theorem wit_ExpertCommands_deque : let x := fe 4 2 0 0
    let s := onTile0 (fun t => { t with deque := [3] }) (ready (.dqpop x) [(2, own 0x100)])
    let t := onTile0 (fun t => { t with dqcfg := 1 }) ((ready (.dqpop x) [(2, own 0x100)]).setLaunch 1 { (ready (.dqpop x) []).launch 1 with w := 2 })
    issues (.dqpush x) s = true ∧ (s.tile 0).dqRoom = true ∧ issues (.dqpop x) s = true ∧ (s.tile 0).deque.getLast? = some 3 ∧
      given (place (w64 (own 0x100)) 16 .write s.atNpc) = some (.key (poolKey 0 0x100) none) ∧
      issues (.dqpop x) t = true ∧ x.cb 20 20 = 0 ∧ (t.tile 0).deque = [] ∧ (t.tile 0).dqcfg = 1 ∧ x.cb 20 20 = 0 ∧ (t.tile 0).stealDir = 3 ∧ t.me.await = .none ∧
      neighbour t.myLaunch 0 0 = some 1 := by decide +kernel
theorem wit_CollectiveCommands_snap : let x := fe 4 2 3 0
    let s := ready (.ctrsnap x) [(4, own 0x100), (2, own 0x200), (3, 2)]
    let t := ready (.ctrsnap x) [(4, own 0x100), (2, own 0x108), (3, 2)]
    let h := (ready (.ctrsnap x) [(4, own 0x2000), (2, own 0x200), (3, 2)]).setCopy 5 {
      engine := .tile 0, origin := .tile 1 0, pasid := 1, st := .running, tmpl := copy4, slot := some (0, 0) }
    issues (.ctrsnap x) s = true ∧ (s.window (w64 (own 0x100)) 16).toOption.isSome = true ∧ (s.window (w64 (own 0x200)) 16).toOption.isSome = true ∧
      s.heldSpad 0 0x100 16 none = false ∧ s.heldSpad 0 0x200 16 none = false ∧ s.hard = [] ∧ issues (.ctrsnap x) t = true ∧
      issues (.ctrsnap x) h = true ∧ h.heldSpad 0 0x2000 16 none = true := by decide +kernel
theorem wit_CollectiveCommands : let s := ready (.kmerge (fe 4 2 0 3)) [(4, 0x100), (2, own 0x200), (3, 5 * 256)]
    issues (.kmerge (fe 4 2 0 3)) s = true ∧ (s.openRounds 0).length < 8 ∧ (subgroupOf s.myLaunch 0 0).map (fun g => (g.tiles, g.rank 0)) = some ([0], 0) ∧
      (given ((List.range 8).mapM (fun i => readM (w64 (own 0x200) + w64 (8 * i)) 8) s.atNpc)).map (fun ws => ws.all fun w => !w.2) = some true ∧
      0x100 + 8 * 6 ≤ s.spadBytes 0 ∧ s.colls = [] ∧ (s.ot 1 0).rounds = 0 := by decide +kernel
theorem wit_CollectiveCommands_rred : let x := fe 4 0x10 0 3 (9 * 8)
    let s := ready (.rred x) [(4, 0x100)]
    issues (.rred x) s = true ∧ s.streaming 0 = false ∧ (subgroupOf s.myLaunch 0 0).isSome = true ∧ 0x200 ≤ s.spadBytes 0 := by decide +kernel
/-- A round that the other member has begun, alike and not alike, and a round that is over. -/
theorem wit_CollectiveCommands_gbar : let x := fe 0 0 0 2
    let s := ready (.gbar x) [(2, 8)]
    let s := s.setLaunch 1 { s.launch 1 with w := 2 }
    let s (k : CollKind) : State := { s with colls := [(4, { kind := k, launch := 1, ctl := 8, cmd := 0, index := 0, tiles := [0, 1], parts := [{ rank := 1, words := [], off := 0 }] })] }
    let o := s .gbar
    let o := o.setMe { o.me with await := .collective 11, waitAt := some (.gbar x) }
    issues (.gbar x) (s .gbar) = true ∧ (subgroupOf (s .gbar).myLaunch 0 8).map (fun g => g.tiles) = some [0, 1] ∧ ((s .gbar).openRounds 0).length < 8 ∧
      issues (.gbar x) (s .kmerge) = true ∧ (Tbl.find (s .kmerge).launches 1).isSome = true ∧ (s .kmerge).evq = [] ∧
      issues (.gbar x) o = true ∧ o.me.await = .collective (2 * 5 + 1) ∧ Tbl.find o.colls 5 = none := by decide +kernel
theorem wit_LaunchCommand : let v := 0x200000 + (3 + 2 * 256 + 65536 + 16777216) * 2 ^ 128
    let x := fe 4 5 0 0
    let s := putN 0x100 4 v (ready (.launch x) [(5, own 0x100)])
    issues (.launch x) s = true ∧ (s.window (w64 (own 0x100)) 32).toOption.isSome = true ∧
      (given (readWords (w64 (own 0x100)) 4 s.atNpc)).map joinWords = some v ∧ s.tileIssued 0 < 4 ∧ (s.tile 0).launchCount = 0 ∧
      s.liveLaunch s.myPasid 0x40000000 = none ∧ issues (.launch x) (ready (.launch x) [(5, own 0x108)]) = true ∧
      given (readWords (w64 (own 0x100)) 4 (handled (ready (.launch x) [(5, own 0x100)])).atNpc) = some [0, 0, 0, 0] := by decide +kernel
/-- With the DONE word in a page, and with four launches outstanding. -/
theorem wit_LaunchCommand_done : let x := fe 4 5 0 0
    let s := ready (.launch x) [(5, own 0x100)]
    let l : Launch := { origin := .tile 0 1 none 0 }
    let t := (((s.setLaunch 21 l).setLaunch 22 l).setLaunch 23 l).setLaunch 24 l
    (given (place 0x200040 8 .write s.atNpc)).isSome = true ∧ 4 ≤ t.tileIssued 0 ∧ issues (.launch x) t = true := by decide +kernel

/-- What the firmware core 0 commands about entry 3. -/
def xcmd (e : Ert) (f : State → State := id) : State := own' { n := 0, v := 3 * 16 } fun s => f (s.setEntry 3 e)
theorem wit_ExpertEvents_commands : (xcmd 0).serving = true ∧ ertState ((xcmd 0).entry 3) = 0 ∧ ertLv ((xcmd 0).entry 3) = false ∧
    ertPin ((xcmd (ertOf 0 1)).entry 3) = 1 ∧ ertState ((xcmd (ertOf 2 0)).entry 3) = 2 ∧ ertWb ((xcmd (ertSet (ertOf 2 0) 3 3 1)).entry 3) = true ∧
    ertState ((xcmd (ertOf 1 0)).entry 3) = 1 ∧ ((xcmd 0).fcRecord 0 ((xcmd 0).fw 0).xarg 64).1 = .bad := by decide +kernel
/-- An image that can be read, and a good one (a firmware core names its own records). -/
theorem wit_ExpertEvents_image : let f (s : State) : State := { s with tlb := { agent := 0x1080, pasid := 0, va := probeVa.toNat, huge := false, leaf := probeLeaf, leafDpa := 0 } :: s.tlb }
    let g (v : Nat) (s : State) : State := ((f s).setFw 0 { (f s).fw 0 with xarg := probeVa + 64 }).storeWord (probeVa.toNat + 64 + 8) 8 v false
    ((xcmd 0 (g (2 ^ 32))).fcRecord 0 (probeVa + 64) 64).1 = .ok (2 ^ 96) ∧ imageOk (2 ^ 96) = true ∧ ((xcmd 0 (g 0)).fcRecord 0 (probeVa + 64) 64).1 = .ok 0 ∧
      imageOk 0 = false := by decide +kernel
theorem wit_ExpertEvents_flush : let s := xcmd (ertSet (ertOf 0 0) 6 6 1) fun s => s.setLayby 0 { bound := true, entry := 3, recs := [{ launch := 1, tile := 0, record := 7, released := false }] }
    s.serving = true ∧ ertLv (s.entry 3) = true ∧ ertLayby (s.entry 3) = 0 ∧ ((own' { n := 0 } fun s => { s with now := 65536 }).ertTick + 65536 ≤ 65536) := by decide +kernel
theorem wit_ExpertEvents_requests : let s (k : ExpertKind) (e : Ert) : State := own' { n := 9 } fun s => asked k (s.setEntry 3 e)
    (s .look 0).serving = true ∧ ertPasid ((s .look 0).entry 3) = 0 ∧ ((s .look 0).launch 1).pasid = 1 ∧
      (s .look (ertOf 2 0)).placements 3 true = [3] ∧ (s .park (ertOf 2 0)).placements 3 false = [3] ∧ (s .look (ertOf 0 0)).placements 3 true = [] ∧
      ((s .look (ertOf 0 0)).layby 0).bound = false ∧ ertUsable (ertOf 0 1) = false ∧ ertPin ((s .unpin (ertOf 0 0)).entry 3) = 0 := by decide +kernel
theorem wit_ExpertEvents_layby : let p : Parked := { launch := 1, tile := 0, record := 7, released := true }
    let s := own' { n := 0, m := 0 } fun s => s.setLayby 0 { bound := true, entry := 3, recs := [p] }
    let t := own' { n := 0, m := 0 } fun s => s.setLayby 0 { bound := true, entry := 3, recs := [p], retryAt := [(0, 5)] }
    s.serving = true ∧ (s.layby 0).recs = [p] ∧ (s.launch 1).st = .running ∧ (s.tile 0).dqList = [] ∧ (s.tile 0).dqRoom = true ∧
      Tbl.find (s.layby 0).retryAt 0 = none ∧ Tbl.find (t.layby 0).retryAt 0 = some 5 := by decide +kernel
theorem wit_ExpertEvents_listed : let s := own' { n := 0 } fun s => onTile0 (fun t => { t with dqList := [{ msg := 3, reservedUntil := none }] }) s
    let t := own' { n := 0 } fun s => { onTile0 (fun t => { t with dqList := [{ msg := 3, reservedUntil := some 5 }] }) s with now := 6 }
    s.serving = true ∧ (s.tile 0).dqFree ≠ 0 ∧ t.serving = true ∧ (t.tile 0).dqList = [{ msg := 3, reservedUntil := some 5 }] ∧ 5 ≤ t.now := by decide +kernel
theorem wit_ExpertEvents_steals : let x : Steal := { thief := 0, victim := 1, ctx := 0, r := 8 }
    let s := own' { n := 9 } fun s => { s with steals := [(9, x)] }
    let t := own' { n := 9 } fun s => { s with steals := [(9, { x with reply := some [4] })] }
    let u := own' { n := 9 } fun s => ({ s with steals := [(9, { x with reply := some [] })] }).setCtx 0 { s.ctx 0 with await := .steal 0, st := .blocked, launch := 1 }
    s.serving = true ∧ Tbl.find s.steals 9 = some x ∧ t.serving = true ∧ u.serving = true ∧ (u.ctx 0).await = .steal 0 ∧ (u.tile 0).deque = [] ∧
      neighbour { (u.launch 1) with w := 2 } 0 ((u.tile 0).stealDir + 1) = some 1 := by decide +kernel
theorem wit_ExpertEvents_elements : let e : Element := { launch := 1, fromTile := 0, toTile := 0, base := 0x300, nb := 4, key := 6, val := 5 }
    let s := own' { n := 9 } fun s => { s with elems := [(9, e)] }
    let t := own' { n := 9 } fun s => { s with elems := [(9, { e with base := 0x40000 })] }
    s.serving = true ∧ e.base + 32 ≤ s.spadBytes 0 ∧ s.heldSpad 0 0x310 8 none = false ∧ poolKey 0 0x310 % 8 = 0 ∧ t.serving = true ∧ t.spadBytes 0 < 0x40000 + 32 ∧
      t.evq = [] := by decide +kernel
theorem wit_ExpertEvents_rounds : let r (k : CollKind) : Round := { kind := k, launch := 1, ctl := 5 * 256, cmd := 72, tiles := [0], parts := [{ rank := 0, words := [(gate 0 2, false)], off := 0x100 }] }
    let s (k : CollKind) := own' { n := 9 } fun s => { s with colls := [(9, r k)] }
    (s .gbar).serving = true ∧ (r .gbar).parts.length = (r .gbar).tiles.length ∧ Tbl.find (s .kmerge).colls 9 = some (r .kmerge) ∧
      (r .kmerge).parts.filter (fun p => p.rank = 0) = (r .kmerge).parts ∧ (r .rred).tiles[0]? = some 0 ∧
      (s .kmerge).heldSpad 0 0x100 48 none = false ∧ (s .rred).heldSpad 0 0x100 256 none = false := by decide +kernel

-- Control cores (R201 to R222, R402 to R427)

/-- Words in the page of the run, whose addresses are its keys. -/
def inPage (ws : List (Nat × Nat)) (s : State) : State := ws.foldl (fun s e => s.storeWord e.1 8 e.2 false) s
/-- Control core 0 about to run a bytecode: stack at 0x201000, frame at 0x200800, site table at 0x202000, handlers at 0x203000, room for objects at
0x204000, release queue of its own. -/
def bc (i : Instr) (ws : List (Nat × Nat) := []) : State :=
  let s := inPage ws (State.reset.withFetchWord 32 (encode i).toNat)
  s.setMyCc { s.myCc with
    vsp := 0x201000, vfr := 0x200800, sitebase := 0x202000, siten := 4, dtvec := 0x203000, objp := 0x204000, obje := 0x205000, nsp := 0x206000, rqbase := 0x208006 }
def bcAfter (i : Instr) (ws : List (Nat × Nat) := []) : Option State := answer (exec i (bc i ws))
/-- A word of the page after a step, and VPC and VSP. -/
def word (a : Nat) (s : Option State) : Option Nat := s.map fun s => Memory.read s.mem a 8
def at_ (s : Option State) : Option (Nat × Nat) := s.map fun s => (s.myCc.vpc.toNat, s.myCc.vsp.toNat)
/-- The same for a runtime instruction in native mode. -/
def cc (i : Instr) (regs : List (Nat × Nat)) (ws : List (Nat × Nat) := []) : State :=
  let s := inPage ws (onCc i regs)
  s.setMyCc { s.myCc with dtvec := 0x203000, objp := 0x204000, obje := 0x205000, nsp := 0x206000, rqbase := 0x208006 }
/-- A 1-slot object at `o`: shape 7, size 2, a count, a value. -/
def obj (o rc v : Nat) : List (Nat × Nat) := [(o, 7 + 2 * 2 ^ 32), (o + 8, rc), (o + 16, v)]

theorem test_ldi : word 0x201000 (bcAfter (.bcLdi 0xFFFE)) = some (2 ^ 64 - 15) ∧ at_ (bcAfter (.bcLdi 0xFFFE)) = some (0x200008, 0x201008) := by decide +kernel
theorem test_ldsp : word 0x201000 (bcAfter (.bcLdsp 2)) = some 0x12 ∧
    reg 1 (bcAfter (.bcLdsp 3) [(0x203018, 0x5000)]) = some 9 ∧ reg 0 (bcAfter (.bcLdsp 3) [(0x203018, 0x5000)]) = some 3 := by decide +kernel
theorem test_stloc : word 0x200818 (bcAfter (.bcStloc 3) [(0x200FF8, 0x29)]) = some 0x29 ∧ at_ (bcAfter (.bcStloc 3)) = some (0x200008, 0x200FF8) := by decide +kernel
theorem test_ldglob : word 0x201000 (bcAfter (.bcLdglob 1) [(0x201FF0, 0x31)]) = some 0x31 := by decide +kernel
theorem test_dup_counts : word 0x204108 (bcAfter .bcDup ((0x200FF8, 0x204100) :: obj 0x204100 5 9)) = some 6 := by decide +kernel
theorem test_swap : word 0x200FF0 (bcAfter .bcSwap [(0x200FF8, 9), (0x200FF0, 17)]) = some 9 := by decide +kernel
theorem test_mkobj : word 0x204000 (bcAfter (.bcMkobj 7 1) [(0x200FF8, 0x29)]) = some (7 + 2 * 2 ^ 32) ∧
    word 0x204010 (bcAfter (.bcMkobj 7 1) [(0x200FF8, 0x29)]) = some 0x29 ∧ word 0x204018 (bcAfter (.bcMkobj 7 1) [(0x200FF8, 0x29)]) = some 2 ∧
    word 0x200FF8 (bcAfter (.bcMkobj 7 1) [(0x200FF8, 0x29)]) = some 0x204000 := by decide +kernel
theorem test_forr : word 0x200808 (bcAfter (.bcForr 1 0x40) [(0x200808, 8 * 4 + 1), (0x200810, 8 * 6 + 1)]) = some (8 * 5 + 1) ∧
    at_ (bcAfter (.bcForr 1 0x40) [(0x200808, 8 * 6 + 1), (0x200810, 8 * 6 + 1)]) = some (0x200048, 0x201000) := by decide +kernel
theorem test_brf : at_ (bcAfter (.bcBrf 0x40) [(0x200FF8, 0x0A)]) = some (0x200048, 0x200FF8) := by decide +kernel
theorem test_unassigned : (bcAfter (.unassignedBytecode 0x80) [(0x203018, 0x5000)]).map (fun s => (s.me.pc.toNat, s.me.live)) = some (0x5000, 0x40FF) ∧
    reg 1 (bcAfter (.unassignedBytecode 0x80) [(0x203018, 0x5000)]) = some 0x80 := by decide +kernel
theorem test_site_miss : reg 0 (bcAfter (.bcAddS 1) [(0x200FF8, 9), (0x200FF0, 17), (0x202080, 0x100), (0x202088, 0x5000)]) = some 1 := by decide +kernel
theorem test_ret_outermost : (bcAfter .bcRet).map (fun s => s.myCc.on) = some false := by decide +kernel
theorem test_tagchk : reg 3 (answer (exec (.tagchk (fr 3 1 0 0)) (onCc (.tagchk (fr 3 1 0 0)) [(1, 0x12)]))) = some 2 ∧
    reg 3 (answer (exec (.tagchk (fr 3 1 0 0)) (onCc (.tagchk (fr 3 1 0 0)) [(1, 0x1A)]))) = some 4 ∧
    reg 3 (answer (exec (.tagchk (fr 3 1 0 0)) (onCc (.tagchk (fr 3 1 0 0)) [(1, 0x1000)]))) = some 0 := by decide +kernel
theorem test_ldslot : reg 4 (answer (exec (.ldslot (fr 4 1 2 0)) (cc (.ldslot (fr 4 1 2 0)) [(1, 0x204100), (2, 7 * 2 ^ 32)] (obj 0x204100 5 0x29)))) = some 0x29 := by
  decide +kernel
theorem test_rcdec : word 0x208000 (answer (exec (.rcdec (fr 0 1 0 0)) (cc (.rcdec (fr 0 1 0 0)) [(1, 0x204100)] (obj 0x204100 1 0x29)))) = some 0x204100 ∧
    word 0x204108 (answer (exec (.rcinc (fr 0 1 0 0)) (cc (.rcinc (fr 0 1 0 0)) [(1, 0x204100)] (obj 0x204100 1 0x29)))) = some 2 := by decide +kernel
theorem test_icu : word 0x202080 (answer (exec (.icu (fr 4 1 2 3)) (cc (.icu (fr 4 1 2 3)) [(1, 0x202080), (2, 0x77), (3, 0x5000)] [(0x202080, 0x100)]))) =
    some 0x105 ∧
    word 0x2020A0 (answer (exec (.icu (fr 4 1 2 3)) (cc (.icu (fr 4 1 2 3)) [(1, 0x202080), (2, 0x77), (3, 0x5000)] [(0x202080, 0x100)]))) = some 0x77 := by
  decide +kernel

/-- A site record of kind 1 in state 1 with one entry. -/
def rec1 (a key target : Nat) : List (Nat × Nat) := [(a, 0x105), (a + 32, key), (a + 40, target)]
theorem wit_RuntimeUnit : let s := cc (.icu (fr 4 1 2 3)) [(1, 0x202080), (2, 0x77), (3, 0x5000)] (rec1 0x202080 0x77 0x5000)
    issues (.icu (fr 4 1 2 3)) s = true ∧ issues (.icl (fr 0 1 0 0)) s = true ∧ issues (.guard (fr 4 1 2 0)) s = true ∧
      given (checkAddr 0x202080 128 s.atNpc) = some () ∧ given (place 0x202080 128 .atomic s.atNpc) = some (.key 0x202080 (some 0)) ∧
      (s.load 0x202080 128).1.2 = false ∧ s.ccs.all (fun e => e.2.sites.isEmpty) = true ∧
      (given (siteRead 0x202080 s.atNpc)).map (fun ws => (ws.getD 0 0, ws.getD 4 0)) = some (0x105, 0x77) := by decide +kernel
theorem wit_RuntimeUnit_late : ∀ c ∈ [0, 1], ((cc (.icu (fr 4 1 2 3)) []).cc c).lateHits = [] := by decide +kernel
theorem wit_RuntimeUnit_detour : let s := cc (.detour (fr 0 1 2 0)) [(1, 3), (2, 9)] [(0x203018, 0x5000)]
    issues (.detour (fr 0 1 2 0)) s = true ∧ given (rd8 0x203018 s.atNpc) = some 0x5000 ∧
      issues (.detour (fr 0 1 2 0)) (cc (.detour (fr 0 1 2 0)) [(1, 9)]) = true ∧ issues (.tagchk (fr 3 1 0 0)) s = true := by decide +kernel
theorem wit_RuntimeUnit_detret : let s := cc (.detret (fr 0 0 0 0)) [(2, 0x200000), (3, 0x201000), (4, 0x200800)]
    issues (.detret (fr 0 0 0 0)) s = true ∧ (∀ r ∈ [2, 3, 4, 14], s.me.live.getLsbD r = true) ∧
      issues (.detret (fr 0 0 0 0)) (s.setMe { s.me with live := 0x4017 }) = true := by decide +kernel
theorem wit_RuntimeObjects : let s := cc (.stslot (fr 0 1 2 3)) [(1, 0x204100), (2, 7 * 2 ^ 32), (3, 0x11)] (obj 0x204100 5 0x29)
    issues (.stslot (fr 0 1 2 3)) s = true ∧ issues (.ldslot (fr 4 1 2 0)) s = true ∧ isPtr 0x204100 = true ∧
      given (rd8 0x204100 s.atNpc) = some 0x200000007 ∧ given (rd8 0x204110 s.atNpc) = some 0x29 ∧ valueKind 0x11 = 1 ∧ 4 ≤ s.rqFree s.ccNo ∧
      given (commit [.xchg 0x204110 0x11] s.atNpc) = some () := by decide +kernel
theorem wit_RuntimeObjects_traps : ∀ v ∈ [65536, 0, 2 * 2 ^ 32, 7 * 2 ^ 32 + 2], let s := cc (.ldslot (fr 4 1 2 0)) [(1, if v = 0 then 0x11 else 0x204100), (2, v)] (obj 0x204100 5 0x29)
    issues (.ldslot (fr 4 1 2 0)) s = true := by decide +kernel
theorem wit_RuntimeObjects_counts : let s := cc (.rcdec (fr 0 1 0 0)) [(1, 0x204100)] (obj 0x204100 1 0x29)
    issues (.rcdec (fr 0 1 0 0)) s = true ∧ issues (.rcinc (fr 0 1 0 0)) s = true ∧ given (checkAddr 0x204100 16 s.atNpc) = some () ∧
      given (place 0x204100 16 .atomic s.atNpc) = some (.key 0x204100 (some 0)) ∧ (s.load 0x204100 8).1.2 = false ∧ (s.load 0x204108 8).1.2 = false ∧
      (s.wordAt (0x204100 / 8)).getLsbD 49 = false ∧ given (storeScalar (w64 (s.rqAddr s.ccNo)) 8 0x204100 false s.atNpc) = some () ∧
      issues (.rcinc (fr 0 1 0 0)) (cc (.rcinc (fr 0 1 0 0)) [(1, 0x11)]) = true ∧ issues (.rcinc (fr 0 1 0 0)) (cc (.rcinc (fr 0 1 0 0)) [(1, 8)]) = true ∧
      isPtr 8 = false := by decide +kernel
/-- A tensor with nothing pending, and one with an error. -/
theorem wit_RuntimeObjects_twait : let s (e : Nat) := cc (.twait (fr 0 1 0 0)) [(1, 0x204100)] [(0x204100, 2 ^ 48 + 2 * 2 ^ 32), (0x204160, e), (0x203040, 0x5000)]
    issues (.twait (fr 0 1 0 0)) (s 0) = true ∧ given (isTensor 0x204100 (s 0).atNpc) = some true ∧ given (loadScalar 0x204160 8 false true false (s 0).atNpc) = some 0 ∧
      given (loadScalar 0x204160 8 false true false (s 3).atNpc) = some 3 ∧ given (rd8 0x203040 (s 3).atNpc) = some 0x5000 ∧
      issues (.twait (fr 4 1 0 0 1)) (s 0) = true ∧ given (isTensor 0x11 (s 0).atNpc) = some false := by decide +kernel
/-- A tensor at 0x204100 on the descriptor at 0x207000, ready for the port. -/
def tensor : List (Nat × Nat) := [(0x204100, 2 ^ 48 + 9 * 2 ^ 32), (0x204108, 1), (0x204110, 9), (0x204158, 0x207000),
  (0x207000, 0x208000), (0x207008, 64)]
/-- What a plan for the port leaves once its writes are made and its launch issued, with its result; none where it does not end in a launch. -/
def planned (m : M PortPlan) (s : State) : Option (State × Word) :=
  match m s with
  | .ok (p, t) =>
    match p.wants.getLast? with
    | some (.issue l q room) =>
      match commit p.wants.dropLast t with
      | .ok (_, u) => some (u.issueLaunch l q room, p.result)
      | .error _ => none
    | _ => none
  | .error _ => none
theorem wit_RuntimeObjects_plaunch : let s := cc (.plaunch (fr 4 1 2 3)) [(1, 0x200040), (2, 0x204100)] tensor
    let s := s.setMyCc { s.myCc with bufp := 0x209000, bufe := 0x20A000, argbase := 0x20B000 }
    issues (.plaunch (fr 4 1 2 3)) s = true ∧ (planned (portPlan (trapM tcEngerr 2) (trapM tcEngerr 5) 0x200040 0x204100 none) s.atNpc).isSome = true := by decide +kernel

theorem wit_BytecodeStack : let s := bc (.bcMkobj 7 1) ((0x200FF8, 0x29) :: (0x200FF0, 0x204100) :: obj 0x204100 5 0x29)
    4 ≤ s.rqFree s.ccNo ∧ given (rd8 0x200FF8 s) = some 0x29 ∧ given (rd8 0x200FF0 s) = some 0x204100 ∧ given (rd8 0x204100 s) = some 0x200000007 ∧
      given (rd8 0x204110 s) = some 0x29 ∧ given (commit [.put 0x200FF8 0x29, .count 0x204100 false] s) = some () ∧
      given (commit [.xchg 0x204110 0x29] s) = some () ∧ s.myCc.objp.toNat + 32 ≤ s.myCc.obje.toNat ∧ valueKind 0x29 = 1 ∧ valueKind 0x1A = 4 := by decide +kernel
/-- No room for objects, and no room in the release queue. -/
theorem wit_BytecodeStack_full : let s := bc .bcPop
    let t := s.setMyCc { s.myCc with obje := 0x204000 }
    t.myCc.obje.toNat < t.myCc.objp.toNat + 16 ∧ (s.setMyCc { s.myCc with rqidx := 0x1000 }).rqFree s.ccNo < s.rqFree s.ccNo := by decide +kernel
theorem wit_BytecodeStack_detour : let s := bc .bcPop [(0x203018, 0x5000)]
    given (rd8 (s.myCc.dtvec + 24) s) = some 0x5000 ∧ given ((siteRead 0x202080).map (fun ws => ws.getD 1 0) s) = some 0 := by decide +kernel
theorem wit_BytecodeControl : let s := bc (.bcForr 1 0x40) [(0x200808, 8 * 4 + 1), (0x200810, 8 * 6 + 1), (0x200FF8, 0x12), (0x203040, 0x5000)]
    given (rd8 0x200808 s) = some 33 ∧ given (rd8 0x200810 s) = some 49 ∧ given (rd8 0x200FF8 s) = some 0x12 ∧
      given (commit [.put 0x200808 41, .put 0x201000 33] s) = some () ∧ given (commit [.put (0x200800 - 24) 0x200048, .put (0x200800 - 16) 0x201000] s) = some () ∧
      given (rd8 (s.myCc.dtvec + 64) s) = some 0x5000 ∧ given (isTensor 0x12 s) = some false := by decide +kernel
theorem wit_BytecodeControl_waitt : let s (e : Nat) := bc .bcWaitt [(0x200FF8, 0x204100), (0x204100, 2 ^ 48 + 2 * 2 ^ 32), (0x204160, e)]
    given (rd8 0x200FF8 (s 0)) = some 0x204100 ∧ given (isTensor 0x204100 (s 0)) = some true ∧ valueKind 0x204100 = 0 ∧
      given (loadScalar 0x204160 8 false true false (s 0)) = some 0 ∧ given (loadScalar 0x204160 8 false true false (s 3)) = some 3 := by decide +kernel
theorem wit_BytecodeSitesAndCalls : let s := bc (.bcAddS 1) ((0x200FF8, 9) :: (0x200FF0, 17) :: rec1 0x202080 0x0000000000000000 0x5000)
    s.myCc.siten = 4 ∧ (given (siteRead 0x202080 s)).map siteKind = some 1 ∧ 4 ≤ s.rqFree s.ccNo ∧ given (rd8 0x200FF0 s) = some 17 ∧ given (rd8 0x200FF8 s) = some 9 ∧
      (given (siteKey 17 (some 9) s)).isSome = true := by decide +kernel
theorem wit_BytecodeSitesAndCalls_callb : let f := [(0x204100, 7 + 3 * 2 ^ 32), (0x204110, 8 * 0x200100 + 1), (0x204118, 8 * 0x202000 + 1), (0x204120, 8 * (2 ^ 24 + 2 * 2 ^ 16 + 4) + 1)]
    let s := bc (.bcCallb 1) ((0x200FF8, 9) :: (0x200FF0, 0x204100) :: f)
    given (rd8 0x200FF0 s) = some 0x204100 ∧ given (rd8 0x204100 s) = some 0x300000007 ∧ given (rd8 0x204120 s) = some (8 * 0x1020004 + 1) ∧ given (rd8 0x200FF8 s) = some 9 ∧
      given (commit (([0x200008, 0x200FF0, 0x200800, 0x202000, 0x20004, 0, 0, 0x204100] ++ [9, 2]).mapIdx fun i w => .put (0x201000 + w64 (8 * i)) w) s) = some () := by
  decide +kernel
/-- A frame of one local whose caller stands at 0x200100. -/
theorem wit_BytecodeSitesAndCalls_ret : let fr := [(0x2007C0, 0x200108), (0x2007E0, 2 ^ 16 + 3), (0x2007C8, 0x200700), (0x2007D0, 0x200600), (0x2007D8, 0x202000), (0x200800, 9),
      (0x200808, 17), (0x2007F8, 0x204100)]
    let s := bc .bcRet (fr ++ obj 0x204100 5 0x29)
    let s := s.setMyCc { s.myCc with vsp := 0x200810 }
    given (rd8 0x2007C0 s) = some 0x200108 ∧ max 4 3 ≤ s.rqFree s.ccNo ∧ given (rd8 0x200808 s) = some 17 ∧ given (rd8 0x2007F8 s) = some 0x204100 ∧
      given (commit [.put 0x200700 17, .count 0x204100 false] s) = some () ∧ given (rd8 (0x200800 - 64) (bc .bcRet)) = some 0 := by decide +kernel
theorem wit_BytecodeSitesAndCalls_tlaunch : let s := bc (.bcTlaunch 1) ((0x200FF8, 2) :: (0x200FF0, 0x204100) :: (0x201FF0, 8 * 0x200040 + 1) :: tensor)
    let s := s.setMyCc { s.myCc with bufp := 0x209000, bufe := 0x20A000, argbase := 0x20B000 }
    4 ≤ s.rqFree s.ccNo ∧ given (rd8 0x201FF0 s) = some (8 * 0x200040 + 1) ∧ valueKind 2 = 2 ∧
      ((planned (portPlan (badVal 0x204100) (detourM 5 0 0 0) 0x200040 0x204100 (some 2)) s).map fun p =>
        (given (commit [.put 0x200FF0 p.2, .count 0x204100 false] p.1)).isSome) = some true := by decide +kernel

-- The machine's own steps, and the step itself

theorem wit_StepRunsDecodedInstruction : let i : Instr := .add (fr 1 2 3 0 1)
    let s := ready i []
    s.serving = true ∧ s.ckpt.stopped = false ∧ s.dueWaiter = none ∧ s.agenda = [] ∧ s.cur = .c 0 ∧ coreExists s.cur = true := by decide +kernel
/-- The placed word is fetched in each of the three modes, and decodes. -/
theorem wit_StepRunsDecodedInstruction_fetch : let i : Instr := .add (fr 1 2 3 0 1)
    let s := ready i []
    let b := bc (.bcLdi 5)
    let n := ready (.tagchk (fr 3 1 0 0)) []
    given (fetchWord s.me.pc .fetch s) = some (encode i) ∧ decode (encode i) = .ok i ∧ (s.core s.cur).run = some s.curX ∧ (s.core s.cur).halted = none ∧
      b.serving = true ∧ b.cur = .cc 0 ∧ (b.cc 0).bytecode = true ∧ (b.ctx (ctxKey (.cc 0) 0)).st = .running ∧
      given (fetchWord (b.cc 0).vpc .read b) = some (encode (.bcLdi 5)) ∧ decodeBytecode (encode (.bcLdi 5)) = .ok (.bcLdi 5) ∧
      n.cur = .cc 0 ∧ (n.cc 0).bytecode = false ∧ given (fetchWord n.me.pc .fetch n) = some (encode (.tagchk (fr 3 1 0 0))) := by decide +kernel
theorem test_step_runs : let s := ready (.addi (fi 1 2 5)) [(2, 7)]
    reg 1 (answer (step s)) = some 12 ∧ (answer (step s)).map (fun s => s.me.pc.toNat) = some 0x200008 := by decide +kernel
/-- The decoder's reserved words run as the trap of R293. -/
theorem test_step_reserved : trapOf (answer (step (handled (State.reset.withFetchWord 64 0x0000000000000001)))) = some (1, 1, 0x200000) := by decide +kernel
theorem wit_StepKeepsMemoryCanonical : Memory.wf (ready (.st (fm 8 3 0x40)) [(3, own 0), (8, 5)]).mem = true ∧
    (answer (step (ready (.st (fm 8 3 0x40)) [(3, own 0), (8, 5)]))).map (fun s => Memory.wf s.mem) = some true := by decide +kernel
theorem wit_StepKeepsMemoryCanonical_reset : Memory.wf State.reset.mem = true := by decide +kernel

-- Power and checkpoints

theorem wit_PowerEvents : let s := own' { n := 2 } fun s => { s with power := { s.power with pending := true, lowered := 1 } }
    s.serving = true ∧ s.service = .full ∧ s.power.pending = true ∧ 1 < s.power.clk ∧ 0 < s.power.lowered ∧ s.power.therm = false ∧ s.tierFailed = [] ∧
      s.evq = [] ∧ s.migrations = [] ∧ s.ckpt.status = 0 ∧ (own' {} fun s => { s with service := .reduced }).serving = true ∧
      Tbl.get 0 (own' {} fun s => { s with now := 2 ^ 26 }).scrubbed 2 + 2 ^ 26 ≤ 2 ^ 26 := by decide +kernel
theorem wit_PowerEvents_ckpt : let idle := own' {} fun s => { s with launches := [] }
    let one := own' {} id
    let st (x : Nat) := own' {} fun s => { s with launches := [], ckpt := { s.ckpt with status := x, seq := 1 } }
    idle.launches = [] ∧ idle.serving = true ∧ one.launches.length = 1 ∧ (one.launch 1).st = .running ∧ one.hasDependent 1 = false ∧ (st 1).serving = true ∧
      (st 2).ckpt.status = 2 ∧ (st 7).goodImage.launches = [] ∧ (st 7).goodImage.cells = [] ∧ (st 0).ckpt.seq ≠ 0 := by decide +kernel
theorem wit_PowerEvents_clocks : let s := own' {} fun s => { s with us := 600000000 }
    s.flashedAt + 600000000 ≤ s.us ∧ s.serving = true ∧ (own' {} id).us < (own' {} id).flashedAt + 600000000 ∧ s.hard = [] ∧
      (own' {} fun s => { s with ckpt := { s.ckpt with status := 7 } }).goodImage.refs = [] := by decide +kernel
/-- Every layout has at least eight scale-out ports. -/
theorem wit_PowerEvents_ports (s : State) : 2 < s.scaleOutPorts := by
  have h := Nat.one_le_two_pow (n := s.recorded Config.laneLayout Config.imageLaneLayout % 3)
  simp only [State.scaleOutPorts]
  omega
theorem wit_PowerEvents_registers : let s := own' { n := 0x1010, m := 8, v := 5, space := .bar0 }
    s.serving = true ∧ s.inp.m = 8 ∧ s.inp.space = .bar0 ∧ State.reset.service = .off ∧ State.reset.serving = false ∧
      (own' { n := 0x98, m := 8, space := .control 3 }).inp.space = .control 3 := by decide +kernel
theorem test_thermal : ((own'' .thermalThrottle {}).map fun s => (s.power.therm, s.power.cur, s.power.clk)) = some (true, 2, 11) := by decide +kernel
theorem test_power_on : ((answer (exec .powerOn State.reset)).map fun s => (s.service, s.power.cur, s.power.clk, (s.fw 15).up)) = some (.reduced, 2, 8, true) := by
  decide +kernel

-- Commands and queues

/-- A captured request in command slot 2. -/
def request (ws : List Word) (f : State → State := id) : State :=
  own' { n := 2 } fun s => let s := { f s with pasids := [1] }; s.setCmd 2 { s.cmd 2 with st := 1, cap := ws.mapIdx fun i w => (i, w) }
theorem test_mgo : ((own'' .mgo { n := 2 } fun s => s.setCmd 2 { s.cmd 2 with req := [(0, 6), (1, 9)] }).map fun s =>
    ((s.cmd 2).st, Tbl.get 0 (s.cmd 2).cap 1, s.evq.map fun e => (e.etype, e.arg0))) = some (1, 9, [(8, 2)]) := by decide +kernel
theorem test_pasid_en : ((answer (exec .pasidEn (request [6, 9]))).map fun s => (s.pasids, Tbl.get 0 (s.cmd 2).rsp 0)) = some ([9, 1], 0) ∧
    ((answer (exec .pasidEn (request [6, 1]))).map fun s => Tbl.get 0 (s.cmd 2).rsp 0) = some 1 ∧
    ((answer (exec .pasidEn (request [6 + 2 ^ 17, 9]))).map fun s => (s.pasids, Tbl.get 0 (s.cmd 2).rsp 0)) = some ([1], 254) := by decide +kernel
theorem test_ccstart : ((answer (exec .ccstart (request [0x20, 0x103, 1, 0x200000, 0x206000]))).map fun s =>
    ((s.cc 3).on, (s.cc 3).bytecode, (s.ctx (ctxKey (.cc 3) 0)).pc, (s.ctx (ctxKey (.cc 3) 0)).gReg 14)) = some (true, false, 0x200000, 0x206000) := by decide +kernel
theorem wit_CommandEvents : let s := request [6, 9]
    s.serving = true ∧ (s.cmd 2).st = 1 ∧ (s.cmd 2).served = false ∧ (Tbl.get 0 (s.cmd 2).cap 0).toNat = 6 ∧ Tbl.get 0 (s.cmd 2).cap 1 &&& ~~~0xFFFFF = 0 ∧
      9 ∉ s.pasids ∧ s.enabled 1 = true ∧ s.evq = [] ∧ (own' { n := 2 }).serving = true ∧ ((own' { n := 2 }).cmd 2).st = 0 := by decide +kernel

/-- Queue 3 of PASID 1, 64 entries at 0x208000, completions at 0x20A000, active in slot 0. -/
def queue3 (u : UQueue := {}) (s : State) : State :=
  let e : Tlb := { agent := 0x1100, pasid := 1, va := probeVa.toNat, huge := false, leaf := probeLeaf, leafDpa := 0 }
  let r : BitVec 256 := BitVec.ofNat 256 (6 * 2 ^ 39 + 2 ^ 44 + 0x208000 * 2 ^ 64 + 0x20A000 * 2 ^ 192)
  (({ s with tlb := e :: s.tlb, pasids := [1] }.setQueue 3 { u with record := r, state := 1 }).setSlot 0 { st := 2, qid := 3 }).setQdir 3 0x102
theorem wit_CommandEvents_queues : let s := request [3, 3] (queue3 {})
    (s.queue 3).state = 1 ∧ (Tbl.get 0 (s.cmd 2).cap 1).toNat % 2 ^ 12 = 3 ∧ s.queueWorks 3 = false ∧ (s.queue 4).state = 0 ∧
      ((request [4, 3] fun s => (queue3 {} s).setQueue 3 { (queue3 {} s).queue 3 with state := 2 }).queue 3).state = 2 ∧ (s.queue 0).state = 0 ∧
      (request [1, 2 ^ 44 + 6 * 2 ^ 39, 0x208000, 0, 0x20A000]).enabled 1 = true := by decide +kernel
theorem wit_CommandEvents_more : let h : Handle := { handle := 5, pasid := 1, templates := [], sections := [] }
    let w : RWin := { pasid := 1, base := 0x200000, len := 0x10000, put := true, get := false, any := true, modId := 0 }
    let s := request [0x31, 0x10007] fun s => { s with handles := [h], rwins := Tbl.put s.rwins 7 w }
    s.serving = true ∧ Tbl.find s.rwins 7 = some w ∧ s.windowUsed 7 = false ∧ s.idle 1 = true ∧ (s.cc 0).on = false ∧ s.ckpt.stopped = false ∧
      (request [0x07, 1] fun s => s.setCmd 2 { s.cmd 2 with begun := true }).serving = true ∧ ((request [0x20, 0, 1, 4]).cc 0).on = false := by decide +kernel
/-- The release of PASID 1 is complete when nothing of it is left. -/
theorem wit_CommandEvents_released : let s := request [0x07, 9]
    let s := s.setCmd 2 { s.cmd 2 with begun := true }
    s.serving = true ∧ (s.cmd 2).begun = true ∧ (s.launches.all fun e => e.2.pasid ≠ 9) = true ∧ s.copies = [] ∧ s.atsInv = [] ∧ s.queues = [] := by decide +kernel

/-- A launch packet of id 0x77 for the tile (5, 0). -/
def packet : BitVec 512 := BitVec.ofNat 512 (1 + 0x200040 * 2 ^ 192 + 5 * 2 ^ 344 + 2 ^ 360 + 2 ^ 368 + 0x77 * 2 ^ 376)
def window (p : BitVec 512) (st : Option Nat := none) : UQueue := { ridx := 1, widx := 1, win := [(0, { idx := 0, pkt := p, status := st })] }
theorem test_doorbell : ((own'' .doorbell { n := 3, v := 5 } (queue3 {})).map fun s => ((s.queue 3).widx, (s.queue 3).state)) = some (5, 1) ∧
    ((own'' .doorbell { n := 3, v := 65 } (queue3 {})).map fun s => ((s.queue 3).state, (s.queue 3).err)) = some (2, 9) := by decide +kernel
theorem test_packet_fetch : ((own'' .packetFetch { n := 3 } fun s => queue3 { widx := 1 } (inPage [(0x208000, 3 + 0x55 * 2 ^ 32), (0x208018, 9)] s)).map fun s =>
    ((s.queue 3).ridx, (s.queue 3).win.map fun e => (e.1, pkType e.2.pkt))) = some (1, [(0, 3)]) := by decide +kernel
theorem test_packet_complete : word 0x20A000 (own'' .packetComplete { n := 3, m := 0 } (queue3 (window (BitVec.ofNat 512 (3 + 0x800 + 0x55 * 2 ^ 32)) (some 0)))) = some 1 ∧
    word 0x20A008 (own'' .packetComplete { n := 3, m := 0 } (queue3 (window (BitVec.ofNat 512 (3 + 0x800 + 0x55 * 2 ^ 32)) (some 0)))) = some 0x55 := by decide +kernel
theorem wit_QueueEvents : let s := own' { n := 3, v := 5 } (queue3 {})
    s.serving = true ∧ (s.queue 3).state = 1 ∧ (5 : BitVec 32) ≠ (s.queue 3).widx ∧ (s.queue 3).size = 64 ∧ ((own' { n := 4 }).queue 4).state = 0 := by decide +kernel
theorem wit_QueueEvents_fetch : let s := own' { n := 3 } (queue3 { widx := 1 })
    s.serving = true ∧ s.ckptBusy = false ∧ s.active 3 = true ∧ (s.queue 3).widx ≠ (s.queue 3).ridx ∧ (s.queue 3).win = [] ∧ (s.queue 3).ridxWb = 0 ∧ (s.queue 3).failedWb = [] ∧
      (s.agentWords (workOf 0x1100 6) 1 0x208000 8).1 = .ok (List.replicate 8 0, false) ∧
      (s.agentWords (workOf 0x1100 6) 1 0x208000 8).2.saving 3 = false ∧
      ((own' { n := 3 } fun s => { queue3 { widx := 1 } s with tlb := [] }).agentWords (workOf 0x1100 6) 1 0x208000 8).1.toOption.isSome = false := by decide +kernel
theorem wit_QueueEvents_launch : let s := own' { n := 3, m := 0 } fun s => { queue3 (window packet) s with tmplCache := [(1, 0x200040, probeTmpl)] }
    s.serving = true ∧ (s.packetBid 3 0).map (fun b => b.tiles) = some [5] ∧ ((s.packetBid 3 0).map fun b => s.granted b && !s.leavesCd0 b.tiles) = some true ∧
      s.olderGranted 3 { idx := 0, pkt := packet } = false ∧ s.liveLaunch 1 0x77 = none ∧ (s.launchTmpl (workOf 0x1100 6) 1 0x200040 []).1 = (.ok probeTmpl, none) := by decide +kernel
/-- A copy packet, a fence and a set packet. -/
theorem wit_QueueEvents_kinds : let s (p : Nat) := own' { n := 3, m := 0 } (queue3 (window (BitVec.ofNat 512 p)))
    ((s 3).packetBid 3 0).map (fun b => (s 3).granted b) = some true ∧ ((s 4).packetBid 3 0).map (fun b => (s 4).granted b) = some true ∧
      (s 2).serving = true ∧ ((s 2).packetBid 3 0).map (fun b => b.streamer.isSome) = some true := by decide +kernel
theorem wit_QueueEvents_complete : let p : BitVec 512 := BitVec.ofNat 512 (3 + 0x800 + 0x55 * 2 ^ 32)
    let s := own' { n := 3, m := 0 } (queue3 (window p (some 0)))
    s.serving = true ∧ Tbl.find (s.queue 3).win 0 = some { idx := 0, pkt := p, status := some 0 } ∧ p.getLsbD 10 = false ∧ p.getLsbD 11 = true ∧
      (s.agentKey (workOf 0x1100 6) 1 0x20A000 16 .write).1 = .key 0x20A000 ∧ (s.queue 3).failedWb = [] ∧ (BitVec.ofNat 512 3).getLsbD 11 = false := by decide +kernel
theorem wit_QueueEvents_fence : let p : BitVec 512 := BitVec.ofNat 512 (4 + 0x200000 * 2 ^ 192 + 64 * 2 ^ 256)
    let s := own' { n := 3, m := 0 } fun s => { queue3 (window p) s with fences := [(3, 0)] }
    s.serving = true ∧ (3, 0) ∈ s.fences ∧ (Tbl.find (s.queue 3).win 0).isSome = true ∧ p.getLsbD 10 = false ∧ p.getLsbD 11 = false := by decide +kernel
theorem wit_QueueEvents_firmware : let s := own' { n := 0, m := 1, v := 3 } fun s => { (queue3 {} s).setSlot 0 { st := 2, qid := 3, idleSince := some 0 } with now := 2 ^ 24 }
    let f := s.setFw 0 { s.fw 0 with up := true, handling := true, timers := [(1, { period := 5, since := 0 })] }
    let e : Event := { etype := 1, qid := some 3, arg0 := 0, arg1 := 0, arg2 := 0, seq := 0 }
    let t := ({ s with us := 5, evq := [e] } : State).setFw 0 { s.fw 0 with up := true, taking := true }
    f.serving = true ∧ (f.slot 0).idleSince = some 0 ∧ (f.queue 3).win = [] ∧ (f.fw 0).handling = true ∧ (f.fw 0).takenAt + 2 ^ 24 ≤ f.now ∧
      t.evq = [e] ∧ t.evHeld = [] ∧ t.locked 3 = false ∧ (t.fw 0).taking = true ∧ Tbl.find (f.fw 0).timers 1 = some { period := 5, since := 0 } := by decide +kernel
theorem wit_QueueEvents_slots : let free := own' { n := 0, v := 3 * 1024 + 16 } fun s => (queue3 {} s).setQdir 3 0x100
    let lock := free.setFw 0 { free.fw 0 with locks := [3] }
    (free.slot 1).st = 0 ∧ (free.qdirOf 3).getLsbD 8 = true ∧ (free.qdirOf 3).getLsbD 1 = false ∧ (free.fw 0).locks = [] ∧ (lock.fw 0).locks.contains 3 = true ∧
      (own' { n := 0 } (queue3 {})).slot 0 = { st := 2, qid := 3 } ∧ free.locked 3 = false ∧
      (own' { n := 0 } (queue3 { fetching := true })).serving = true ∧ ((own' { n := 0 } (queue3 { fetching := true })).queue 3).fetching = true := by decide +kernel

-- Translation

theorem test_ticket_fail : ((own'' .xfDoneFail { n := 0, v := 9 } fun s => { running 2 s with
    tickets := [(9, { page := 32, pasid := 1, agent := 0, access := 0, core := false })], copies := [(5, { (running 2 s).copy 5 with ticket := some 9, st := .frozen })] }).map fun s => (s.tickets.length, (s.copy 5).st, (s.copy 5).err)) =
    some (0, .aborting, 5) := by decide +kernel
theorem wit_MemoryEvents_tickets : let x : Ticket := { page := 32, pasid := 1, agent := 0, access := 0, core := false, pri := some 0 }
    let s := own' { n := 9, v := 9 } fun s => { s with tickets := [(9, x)], us := 100000 }
    s.serving = true ∧ (s.ccs.all fun e => e.2.orphans.isEmpty) = true ∧ s.ticketNo 9 = some 9 ∧ Tbl.find s.tickets 9 = some x ∧ s.copies = [] ∧ (own' { n := 9, v := 8 }).ticketNo 8 = none := by decide +kernel
theorem wit_MemoryEvents_host : let s := own' { n := 9, v := 0x200000, u := 64 } fun s => { s with ats := [(9, { pasid := 1, va := 0x300000, agent := 0 })] }
    s.serving = true ∧ s.invalidated 1 0x300000 = false ∧ s.sdCount = 0 ∧ s.atsInv = [] ∧
      (({ s with atsInv := [(3, { pasid := 1, va := 0x300000, len := 65536 })] } : State).invalidated 1 0x300000) = true := by decide +kernel
theorem wit_MemoryEvents_shootdowns : let d : Shootdown := { id := 9, pasid := 1, va := 0x200000, npages := 1, fc := some 0 }
    let s := own' { n := 9, v := 9, data := [0] } fun s => { s with shootdowns := [(9, d)], now := 16384 }
    let m : State := { s with shootdowns := [(9, { d with missing := [0], timeouts := 1, sent := false })] }
    s.serving = true ∧ Tbl.find s.shootdowns 9 = some d ∧ s.migPending d = false ∧ d.since + 16384 ≤ s.now ∧ s.evq = [] ∧
      s.shootdowns.find? (fun e => e.2.id = 9) = some (9, d) ∧ (own' { n := 0, v := 1 }).fcRecord 0 1 32 = (.bad, own' { n := 0, v := 1 }) ∧
      d.sent = true ∧ (s.inp.data.map BitVec.toNat).eraseDups.filter s.mayDelay = [0] ∧ s.atsInv = [] ∧ m.evq.length < 4096 ∧
      m.shootdowns.find? (fun e => e.2.id = 9) = some (9, { d with missing := [0], timeouts := 1, sent := false }) := by decide +kernel
/-- The firmware's page of records, and page tables with the leaf of 0x200000 at 0x20C000. -/
def fcPage (ws : List (Nat × Nat)) (s : State) : State :=
  inPage ws { s with tlb := { agent := 0x1080, pasid := 0, va := probeVa.toNat, huge := false, leaf := probeLeaf, leafDpa := 0 } :: s.tlb }
theorem wit_MemoryEvents_requests : let s := own' { n := 0, v := 0x200040 } (fcPage [(0x200040, 2 ^ 44), (0x200048, 0x200000), (0x200050, 0x200000), (0x200058, 0x400000)])
    s.serving = true ∧ (s.fcRecord 0 0x200040 32).1 = .ok (2 ^ 44 + 0x200000 * 2 ^ 64 + 0x200000 * 2 ^ 128 + 0x400000 * 2 ^ 192) ∧ s.sdCount = 0 ∧
      ((s.fcRecord 0 0x200040 32).2.leafOf 1 0x200000).1 = none ∧ leafLoc probeLeaf = 0 ∧ leafMig probeLeaf = false ∧ s.newFrameOk 0x400000 0 0 false = true := by
  decide +kernel
theorem wit_MemoryEvents_leaf : let s := own' {} fun s =>
      { inPage [(0x20C008, 0x20D001), (0x20D000, 0x20E001), (0x20E000, 0x210001), (0x210000, 0x211001), (0x211100, probeLeaf.toNat)] s with ptabBase := 0x20C000 }
    (s.leafOf 1 0x200000).1 = some (probeLeaf, 0x211100, false) ∧ 0x211100 % 8 = 0 := by decide +kernel
theorem wit_MemoryEvents_migrations : let m : Migration := { pasid := 1, va := 0x200000, leafDpa := 0x600000, oldFrame := 0x200000, newFrame := 0x400000, refused := [(3, 1)] }
    let s := own' { n := 9, m := 0x1100 } fun s => { queue3 {} s with migrations := [(9, m)] }
    let t := own' { n := 9, m := 0x1100 } fun s => { s with migrations := [(9, { m with stage := 2, leafDpa := 0 })], tlb := [{ agent := 0x1100, pasid := 1, va := 0x200000, huge := false, leaf := probeLeaf, leafDpa := 0 }] }
    s.serving = true ∧ Tbl.find s.migrations 9 = some m ∧ m.redirected = [] ∧ s.sdCount = 0 ∧ Memory.wf s.mem = true ∧ m.leafDpa % 8 = 0 ∧ m.newFrame + m.size ≤ m.leafDpa ∧
      (m.queued.filter s.accessLive).length < 256 ∧ t.serving = true ∧ leafFrame probeLeaf = 0x200000 := by decide +kernel

-- Strands and messages

/-- The C-core of tile 0 with these fields. -/
def core0 (f : CoreSt → CoreSt) (s : State) : State := s.setCore (.c 0) (f (s.core (.c 0)))
/-- A Blocked context 2 of that core. -/
def blocked (w : Await) (i : Option Instr) (s : State) : State :=
  s.setCtx (ctxKey (.c 0) 2) { s.ctx (ctxKey (.c 0) 2) with st := .blocked, await := w, waitAt := i, launch := 1, live := 0xFFFF, pc := probeVa }
theorem test_dispatch : ((own'' .dispatch { core := .c 0 } fun s => (core0 (fun c => { c with run := none, runq := [
    { ctx := 3, level := 0, since := 0 }, { ctx := 4, level := 2, since := 0 }] }) ((s.setCtx (ctxKey (.c 0) 3) { s.ctx 0 with st := .ready }).setCtx (ctxKey (.c 0) 4)
    { s.ctx 0 with st := .ready }))).map fun s => ((s.core (.c 0)).run, (s.core (.c 0)).runq.map RunEntry.ctx)) = some (some 4, [3]) := by decide +kernel
theorem wit_StrandEvents_runqueue : let r (l : Nat) : RunEntry := { ctx := 3, level := l, since := 0 }
    let s := own' { core := .c 0, n := 3 } fun s => { core0 (fun c => { c with run := none, runq := [r 0] }) (s.setCtx (ctxKey (.c 0) 3) { s.ctx 0 with st := .ready }) with now := 16384 }
    let t := own' { core := .c 0 } fun s => { core0 (fun c => { c with run := some 0, runq := [r 0] }) (s.setCtx (ctxKey (.c 0) 3) { s.ctx 0 with st := .ready }) with now := 16384 }
    s.serving = true ∧ (s.core (.c 0)).run = none ∧ (s.core (.c 0)).halted = none ∧ (s.core (.c 0)).runq = [r 0] ∧ (s.ctx (ctxKey (.c 0) 3)).st = .ready ∧
      (s.core (.c 0)).runq.find? (fun d => d.ctx = 3) = some (r 0) ∧ t.serving = true ∧ (t.core (.c 0)).run = some 0 ∧ (t.core (.c 0)).runSince + 16384 ≤ t.now := by
  decide +kernel
/-- What a woken context leaves: its instruction run again. -/
theorem wit_StrandEvents_wakes : let i : Instr := .bwait (fr 1 4 2 10)
    let s := own' { n := ctxKey (.c 0) 2 } (blocked .refusals (some i))
    let b := own' { n := ctxKey (.c 0) 2 } fun s => blocked (.barrier (poolKey 0 0x100) (some 5)) (some i) (barrier 1 { s with now := 6 })
    s.serving = true ∧ (s.ctx (ctxKey (.c 0) 2)).st = .blocked ∧ (s.ctx (ctxKey (.c 0) 2)).waitAt = some i ∧ decode (encode i) = .ok i ∧
      (answer (exec i (({ s with cur := .c 0, curX := 2 } : State).setCtx (ctxKey (.c 0) 2) { s.ctx (ctxKey (.c 0) 2) with st := .running }))).isSome = true ∧
      b.serving = true ∧ (b.bar (poolKey 0 0x100)).phase = 2 ∧ ((b.ctx (ctxKey (.c 0) 2)).gReg 4).toNat % 16 = 0 ∧
      (own' { n := ctxKey (.c 0) 2 } (blocked (.ticket 9) none)).tickets = [] := by decide +kernel
/-- A message of two words from tile 0's A-core to its C-core; mailbox 1 armed for strands at 0x3000, or for the ring at 0x200. -/
def message (k : MsgKind) (c : Word) (s : State) : State := (core0 (fun x => { x with mbcfg := [(1, c)], mbpc := [(1, 0x3000)] }) s).setMsg 9 {
  kind := k, launch := 1, mbox := 1, payload := [7, 8], carried := if k = .hop then some { pc := 0x4000, live := 0x4001, g := [(0, 5)], strandId := 3, launch := 1 } else none
  srcCtx := 1 }
theorem test_task_message : ((own'' .taskMessageArrival { n := 9 } (message .task 1)).map fun s => let y := s.ctx (ctxKey (.c 0) 1)
    (s.msgs.length, y.st, y.pc, y.live, (y.gReg 1).toNat, y.prio)) = some (0, .ready, 0x3000, 0x4003, 8, 1) := by decide +kernel
theorem test_data_message : ((own'' .dataMessageArrival { n := 9 } fun s => message .data 0x200003 (ringAt 2 0 s)).map fun s =>
    (s.msgs.length, Memory.read s.mem (poolKey 0 0x408) 8, (s.ring (poolKey 0 0x200)).filled)) = some (0, 8, 1) := by decide +kernel
theorem test_hop_message : ((own'' .hopMessageArrival { n := 9 } (message .hop 1)).map fun s => let y := s.ctx (ctxKey (.c 0) 1)
    (y.st, y.pc, (y.gReg 0).toNat, y.strandId)) = some (.ready, 0x4000, 5, 3) := by decide +kernel
theorem wit_StrandEvents_messages : let m : Msg := Tbl.get {} (message .task 1 (ready popq [])).msgs 9
    let s := own' { n := 9 } (message .task 1)
    s.serving = true ∧ s.deliverable 9 m = true ∧ m.target = .c 0 ∧ s.freeCtx (.c 0) 1 = some 1 ∧ s.admits (.c 0) 1 (s.noticed 9 m) = true ∧ (s.launch 1).st ≠ .stopping ∧
      (s.core (.c 0)).ctxList = [] ∧ s.evq = [] ∧ (own' { n := 9 } (message .task 0)).serving = true := by decide +kernel
/-- No context free: every one of the launch's slices in use. -/
theorem wit_StrandEvents_listed : let s := own' { n := 9 } fun s => (List.range 32).foldl (fun s x => s.setCtx (ctxKey (.c 0) x) { s.ctx (ctxKey (.c 0) x) with st := .ready }) (message .task 1 s)
    s.serving = true ∧ s.freeCtx (.c 0) 1 = none ∧ (s.core (.c 0)).listing 9 1 = none ∧ (s.core (.c 0)).ctxList.length < 64 := by decide +kernel
theorem wit_StrandEvents_data : let s := own' { n := 9 } fun s => message .data 0x200003 (ringAt 2 0 s)
    let h := s.ring (poolKey 0 0x200)
    s.serving = true ∧ h.ok (s.spadBytes 0) = true ∧ 16 ≤ 2 ^ h.slotlg ∧ h.free ≠ 0 ∧ s.ringSt (poolKey 0 0x200) = {} ∧ h.slotOff h.tailSlot = 0x400 ∧
      s.dataHeld (Tbl.get {} s.msgs 9) = false ∧ poolKey 0 0x200 % 8 = 0 ∧ s.isPoison (poolKey 0 0x200 / 8 + 1) = false ∧ s.hard = [] ∧
      s.isPoison (poolKey 0 0x200 / 8) = false := by decide +kernel
theorem wit_StrandEvents_notices : let s := own' { core := .c 0 } fun s => core0 (fun c => { c with ctxList := [{ msg := 9, reservedUntil := none }] }) (message .task 1 s)
    let t := own' { core := .c 0, n := 9 } fun s => { core0 (fun c => { c with ctxList := [{ msg := 9, reservedUntil := some 5 }] }) (message .task 1 s) with now := 6 }
    let r := own' { core := .c 0, n := 1 } fun s => State.setRingSt (core0 (fun c => { c with ringList := [(1, [{ msg := 9, reservedUntil := none }])] })
      (message .data 0x200003 (ringAt 2 0 s))) (poolKey 0 0x200) { waiting := [claimMsg 9] }
    s.serving = true ∧ s.isProducer 1 0 = false ∧ s.mayHold (.c 0) 1 = true ∧ s.reserved (.c 0) < s.freeCount (.c 0) 1 ∧ t.serving = true ∧
      (t.core (.c 0)).ringList = [] ∧ r.serving = true ∧ (r.ring (poolKey 0 0x200)).free ≠ 0 ∧
      ((r.ringSt (poolKey 0 0x200)).waiting.filter r.claimLive).head? = some (claimMsg 9) := by decide +kernel
theorem wit_StrandEvents_resend : let s := own' { n := 9 } fun s => { s with msgs := [(9, { st := .unlisted 0 })], now := 2048 }
    s.serving = true ∧ Tbl.find s.msgs 9 = some { st := .unlisted 0 } ∧ 0 + 2048 ≤ s.now := by decide +kernel

-- Launches

/-- Launch 1 halted, or in another state, of another origin. -/
def launch1 (f : Launch → Launch) (s : State) : State := { (s.setCtx 0 {}).setCtx (ctxKey (.c 0) 0) {} with launches := [(1, f (s.launch 1))] }
theorem test_launch_complete : ((own'' .launchComplete { n := 1 } (launch1 fun l => { l with origin := .tile 0 1 none 0 })).map fun s => (s.launches.length, (s.tile 0).runs)) =
    some (0, []) := by decide +kernel
theorem wit_LaunchEvents_retire : let s := own' { n := 1 } (launch1 fun l => { l with origin := .tile 0 1 none 0 })
    let p := own' { n := 1 } (launch1 fun l => { l with origin := .packet 3 0 })
    let f := own' { n := 1 } (launch1 fun l => { l with st := .faulted, status := 4, origin := .tile 0 1 none 0x200080 })
    s.serving = true ∧ (s.launch 1).st = .running ∧ s.halted 1 = true ∧ s.quiet 1 = true ∧ p.halted 1 = true ∧ f.serving = true ∧ f.copies = [] ∧
      ((queue3 {} f).agentKey (workOf 0x1100 3) 1 0x200080 8 .write).1 = .key 0x200080 ∧ (own' { n := 1 }).halted 1 = false := by decide +kernel
theorem wit_LaunchEvents_port : let e : Tlb := { agent := 0x1040, pasid := 1, va := probeVa.toNat, huge := false, leaf := probeLeaf, leafDpa := 0 }
    let s := own' { n := 1 } fun s => { launch1 (fun l => { l with origin := .port 0 4 0x204000 [] [] 0 }) s with tlb := [e] }
    s.serving = true ∧ s.halted 1 = true ∧ s.quiet 1 = true ∧ (s.agentKeys 0x1040 1 8 .atomic [0x204060]).1 = .ok [some 0x204060] ∧
      ((s.agentKeys 0x1040 1 8 .atomic [0x204060]).2.cc 0).orphans = [] := by decide +kernel
/-- A launch that waits, from a port and from a tile: with its template held and granted, without a handle. -/
theorem wit_LaunchEvents_starts : let l : Launch := { id := 9, pasid := 1, x0 := 5, tmplAddr := 0x200040, origin := .tile 0 1 (some 4096) 0 }
    let s := own' { n := 7 } fun s => { s.setLaunch 7 l with
      tmplCache := [(1, 0x200040, probeTmpl)], handles := [{ handle := 5, pasid := 1, templates := [0x200040], sections := [] }] }
    let t := own' { n := 7 } fun s => s.setLaunch 7 l
    s.serving = true ∧ s.holdsTmpl 1 0x200040 = true ∧ (s.launchBid 7).map (fun b => (b.tiles, s.granted b, s.leavesCd0 b.tiles)) = some ([5], true, false) ∧
      (s.launchTmpl (workOf 0x1100 15) 1 0x200040 []).1 = (.ok probeTmpl, none) ∧ t.holdsTmpl 1 0x200040 = false ∧
      ((own' { n := 7 } fun s => s.setLaunch 7 { l with origin := .port 0 4 0x204000 [] [1] 0 }).launchBid 7) = none := by decide +kernel
theorem wit_LaunchEvents_retention : let s := own' { n := 0 } fun s => { onTile0 (fun t => { t with retained := some { spb := 0, succ := 1, pasid := 1, since := 0 } }) s with us := 10000 }
    s.serving = true ∧ (s.tile 0).retained = some { spb := 0, succ := 1, pasid := 1, since := 0 } ∧ 0 + 10000 ≤ s.us ∧ (s.tile 0).runs ≠ [] ∧
      ((onTile0 (fun t => { t with runs := [] }) s).tile 0).runs = [] := by decide +kernel
/-- A drain descriptor for launch 1, whose id is 1, with a grace of 5 and its save area in HBM. -/
theorem wit_LaunchEvents_drain : let d := [(0x200040, 2 ^ 44), (0x200048, 1), (0x200050, 5), (0x200058, 0x400000)]
    let s := own' { n := 0, v := 0x200040 } (fcPage d)
    let r := (s.fcRecord 0 0x200040 32).1
    s.serving = true ∧ r = .ok (2 ^ 44 + 2 ^ 64 + 5 * 2 ^ 128 + 0x400000 * 2 ^ 192) ∧ s.liveLaunch 1 1 = some 1 ∧ s.liveLaunch 1 2 = none ∧
      s.hasDependent 1 = false ∧ s.saveOk (s.launch 1) 0x400000 = true ∧ s.saveOk (s.launch 1) 8 = false := by decide +kernel
theorem wit_LaunchEvents_saved : let s := own' { n := 1 } fun s => { launch1 (fun l => { l with st := .saved, save := 0x400000 }) s with saved := [(1, {})], tiles := [] }
    s.serving = true ∧ (s.launch 1).st = .saved ∧ s.areaIntact 1 = true ∧ s.rectFree (s.launch 1).tilesOf none none = true := by decide +kernel
theorem wit_LaunchEvents_stop : let s (st : LaunchState) := own' { n := 1 } fun s => s.setLaunch 1 { s.launch 1 with st := st }
    (s .draining).serving = true ∧ Tbl.find (s .draining).launches 1 = some ((s .draining).launch 1) ∧ ((s .draining).launch 1).grace ≤ (s .draining).us ∧
      (s .stopping).settled 1 = true ∧ ((s .stopping).launch 1).drainFc < 16 ∧ ((s .resuming).launch 1).st = .resuming := by decide +kernel

-- What waits, fails or is queued: witnesses for those clauses

/-- A vadd of f0 and f1 to f2 captured in the engine's queue. -/
def heldAdd (src : List VecSrc := []) : VecCmd := { ctx := 0, flags := 0, launch := 1, stage := .held { i := .vadd vop, dst := .f 2, src := src, act := 7, vl := 3 } }
theorem wit_IssueChecks_vector : let i : Instr := .vmov (fr 0x14 0x12 0 0)
    let s := ready i []
    let t := s.setTile 0 { s.tile 0 with vecQ := [heldAdd] }
    i.pred.isSome = true ∧ decodeTrap i t = none ∧ vecWait i t = true ∧ vecWait i s = false := by decide +kernel
theorem wit_AtomicResults_release : ∀ o ∈ [2, 3], let op : Instr := .amadd (fm 8 3 0x40 3 o)
    let s := ready op [(3, own 0)]
    issues op s = true ∧ given (place (w64 (own 0x40)) 8 .atomic s.atNpc) = some (.key (poolKey 0 0x40) none) := by decide +kernel
theorem wit_EngineEvents_vector : let v (q : List VecCmd) := own' { n := 0, engine := .vector } (onTile0 fun t => { t with vecQ := q })
    let h := heldAdd [.val (VReg.ofFn fun _ => (1, false)), .val (VReg.ofFn fun _ => (2, false))]
    let o : VecOps := { i := .vadd vop, dst := .f 2, src := [.win 24 0, .val {}], act := 7, vl := 3 }
    let w := own' { n := 0, engine := .vector } fun s => onTile0 (fun t => { t with vecQ := [heldAdd o.src] }) ((stream 0 s).setStrm 0 24
      { (stream 0 s).strm 0 24 with launch := 1, fetched := [], desc := BitVec.ofNat 512 (0x900000 + 2 ^ 112 + 2 ^ 176 + 2 ^ 240 + 10 * 2 ^ 256) })
    let q := (v [{ ctx := 0, flags := 0, stage := .own 7 }]).setCtx 0 { (v []).ctx 0 with line := some 7 }
    (v [h]).serving = true ∧ (v [h]).vecEntries 0 = [h] ∧ ((v [h]).tile 0).vecRun = none ∧ w.serving = true ∧ (w.vecEntries 0).length = 1 ∧
      heldAdd o.src = { heldAdd with stage := .held o } ∧ (w.opsFill 0 o).opsReady 0 o = false ∧
      q.serving = true ∧ q.vecEntries 0 = [{ ctx := 0, flags := 0, stage := .own 7 }] ∧ (own' {} (onTile0 fun t => { t with vecRun := some h })).serving = true := by
  decide +kernel
/-- A stride of 0: the second row reads the words that the first has still to read. -/
theorem wit_EngineEvents_behind : let c : LoadCmd := { load22 with b := 0, started := true, issued := 1 }
    let s := own' { n := 0, m := 1 } (onTile0 fun t => { t with loadQ := [c] })
    s.serving = true ∧ 1 ∈ c.rows ∧ c.mayIssue 1 = true ∧ s.rowBehind 0 c 1 = true ∧ s.rowBehind 0 c 0 = false := by decide +kernel
/-- Two rows of 16 FP4 elements with their scale: the first ends within a word, which goes out with the second. -/
theorem wit_EngineEvents_carry : let c : MatCmd := { id := 1, kind := .accwb, acc := 0, row := 2, rows := [0, 1], ty := 14, mode := 1, addr := w64 (own 0x100), launch := 1, pasid := 1 }
    let d : MatCmd := { c with rows := [1], carry := [(0, false), (0, false)] }
    let s (c : MatCmd) := own' { n := 0 } (onTile0 fun t => { t with matRun := some c })
    (s c).serving = true ∧ c.ticket = none ∧ c.failed = false ∧ wbWidth 14 16 % 8 = 2 ∧ (s c).acc 0 0 = {} ∧
      ((s c).engAccess 0 0 false 1 c.addr (wbWidth 14 16) .write (matWork 0 1)).1 = .ok [(poolKey 0 0x100, wbWidth 14 16, none)] ∧
      ((s d).engAccess 0 0 false 1 (d.addr + w64 (wbWidth 14 16 - 2)) (wbWidth 14 16 + 2) .write (matWork 0 1)).1 =
        .ok [(poolKey 0 (0x100 + wbWidth 14 16 - 2), wbWidth 14 16 + 2, none)] := by decide +kernel

/-- A launch packet of queue 3 whose template does not translate, one whose template read has failed, and one that a poisoned template ends. -/
theorem wit_QueueEvents_template : let p : BitVec 512 := BitVec.ofNat 512 (1 + 0x900000 * 2 ^ 192 + 5 * 2 ^ 344 + 2 ^ 360 + 2 ^ 368 + 0x77 * 2 ^ 376)
    let s := own' { n := 3, m := 0 } (queue3 (window p))
    let r := s.launchTmpl (workOf 0x1100 6) 1 0x900000 []
    let f := s.launchTmpl (workOf 0x1100 6) 1 0x900000 [0x90]
    s.serving = true ∧ ((s.packetBid 3 0).map fun b => s.granted b && !s.leavesCd0 b.tiles) = some true ∧ r.1.1 = .later ∧ r.1.2.isSome = true ∧ r.2.queues = s.queues ∧
      f.1 = (.bad, none) ∧ f.2.queues = s.queues ∧ s.liveLaunch 1 0x77 = none := by decide +kernel
theorem wit_QueueEvents_live : let s := own' { n := 3, m := 0 } fun s => queue3 (window packet) (s.setLaunch 1 { s.launch 1 with id := 0x77 })
    s.serving = true ∧ (s.packetBid 3 0).isSome = true ∧ s.liveLaunch 1 0x77 ≠ none := by decide +kernel
/-- A fetch whose own ticket has failed, and one whose index write-back has. -/
theorem wit_QueueEvents_failed : let s := own' { n := 3 } (queue3 { widx := 1, failed := [0x20] })
    let w := own' { n := 3 } fun s => let s := queue3 { widx := 1, failedWb := [0x21] } s
      s.setQueue 3 { s.queue 3 with record := BitVec.ofNat 256 ((s.queue 3).record.toNat + 0x210000 * 2 ^ 128) }
    let r := w.agentWords (workOf 0x1100 6) 1 0x208000 8
    s.serving = true ∧ s.active 3 = true ∧ (s.queue 3).ring = 0x208000 ∧ (0x208000 / 65536) ∈ (s.queue 3).failed ∧ w.serving = true ∧ (w.queue 3).ridxWb = 0x210000 ∧
      (w.queue 3).failed = [] ∧ r.1 = .ok (List.replicate 8 0, false) ∧ r.2.queues = w.queues ∧ r.2.mem = w.mem := by decide +kernel
/-- A completion record whose ticket has failed. -/
theorem wit_QueueEvents_record : let p : BitVec 512 := BitVec.ofNat 512 (3 + 0x800 + 0x55 * 2 ^ 32)
    let s := own' { n := 3, m := 0 } (queue3 { window p (some 0) with win := [(0, { idx := 0, pkt := p, status := some 0, failed := [0x20] })] })
    s.serving = true ∧ (Tbl.find (s.queue 3).win 0).map (fun e => (e.failed, e.ticket)) = some ([0x20], none) ∧ ((s.queue 3).cpl + 16 * 0) / 65536 = 0x20 := by decide +kernel

theorem wit_MemoryEvents_huge : let x : Ticket := { page := 32, pasid := 1, agent := 0, access := 0, core := false, also := [33] }
    let s := own' { n := 9, v := 9 } fun s => ({ s with tickets := [(9, x)] }).setCtx 7 { s.ctx 7 with await := .ticket 9, st := .blocked }
    s.serving = true ∧ s.ticketNo 9 = some 9 ∧ Tbl.find s.tickets 9 = some x ∧ s.copies = [] ∧ (Tbl.find s.ctxs 7).map (fun c => c.await) = some (.ticket 9) ∧
      s.ccs.all (fun e => e.2.orphans.isEmpty) = true := by decide +kernel
/-- A tier frame that the good checkpoint refers to. -/
theorem wit_MemoryEvents_kept : let s := own' {} fun s => { s with ckpt := { s.ckpt with seq := 1, images := [(0, { refs := [(0x20, 0x30)] })] } }
    s.serving = true ∧ s.tierCopyHeld (0x30 * 65536) false = true ∧ s.tierCopyHeld (0x31 * 65536) false = false ∧ s.tierCopyHeld 0 true = true := by decide +kernel

theorem wit_CopyEvents_turned : let c : Copy := { engine := .stream 16, origin := .incoming, pasid := 1, st := .frozen, tmpl := cpT 0 0x202000 4 3, remote := some { kind := .inPut, modId := 2, window := 0 } }
    let g : Copy := { c with engine := .stream 1, origin := .packet 0 3, st := .accepting, remote := some { kind := .get, modId := 2, window := 0 } }
    let s (c : Copy) := own' { n := 5 } fun s => { s.setCopy 5 c with us := 60000 }
    (s c).serving = true ∧ Tbl.find (s c).copies 5 = some c ∧ c.active = true ∧ c.landsHere = true ∧ c.readsHere = false ∧ (s c).turnsAway c = true ∧
      g.active = true ∧ g.landsHere = true ∧ (s g).turnsAway g = true ∧ (s c).ckptBusy = false ∧ 0 + 50000 ≤ (s c).us := by decide +kernel

theorem wit_StrandEvents_lapsed : let m : Nat → State := fun k => own' { core := .c 0, n := 9 } fun s =>
      { core0 (fun c => { c with ctxList := [{ msg := 9, reservedUntil := some k }] }) (message .task 1 s) with now := 6 }
    (m 6).serving = true ∧ 6 ≤ (m 6).now ∧ ((m 6).core (.c 0)).ringList = [] ∧ ¬ 7 ≤ (m 7).now := by decide +kernel
theorem wit_StrandEvents_fetch : let s := own' { n := ctxKey (.c 0) 2 } (fun s => (blocked (.ticket 9) none s).setCtx (ctxKey (.c 0) 2)
      { (blocked (.ticket 9) none s).ctx (ctxKey (.c 0) 2) with failed := [32] })
    s.serving = true ∧ (s.ctx (ctxKey (.c 0) 2)).st = .blocked ∧ (s.ctx (ctxKey (.c 0) 2)).waitAt = none ∧ (s.ctx (ctxKey (.c 0) 2)).failed = [32] ∧ s.tickets = [] := by
  decide +kernel
/-- Waits for the matrix engine, for the expert unit with its answer, and for each counter of the list. -/
theorem wit_StrandEvents_awaits : ∀ w ∈ [Await.matrix 3 none, .matrix 3 (some 5), .expert 3 (some (5, 0)), .stream, .elements, .vector, .steal 4, .queue 2, .ring 8, .collective 11],
    let s := own' { n := ctxKey (.c 0) 2 } (blocked w (some (.nop (fr 0 0 0 0))))
    s.serving = true ∧ (s.ctx (ctxKey (.c 0) 2)).st = .blocked ∧ (s.ctx (ctxKey (.c 0) 2)).await = w ∧ decode (encode (.nop (fr 0 0 0 0))) = .ok (.nop (fr 0 0 0 0)) := by
  decide +kernel

/-- A launch of a port: with its template out of reach, and failed. -/
theorem wit_LaunchEvents_template : let l : Launch := { id := 9, pasid := 1, x0 := 5, tmplAddr := 0x900000, origin := .port 0 4 0x204000 [] [] 0 }
    let s := own' { n := 7 } fun s => s.setLaunch 7 l
    let r := s.launchTmpl (workOf 0x1100 15) 1 0x900000 []
    let f := s.launchTmpl (workOf 0x1100 15) 1 0x900000 [0x90]
    s.serving = true ∧ (s.launchBid 7).map (fun b => (s.granted b, s.leavesCd0 b.tiles)) = some (true, false) ∧ r.1.1 = .later ∧ r.2.launches = s.launches ∧
      f.1 = (.bad, none) ∧ f.2.launches = s.launches := by decide +kernel
/-- A resumption with a pushed element that another copy still holds back, and one with none. -/
theorem wit_LaunchEvents_writes : let e : Pushed := { p := 0, v := 5, bad := false, ctx := 0, rm := 0, launch := 1, x := 0 }
    let s (b : Bool) := own' { n := 1 } fun s =>
      let s := launch1 (fun l => { l with st := .resuming }) (stream 1 s)
      let s := (s.setStrm 0 24 { s.strm 0 24 with launch := 1, pushed := [e], desc := BitVec.ofNat 512 (own 0x2000 + 2 ^ 112 + 2 ^ 176 + 2 ^ 240 + 10 * 2 ^ 256 + 2 ^ 288) })
      let s : State := { s with saved := [(1, {})] }
      if b then running 0 s else s
    (s true).serving = true ∧ Tbl.find (s true).launches 1 = some ((s true).launch 1) ∧ ((s true).launch 1).st = .resuming ∧
      ((s true).resumeWrites 1).savedWrites 1 = true ∧ (s false).serving = true ∧ ((s false).resumeWrites 1).savedWrites 1 = false := by decide +kernel

theorem wit_ExpertEvents_lapsed : let e : Listed := { msg := 3, reservedUntil := some 6 }
    let s := own' { n := 0 } fun s => { onTile0 (fun t => { t with dqList := [e] }) s with now := 6 }
    s.serving = true ∧ (s.tile 0).dqList = [e] ∧ 6 ≤ s.now := by decide +kernel

/-- Checkpoints: one asked for in reduced service, one with a tier port failed, restorations in each of their ways out. -/
theorem wit_PowerEvents_restores : let s (f : State → State) := own' {} fun s => f { s with launches := [], ckpt := { s.ckpt with status := 7, seq := 1 } }
    let r := s fun s => { s with service := .reduced }
    let p := s fun s => { s with tierFailed := [2] }
    let c := own' {} fun s => { s with tierFailed := [2], ckpt := { s.ckpt with status := 2 } }
    r.serving = true ∧ r.service = .reduced ∧ r.ckpt.status = 7 ∧ p.serving = true ∧ p.ckpt.restored = false ∧ p.tierFailed ≠ [] ∧ c.serving = true ∧ c.ckpt.status = 2 ∧
      (s id).serving = true ∧ (s id).ckpt.restored = false ∧ (s id).goodImage = {} ∧ (s id).launches = [] ∧ (s id).byRef 3 = true ∧ (own' {} id).byRef 3 = false := by
  decide +kernel

end Sys2Proof.Tests
end

section
/-! SUPPORT. The bit operations of R299: none of them acts by lanes, and each completes with the value that the rule gives. -/

namespace Sys2Proof.Machine

-- How a scalar instruction completes

/-- The opcode field of a format R word. -/
theorem bits_encR_opcode (op fn : Nat) (x : FmtR) : bits (encR op fn x) 63 56 = op % 256 := by
  rw [bits, encR_op]; exact Nat.mod_mod op 256

/-- An instruction of opcode 0x02 whose predicate its opcode decides does not act by lanes (R289, R298). -/
theorem byLanes_of_opcode02 {i : Instr} {fn : Nat} {x : FmtR} (hword : encode i = encR 0x02 fn x)
    (hlanes : byLanes i = (instrOp i = 0x20 || instrOp i = 0x22 || (instrOp i = 0x21 && instrFn i ≤ 6))) : byLanes i = false := by
  have hop : instrOp i = 0x02 := by rw [instrOp, hword, bits_encR_opcode]
  simp [hlanes, hop]

/-- A scalar instruction that issues completes in the state that its body leaves, begun at NPC (R286). -/
theorem exec_eq_finish {i : Instr} {b : M Unit} {s t : State} (hexec : exec i s = native i b s) (hl : byLanes i = false)
    (hb : b s.atNpc = .ok ((), t)) (h : s.Issues i) : exec i s = .next (t.finish i) := by
  rw [hexec]
  exact native_ok i b s t h (by rw [atIssue_scalar s i hl]; exact hb)

/-- An instruction whose body is `bitUnary` writes to D the value `r` that its function gives for A. -/
theorem exec_bitUnary {i : Instr} {x : FmtR} {f : Word → Word} {s : State} {r : Word}
    (hexec : exec i s = native i (bitUnary x f) s) (hl : byLanes i = false) (hr : f (s.atNpc.source x.a).1 = r) (h : s.Issues i) :
    exec i s = .next (((s.atNpc.source x.a).2.result x.d r).finish i) :=
  hr ▸ exec_eq_finish hexec hl (bitUnary_eq x f _) h

/-- An instruction whose body is `bitBinary` writes to D the value `r` that its function gives for A and B. -/
theorem exec_bitBinary {i : Instr} {x : FmtR} {f : Word → Word → Word} {s : State} {r : Word}
    (hexec : exec i s = native i (bitBinary x f) s) (hl : byLanes i = false)
    (hr : f (s.atNpc.source x.a).1 ((s.atNpc.source x.a).2.source x.b).1 = r) (h : s.Issues i) :
    exec i s = .next ((((s.atNpc.source x.a).2.source x.b).2.result x.d r).finish i) :=
  hr ▸ exec_eq_finish hexec hl (bitBinary_eq x f _) h

/-- `bins` always completes. -/
theorem binsBody_eq (x : FmtR) (s : State) :
    binsBody x s = .ok ((), let a := s.source x.a; let b := a.2.source x.b; let c := b.2.source x.c
      c.2.result x.d (binsValue a.1 b.1 c.1)) := by
  unfold binsBody
  rw [bind_ok _ _ _ (readS_eq _ _), bind_ok _ _ _ (readS_eq _ _), bind_ok _ _ _ (readS_eq _ _)]; rfl

-- Shifts

theorem shlValue_eq (a n : Word) : shlValue a n = if 64 ≤ n.toNat then 0 else BitVec.ofNat 64 (a.toNat * 2 ^ n.toNat) := by
  unfold shlValue
  by_cases h : n.toNat < 64
  · rw [if_pos h, if_neg (Nat.not_le.mpr h), ← Nat.shiftLeft_eq]; rfl
  · rw [if_neg h, if_pos (Nat.not_lt.mp h)]

theorem shrValue_eq (a n : Word) : shrValue a n = if 64 ≤ n.toNat then 0 else BitVec.ofNat 64 (a.toNat / 2 ^ n.toNat) := by
  unfold shrValue
  by_cases h : n.toNat < 64
  · rw [if_pos h, if_neg (Nat.not_le.mpr h), ← Nat.shiftRight_eq_div_pow, ← BitVec.toNat_ushiftRight, BitVec.ofNat_toNat,
      BitVec.setWidth_eq]
  · rw [if_neg h, if_pos (Nat.not_lt.mp h)]

theorem sraValue_eq (a n : Word) : sraValue a n = BitVec.ofInt 64 (a.toInt / 2 ^ min n.toNat 63) := by
  rw [sraValue, BitVec.sshiftRight, Int.shiftRight_eq_div_pow]
  push_cast
  rfl

-- Counts of bits

/-- `k` is the number of zero bits of `a` above its highest one bit among the low `n`, or `n` where there is none. -/
def LeadingZeros (a : Word) (n k : Nat) : Prop :=
  k ≤ n ∧ (∀ i, n - k ≤ i → i < n → a.getLsbD i = false) ∧ (k < n → a.getLsbD (n - 1 - k) = true)

/-- `k` is the number of zero bits of `a` below its lowest one bit among bits [63 : 64 − n], or `n` where there is none. -/
def TrailingZeros (a : Word) (n k : Nat) : Prop :=
  k ≤ n ∧ (∀ i, 64 - n ≤ i → i < 64 - n + k → a.getLsbD i = false) ∧ (k < n → a.getLsbD (64 - n + k) = true)

theorem clzGo_leadingZeros (a : Word) (n : Nat) : LeadingZeros a n (clzGo a n) := by
  induction n with
  | zero => exact ⟨le_rfl, fun i _ h => absurd h (Nat.not_lt_zero i), fun h => absurd h (Nat.lt_irrefl 0)⟩
  | succ n ih =>
    obtain ⟨hle, hzero, hone⟩ := ih
    rw [clzGo]
    split
    case isTrue htop => exact ⟨Nat.zero_le _, fun i _ _ => by omega, fun _ => htop⟩
    case isFalse htop =>
      refine ⟨by omega, fun i hlo hhi => ?_, fun hlt => ?_⟩
      · obtain rfl | hi := Nat.eq_or_lt_of_le (Nat.le_of_lt_succ hhi)
        · exact Bool.eq_false_iff.mpr htop
        · exact hzero i (by omega) hi
      · rw [show n + 1 - 1 - (1 + clzGo a n) = n - 1 - clzGo a n by omega]
        exact hone (by omega)

theorem ctzGo_trailingZeros (a : Word) (n : Nat) (hn : n ≤ 64) : TrailingZeros a n (ctzGo a n) := by
  induction n with
  | zero => exact ⟨le_rfl, fun i hlo hhi => absurd hhi (Nat.not_lt.mpr hlo), fun h => absurd h (Nat.lt_irrefl 0)⟩
  | succ n ih =>
    obtain ⟨hle, hzero, hone⟩ := ih (by omega)
    have hbot : 64 - (n + 1) = 63 - n := by omega
    rw [ctzGo]
    split
    case isTrue hlow => exact ⟨Nat.zero_le _, fun i _ _ => by omega, fun _ => by rw [hbot]; exact hlow⟩
    case isFalse hlow =>
      refine ⟨by omega, fun i hlo hhi => ?_, fun hlt => ?_⟩
      · obtain rfl | hi := Nat.eq_or_lt_of_le hlo
        · rw [hbot]; exact Bool.eq_false_iff.mpr hlow
        · exact hzero i (by omega) (by omega)
      · rw [show 64 - (n + 1) + (1 + ctzGo a n) = 64 - n + ctzGo a n by omega]
        exact hone (by omega)

/-- The result of `clz` (R299). -/
theorem clzValue_spec (a : Word) : ∃ n, LeadingZeros a 64 n ∧ clzValue a = BitVec.ofNat 64 n :=
  ⟨_, clzGo_leadingZeros a 64, by rw [clzValue, w64]⟩

/-- The result of `ctz` (R299). -/
theorem ctzValue_spec (a : Word) : ∃ n, TrailingZeros a 64 n ∧ ctzValue a = BitVec.ofNat 64 n :=
  ⟨_, ctzGo_trailingZeros a 64 le_rfl, by rw [ctzValue, w64]⟩

theorem popcValue_eq (a : Word) : popcValue a = BitVec.ofNat 64 ((List.range 64).countP fun i => a.getLsbD i) := by
  rw [popcValue, w64, List.countP_eq_length_filter]

-- Bit fields

/-- Only bits [11:0] of a control value count (R299). -/
theorem bitField_eq (c : Word) : bitField c = (c.toNat % 64, c.toNat / 64 % 64 + 1) := by
  rw [bitField, bits, bits, Nat.shiftRight_zero, Nat.shiftRight_eq_div_pow]; rfl

theorem bextValue_eq (a c : Word) :
    let lo := c.toNat % 64
    let w := c.toNat / 64 % 64 + 1
    bextValue a c = BitVec.ofNat 64 (a.toNat / 2 ^ lo % 2 ^ (min (lo + w - 1) 63 + 1 - lo)) := by
  intro lo w
  rw [bextValue, bitField_eq, ← Nat.shiftRight_eq_div_pow]; rfl

theorem binsValue_eq (a c v : Word) :
    let lo := c.toNat % 64
    let w := c.toNat / 64 % 64 + 1
    let m : Word := BitVec.ofNat 64 ((2 ^ w - 1) * 2 ^ lo)
    binsValue a c v = (a &&& ~~~ m) ||| ((v <<< lo) &&& m) := by
  intro lo w m
  rw [binsValue, bitField_eq]
  simp only [Nat.shiftLeft_eq]; rfl

-- The statement

/-- Settles O9: each instruction completes with the value that its body computes, and that value is the one of R299. -/
theorem bitOperationResults : Obligations.BitOperationResults := by
  unfold Obligations.BitOperationResults
  intro x s a b c A B lo w m one two
  refine ⟨?and, ?or, ?xor, ?shl, ?shr, ?sra, ?clz, ?ctz, ?popc, ?bext, ?bins⟩
  case and => exact exec_bitBinary rfl (byLanes_of_opcode02 rfl rfl) rfl
  case or => exact exec_bitBinary rfl (byLanes_of_opcode02 rfl rfl) rfl
  case xor => exact exec_bitBinary rfl (byLanes_of_opcode02 rfl rfl) rfl
  case shl => exact exec_bitBinary rfl (byLanes_of_opcode02 rfl rfl) (shlValue_eq A B)
  case shr => exact exec_bitBinary rfl (byLanes_of_opcode02 rfl rfl) (shrValue_eq A B)
  case sra => exact exec_bitBinary rfl (byLanes_of_opcode02 rfl rfl) (sraValue_eq A B)
  case clz =>
    intro h
    obtain ⟨n, ⟨hle, hzero, hone⟩, hn⟩ := clzValue_spec A
    exact ⟨n, hle, hzero, hone, exec_bitUnary rfl (byLanes_of_opcode02 rfl rfl) hn h⟩
  case ctz =>
    intro h
    obtain ⟨n, ⟨hle, hzero, hone⟩, hn⟩ := ctzValue_spec A
    simp only [Nat.sub_self, Nat.zero_le, Nat.zero_add, true_implies] at hzero hone
    exact ⟨n, hle, hzero, hone, exec_bitUnary rfl (byLanes_of_opcode02 rfl rfl) hn h⟩
  case popc => exact exec_bitUnary rfl (byLanes_of_opcode02 rfl rfl) (popcValue_eq A)
  case bext => exact exec_bitBinary rfl (byLanes_of_opcode02 rfl rfl) (bextValue_eq A B)
  case bins =>
    intro h
    exact binsValue_eq A B c.1 ▸ exec_eq_finish rfl (byLanes_of_opcode02 rfl rfl) (binsBody_eq x _) h

end Sys2Proof.Machine
end

section
/-! SUPPORT. Atomics (R328, R329): what an access leaves of the executing contexts, what a write within one word leaves, and an atomic that completes. -/

namespace Sys2Proof.Machine

-- What an access to memory leaves of the contexts

/-- The contexts, and which of them executes: what no access to memory changes. -/
def State.strands (s : State) : Core × Nat × Tbl Ctx := (s.cur, s.curX, s.ctxs)

/-- The executing context is one of the contexts. -/
theorem State.me_of_strands {s t : State} (h : t.strands = s.strands) : t.me = s.me := by
  obtain ⟨hcur, hcurX, hctxs⟩ : t.cur = s.cur ∧ t.curX = s.curX ∧ t.ctxs = s.ctxs := by simpa [State.strands] using h
  rw [State.me, State.me, State.ctx, State.ctx, hcur, hcurX, hctxs]

theorem State.foldl_strands {β : Type} (f : State → β → State) (h : ∀ s b, (f s b).strands = s.strands) (l : List β) (s : State) :
    (l.foldl f s).strands = s.strands := by
  induction l generalizing s with
  | nil => rfl
  | cons b r ih => rw [List.foldl_cons, ih, h]

@[simp] theorem State.setPoison_strands (s : State) (w : Nat) (b : Bool) : (s.setPoison w b).strands = s.strands := rfl
@[simp] theorem State.setEmpty_strands (s : State) (w : Nat) (b : Bool) : (s.setEmpty w b).strands = s.strands := rfl

theorem State.setTlb_strands (s : State) (l : List Tlb) : ({ s with tlb := l } : State).strands = s.strands := rfl

theorem State.setMigrations_strands (s : State) (l : Tbl Migration) : ({ s with migrations := l } : State).strands = s.strands := rfl

@[simp] theorem State.countSoft_strands (s : State) (k : Nat) : (s.countSoft k).strands = s.strands := by
  simp only [State.countSoft]; split <;> rfl

@[simp] theorem State.raiseError_strands (s : State) (c : Nat) (a b : Word) : (s.raiseError c a b).strands = s.strands := by
  simp only [State.raiseError, State.raiseEvent]; split <;> [rfl; split <;> rfl]

@[simp] theorem State.touchFrame_strands (s : State) (k : Nat) : (s.touchFrame k).strands = s.strands := by
  simp only [State.touchFrame]; split <;> rfl

@[simp] theorem State.checkWord_strands (s : State) (w : Nat) : (s.checkWord w).strands = s.strands := by
  unfold State.checkWord
  split
  · split
    · rfl
    · split
      · rw [State.countSoft_strands]; rfl
      · rfl
  · split
    · rw [State.raiseError_strands]
      generalize hb : List.foldl _ s (beatWords w) = b
      have hstrands : b.strands = s.strands := by
        rw [← hb, State.foldl_strands]
        intros
        rfl
      exact hstrands
    · split
      · rw [State.countSoft_strands]; rfl
      · rfl

@[simp] theorem State.load_strands (s : State) (k n : Nat) : (s.load k n).2.strands = s.strands :=
  State.foldl_strands _ (fun s _ => State.checkWord_strands s _) _ _

@[simp] theorem State.storeWord_strands (s : State) (k n v : Nat) (p : Bool) : (s.storeWord k n v p).strands = s.strands := by
  unfold State.storeWord
  rw [State.touchFrame_strands, State.setEmpty_strands]
  by_cases h : n < 8
  · cases p <;> simp only [if_pos h] <;> exact State.checkWord_strands s _
  · simp only [if_neg h]; rfl

-- Translation and the home

@[simp] theorem State.readNode_strands (s : State) (die pasid va lvl dpa : Nat) : (s.readNode die pasid va lvl dpa).2.strands = s.strands := by
  unfold State.readNode
  split
  · rfl
  · split
    · rfl
    · dsimp only
      split
      · exact State.load_strands s _ _
      · split <;> exact State.load_strands s _ _

@[simp] theorem State.walkGo_strands (s : State) (die pasid va node : Nat) (l : List (Nat × Nat × Nat)) :
    (s.walkGo die pasid va node l).2.strands = s.strands := by
  induction l generalizing s node with
  | nil => rfl
  | cons e rest ih =>
    obtain ⟨lo, n, lvl⟩ := e
    have hnode := s.readNode_strands die pasid va lvl (node + 8 * ((va >>> lo) % 2 ^ n))
    rw [State.walkGo]
    generalize s.readNode die pasid va lvl (node + 8 * ((va >>> lo) % 2 ^ n)) = r at hnode
    obtain ⟨_ | e, k⟩ := r
    · exact hnode
    · dsimp only
      split
      · split <;> [exact hnode; split <;> exact hnode]
      · split <;> [exact hnode; split <;> [exact hnode; exact (ih k _).trans hnode]]

@[simp] theorem State.leafWalk_strands (s : State) (die pasid va : Nat) : (s.leafWalk die pasid va).2.strands = s.strands := by
  have hread : (if s.hasMemory (s.ptabBase.toNat + 8 * pasid) then s.load (s.ptabBase.toNat + 8 * pasid) 8
      else ((0, true), s)).2.strands = s.strands := by
    split <;> simp
  unfold State.leafWalk
  dsimp only
  generalize (if s.hasMemory (s.ptabBase.toNat + 8 * pasid) then s.load (s.ptabBase.toNat + 8 * pasid) 8 else ((0, true), s)) = r at hread
  obtain ⟨⟨v, p⟩, t⟩ := r
  dsimp only
  split
  · exact hread
  · exact (t.walkGo_strands _ _ _ _ _).trans hread

@[simp] theorem State.walk_strands (s : State) (agent pasid va : Nat) (k : AccKind) : (s.walk agent pasid va k).2.strands = s.strands := by
  have hleaf := s.leafWalk_strands (agentDie agent) pasid va
  unfold State.walk
  generalize s.leafWalk (agentDie agent) pasid va = r at hleaf
  obtain ⟨_ | ⟨leaf, dpa, huge⟩, t⟩ := r
  · exact hleaf
  · dsimp only
    split <;> exact hleaf

@[simp] theorem State.atsAsk_strands (s : State) (agent pasid page : Nat) : (s.atsAsk agent pasid page).2.strands = s.strands := by
  unfold State.atsAsk
  split <;> rfl

@[simp] theorem State.translate_strands (s : State) (agent pasid va : Nat) (k : AccKind) :
    (s.translate agent pasid va k).2.strands = s.strands := by
  have hwalk := s.walk_strands agent pasid va k
  unfold State.translate
  split
  · rfl
  · generalize s.walk agent pasid va k = r at hwalk
    obtain ⟨_ | ⟨leaf, dpa, huge⟩, t⟩ := r
    · exact hwalk
    · dsimp only
      generalize putBit _ 9 true = leaf'
      split
      · have hask := t.atsAsk_strands agent pasid (pageBase va huge)
        generalize t.atsAsk agent pasid (pageBase va huge) = a at hask
        obtain ⟨_ | _ | host, t'⟩ := a
        · exact hask.trans hwalk
        · exact hask.trans hwalk
        · dsimp only
          rw [State.setTlb_strands, State.storeWord_strands]
          exact hask.trans hwalk
      · dsimp only
        rw [State.setTlb_strands, State.storeWord_strands]
        exact hwalk

@[simp] theorem State.migLeave_strands (s : State) (n : Nat) (m : Migration) (who : Nat × Nat) : (s.migLeave n m who).strands = s.strands := by
  unfold State.migLeave
  split <;> rfl

@[simp] theorem State.homeAccepts_strands (s : State) (key : Nat) (who : Nat × Nat) : (s.homeAccepts key who).2.strands = s.strands := by
  unfold State.homeAccepts
  generalize s.migAt key false = late, s.migAt key true = early
  obtain _ | ⟨n, m⟩ := early
  · obtain _ | ⟨n', m'⟩ := late <;> dsimp only <;> split <;> simp
  · obtain _ | ⟨n', m'⟩ := late <;> dsimp only <;> split_ifs <;> simp [State.setMigrations_strands]

/-- An access that resolves to a memory key has left the contexts as they were. -/
theorem place_key_strands {a : Word} {n : Nat} {k : AccKind} {s t : State} {key : Nat} {f : Option Nat}
    (h : place a n k s = .ok (.key key f, t)) : t.strands = s.strands := by
  unfold place at h
  split at h
  case h_4 =>
    split_ifs at h <;> simp only [Except.ok.injEq, Prod.mk.injEq, Place.key.injEq, reduceCtorEq, false_and] at h
    obtain ⟨-, rfl⟩ := h
    rfl
  case h_5 va _ =>
    have htr := s.translate_strands s.cur.agent s.myPasid va k
    generalize s.translate s.cur.agent s.myPasid va k = r at h htr
    split_ifs at h
    case pos => simp at h
    obtain ⟨e | _ | _, s'⟩ := r
    · dsimp only at h
      have hhome := s'.homeAccepts_strands (e.key va) (1, s'.myKey)
      generalize s'.homeAccepts (e.key va) (1, s'.myKey) = q at h hhome
      obtain ⟨_ | _, s''⟩ := q <;> split_ifs at h <;>
        simp only [Except.ok.injEq, Prod.mk.injEq, Place.key.injEq, reduceCtorEq, false_and] at h
      obtain ⟨-, rfl⟩ := h
      exact hhome.trans htr
    · dsimp only at h
      split_ifs at h
      simp at h
    · simp at h
  all_goals simp at h

/-- An access that resolves lies in a window. -/
theorem window_of_place_ok {a : Word} {n : Nat} {k : AccKind} {s t : State} {p : Place} (h : place a n k s = .ok (p, t)) :
    ∃ w, s.window a n = .ok w := by
  cases hw : s.window a n with
  | ok w => exact ⟨w, rfl⟩
  | error c => simp [place, hw] at h

/-- The checks on an address pass where it lies in a window and is aligned. -/
theorem checkAddr_ok {a : Word} {n : Nat} {s : State} {w : Win} (hwin : s.window a n = .ok w) (halign : a.toNat % n = 0) :
    checkAddr a n s = .ok ((), s) := by
  simp [checkAddr, hwin, halign]

/-- A release goes on where no stream element of the strand is still to be performed. -/
theorem releaseM_ok {s : State} (hpushed : s.ownPushed = false) (hfetch : s.ownFetch = false) : releaseM s = .ok ((), s) := by
  unfold releaseM
  rw [bind_ok _ _ s (a := s) rfl, hpushed, hfetch]; rfl

/-- A release that only some forms make. -/
theorem releaseIf_ok {c : Prop} [Decidable c] {β : Type} (g : Unit → M β) {s : State}
    (h : c → s.ownPushed = false ∧ s.ownFetch = false) : (if c then releaseM >>= g else g ()) s = g () s := by
  split
  case isTrue hc => exact bind_ok _ _ _ (releaseM_ok (h hc).1 (h hc).2)
  case isFalse => rfl

-- A write within one word

/-- A write that ends in the word where it begins is the write of that word. -/
theorem State.store_eq_storeWord (s : State) {k n : Nat} (v : Nat) (p : Bool) (hn : 0 < n) (hword : k % 8 + n ≤ 8) :
    s.store k n v p = s.storeWord k n (v % 256 ^ n) p := by
  obtain ⟨f, rfl⟩ : ∃ f, n = f + 1 := ⟨n - 1, by omega⟩
  rw [State.store, State.storeGo, if_neg (Nat.succ_ne_zero f), Nat.min_eq_left (by omega)]
  dsimp only
  rw [Nat.sub_self]
  cases f <;> rfl

@[simp] theorem State.touchFrame_isEmpty (s : State) (k w : Nat) : (s.touchFrame k).isEmpty w = s.isEmpty w := by
  simp only [State.touchFrame]; split <;> rfl

/-- A word written is full (R234). -/
theorem State.storeWord_isEmpty (s : State) (k n v : Nat) (p : Bool) : (s.storeWord k n v p).isEmpty (k / 8) = false := by
  unfold State.storeWord
  rw [State.touchFrame_isEmpty, State.isEmpty, State.setEmpty_empty, Tbl.get_set_self]

theorem Memory.read_lt (m : List Host.Cell) (k n : Nat) : Memory.read m k n < 256 ^ n := by
  induction n generalizing k with
  | zero => exact Nat.one_pos
  | succ n ih =>
    have hbyte := (Memory.get m k).isLt
    have hrest := ih (k + 1)
    rw [Memory.read, pow_succ]
    omega

@[simp] theorem finish_empty (s : State) (i : Instr) : (s.finish i).empty = s.empty := by
  simp only [State.finish]; split <;> rfl

-- An atomic that completes

theorem State.atNpc_gReg (s : State) (r : Nat) : s.atNpc.gReg r = s.gReg r := by
  simp [State.gReg, Ctx.gReg]

/-- The address of an atomic is the same before and after PC moves to NPC. -/
theorem atomAddr_atNpc (x : FmtM) (cas : Bool) (s : State) : atomAddr x cas s.atNpc = atomAddr x cas s := by
  simp only [atomAddr, State.atNpc_gReg]

/-- What R329 computes, by the function number of the entry. -/
def atomFn : Nat → AtomFn
  | 0 => atSwap
  | 1 => atAdd
  | 2 => atAnd
  | 3 => atOr
  | 4 => atXor
  | 5 => atMin
  | 6 => atMax
  | 7 => atMinu
  | 8 => atMaxu
  | _ => atCas

/-- The values of R329, the signed ones by their two's complement reading. -/
theorem atomFn_eq (fn w m v e : Nat) : atomFn fn w m v e = match fn with
    | 0 => v
    | 1 => (m + v) % 2 ^ w
    | 2 => m &&& v
    | 3 => m ||| v
    | 4 => m ^^^ v
    | 5 => if (BitVec.ofNat w m).toInt ≤ (BitVec.ofNat w v).toInt then m else v
    | 6 => if (BitVec.ofNat w v).toInt ≤ (BitVec.ofNat w m).toInt then m else v
    | 7 => if m ≤ v then m else v
    | 8 => if v ≤ m then m else v
    | _ => if m = e then v else m := by
  match fn with
  | 0 | 1 | 2 | 3 | 4 | 5 | 6 => rfl
  | 7 => exact min_def m v
  | 8 => exact max_def' m v
  | _ + 9 => rfl

/-- The new value fits the width of the access where the two values do. -/
theorem atomFn_lt (fn w m v e : Nat) (hm : m < 2 ^ w) (hv : v < 2 ^ w) : atomFn fn w m v e < 2 ^ w := by
  unfold atomFn
  split
  · exact hv
  · exact Nat.mod_lt _ (Nat.two_pow_pos w)
  · exact Nat.and_lt_two_pow m hv
  · exact Nat.or_lt_two_pow hm hv
  · exact Nat.xor_lt_two_pow hm hv
  · unfold atMin; split <;> assumption
  · unfold atMax; split <;> assumption
  · exact (Nat.min_le_left m v).trans_lt hm
  · exact max_lt hm hv
  · unfold atCas; split <;> assumption

/-- The entry of function number `fn` in the group of the atomics (R328): its meaning, its word and its options. -/
structure AtomEntry (x : FmtM) (i : Instr) (fn : Nat) : Prop where
  runs : ∀ s, exec i s = native i (atomBody x (decide (fn = 9)) (atomFn fn)) s
  word : encode i = encM 0x11 fn x
  lanes : byLanes i = (instrOp i = 0x20 || instrOp i = 0x22 || (instrOp i = 0x21 && instrFn i ≤ 6))
  options : i.optionsOk = true → x.atomOk = true

theorem atomEntry_of_mem {x : FmtM} {i : Instr} {fn : Nat}
    (h : (i, fn) ∈ [(Instr.amswap x, 0), (.amadd x, 1), (.amand x, 2), (.amor x, 3), (.amxor x, 4), (.ammin x, 5), (.ammax x, 6), (.amminu x, 7),
      (.ammaxu x, 8), (.amcas x, 9)]) : AtomEntry x i fn := by
  simp only [List.mem_cons, Prod.mk.injEq, List.not_mem_nil, or_false] at h
  rcases h with ⟨rfl, rfl⟩ | ⟨rfl, rfl⟩ | ⟨rfl, rfl⟩ | ⟨rfl, rfl⟩ | ⟨rfl, rfl⟩ | ⟨rfl, rfl⟩ | ⟨rfl, rfl⟩ | ⟨rfl, rfl⟩ | ⟨rfl, rfl⟩ | ⟨rfl, rfl⟩
  all_goals exact ⟨fun _ => rfl, rfl, rfl, by simp +contextual [Instr.optionsOk]⟩

/-- An atomic does not act by lanes (R289). -/
theorem AtomEntry.not_byLanes {x : FmtM} {i : Instr} {fn : Nat} (h : AtomEntry x i fn) : byLanes i = false := by
  have hop : instrOp i = 0x11 := by
    rw [instrOp, h.word, bits, encM_op]; rfl
  simp [h.lanes, hop]

/-- An instruction that passes the decoder's checks has options that its entry accepts (R293). -/
theorem optionsOk_of_decodeTrap_none {i : Instr} {s : State} (h : decodeTrap i s = none) : i.optionsOk = true := by
  have hwf : i.wf = true := by
    by_contra hwf
    simp [decodeTrap, Bool.eq_false_iff.mpr hwf] at h
  by_contra hopt
  simp [Instr.wf, Instr.defect, Bool.eq_false_iff.mpr hopt] at hwf
  split_ifs at hwf

/-- An atomic accesses 4 or 8 bytes (R328). -/
theorem two_pow_size_of_atomOk {x : FmtM} (h : x.atomOk = true) : 2 ^ x.size.toNat = 4 ∨ 2 ^ x.size.toNat = 8 := by
  simp only [FmtM.atomOk, Bool.and_eq_true, Bool.or_eq_true, decide_eq_true_eq] at h
  obtain ⟨⟨hsize | hsize, -⟩, -⟩ := h <;> simp [hsize]

/-- An aligned access of 4 or 8 bytes lies within one word. -/
theorem aligned_in_word {k n : Nat} (hsize : n = 4 ∨ n = 8) (halign : k % n = 0) : k % 8 + n ≤ 8 := by
  obtain rfl | rfl := hsize <;> omega

/-- An atomic at an aligned memory key whose bytes are not poisoned writes the new value there, and the old one to DR (R329). -/
theorem atomBody_key {x : FmtM} {cas : Bool} {f : AtomFn} {s s1 s2 : State} {key m : Nat} {pf : Option Nat}
    (halign : (atomAddr x cas s).toNat % 2 ^ x.size.toNat = 0) (hovl : s.ovlAt (atomAddr x cas s) = none)
    (hplace : place (atomAddr x cas s) (2 ^ x.size.toNat) .atomic s = .ok (.key key pf, s1))
    (hload : s1.load key (2 ^ x.size.toNat) = ((m, false), s2)) (hrel : 2 ≤ x.ord.toNat → s.ownPushed = false ∧ s.ownFetch = false) :
    atomBody x cas f s = .ok ((), let n := 2 ^ x.size.toNat
      (s2.store key n (f (8 * n) m ((s.gReg x.dr.toNat).toNat % 2 ^ (8 * n)) ((s.gReg x.idx.toNat).toNat % 2 ^ (8 * n))) false).setG
        x.dr.toNat (w64 m)) := by
  obtain ⟨w, hwin⟩ := window_of_place_ok hplace
  have hread : run (fun s => s.load key (2 ^ x.size.toNat)) s1 = .ok ((m, false), s2) := by rw [run_apply, hload]
  unfold atomBody
  rw [bind_ok _ _ s (a := s) rfl, bind_ok _ _ _ (checkAddr_ok hwin halign), releaseIf_ok _ hrel]
  dsimp only
  rw [hovl]
  dsimp only
  rw [bind_ok _ _ _ hplace]
  dsimp only
  rw [bind_ok _ _ _ hread]
  rfl

/-- What a completed atomic leaves: the new value and no other byte changed, the word full, the old value in DR (R329). -/
theorem atomic_result (s : State) (i : Instr) {key n old new dr : Nat} (hn : 0 < n) (hword : key % 8 + n ≤ 8) (hnew : new < 256 ^ n) :
    let t := ((s.store key n new false).setG dr (w64 old)).finish i
    t.me.pc = s.me.pc ∧ Memory.read t.mem key n = new ∧ t.isEmpty (key / 8) = false ∧
      (∀ j, (j < key ∨ key + n ≤ j) → t.byte j = s.byte j) ∧
      (∀ r, t.gReg r = if r = dr then w64 old else s.gReg r) ∧ t.me.aflags = s.me.aflags := by
  intro t
  have hstore := s.store_eq_storeWord new false hn hword
  have hme : (s.store key n new false).me = s.me := State.me_of_strands (by rw [hstore, State.storeWord_strands])
  have hmem : t.mem = (s.store key n new false).mem := finish_mem _ i
  have hempty : t.empty = (s.store key n new false).empty := finish_empty _ i
  have htme : t.me = { (s.me.setG dr (w64 old)).settled with live := (s.me.setG dr (w64 old)).live &&& ~~~ (lastUse i).1 } := by
    rw [finish_me, State.setG, State.setMe_me, hme]
  refine ⟨?pc, ?value, ?full, ?others, ?regs, ?flags⟩
  case pc => rw [htme]; rfl
  case value => rw [hmem, hstore, State.storeWord_mem, Memory.read_write, Nat.mod_mod, Nat.mod_eq_of_lt hnew]
  case full =>
    rw [State.isEmpty, hempty, hstore]
    exact State.storeWord_isEmpty _ _ _ _ _
  case others =>
    intro j hj
    rw [State.byte, hmem]
    exact State.store_byte_out _ _ _ _ _ _ hj
  case regs =>
    intro r
    rw [finish_gReg, gReg_setG, State.gReg, hme, State.gReg]
  case flags => rw [htme]; rfl

/-- An atomic that issues, at an aligned memory key whose bytes are not poisoned, completes in the state that its body leaves. -/
theorem AtomEntry.exec_eq {x : FmtM} {i : Instr} {fn : Nat} {s s1 s2 : State} {key m : Nat} {pf : Option Nat} (hentry : AtomEntry x i fn)
    (hissues : s.Issues i) (halign : (atomAddr x (decide (fn = 9)) s).toNat % 2 ^ x.size.toNat = 0)
    (hovl : s.ovlAt (atomAddr x (decide (fn = 9)) s) = none)
    (hplace : place (atomAddr x (decide (fn = 9)) s) (2 ^ x.size.toNat) .atomic s.atNpc = .ok (.key key pf, s1))
    (hload : s1.load key (2 ^ x.size.toNat) = ((m, false), s2)) (hrel : 2 ≤ x.ord.toNat → s.ownPushed = false ∧ s.ownFetch = false) :
    exec i s = .next (((s2.store key (2 ^ x.size.toNat) (atomFn fn (8 * 2 ^ x.size.toNat) m
      ((s.gReg x.dr.toNat).toNat % 2 ^ (8 * 2 ^ x.size.toNat)) ((s.gReg x.idx.toNat).toNat % 2 ^ (8 * 2 ^ x.size.toNat))) false).setG
        x.dr.toNat (w64 m)).finish i) := by
  rw [← atomAddr_atNpc] at halign hovl hplace
  have hpushed : s.atNpc.ownPushed = s.ownPushed := rfl
  have hfetch : s.atNpc.ownFetch = s.ownFetch := by
    simp only [State.ownFetch, State.myLaunch, State.atNpc_me]; rfl
  rw [← hpushed, ← hfetch] at hrel
  have hbody := atomBody_key (f := atomFn fn) halign hovl hplace hload hrel
  simp only [State.atNpc_gReg] at hbody
  exact exec_eq_finish (hentry.runs s) hentry.not_byLanes hbody hissues

/-- Settles O26: the atomic completes with the effect of its body, whose function is the one of R329 for its entry. -/
theorem atomicResults : Obligations.AtomicResults := by
  unfold Obligations.AtomicResults
  intro x s s1 key pf op fn hmem hissues ea n w halign hovl hplace hkey hclean hrel m v sm sv nv
  have hentry := atomEntry_of_mem hmem
  have hsize : n = 4 ∨ n = 8 := two_pow_size_of_atomOk (hentry.options (optionsOk_of_decodeTrap_none hissues.legal))
  have hea : atomAddr x (decide (fn = 9)) s = ea := by
    simp [atomAddr, ea]
  have hnv : atomFn fn w m v ((s.gReg x.idx.toNat).toNat % 2 ^ w) = nv := atomFn_eq fn w m v _
  have hm : m < 2 ^ w := (Memory.read_lt s1.mem key n).trans_eq (pow_mul 2 8 n).symm
  have hv : v < 2 ^ w := Nat.mod_lt _ (Nat.two_pow_pos w)
  have hnew : nv < 256 ^ n := by
    rw [← hnv]
    exact (atomFn_lt fn w m v _ hm hv).trans_eq (pow_mul 2 8 n)
  have hload : s1.load key n = ((m, false), (s1.load key n).2) :=
    Prod.ext (Prod.ext (congrArg (fun l => Memory.read l key n) (s1.load_mem key n)) hclean) rfl
  have hme : (s1.load key n).2.me = { s.me with pc := s.me.pc + 8 } := by
    rw [State.me_of_strands (s1.load_strands key n), State.me_of_strands (place_key_strands hplace), State.atNpc_me]
  have hexec := hentry.exec_eq hissues (by rwa [hea]) (by rwa [hea]) (by rwa [hea]) hload hrel
  obtain ⟨hpc, hvalue, hfull, hothers, hregs, hflags⟩ :=
    atomic_result (s1.load key n).2 op (key := key) (n := n) (old := m) (new := nv) (dr := x.dr.toNat) (by omega) (aligned_in_word hsize hkey) hnew
  refine ⟨_, hexec, ?_⟩
  rw [hnv]
  refine ⟨hpc.trans (by rw [hme]), hvalue, hfull, fun j hj => (hothers j hj).trans ?_, fun r => (hregs r).trans ?_, hflags.trans (by rw [hme])⟩
  · rw [State.byte, State.load_mem, State.byte]
  · rw [State.gReg, hme, State.gReg]; rfl

end Sys2Proof.Machine
end
